-- ==== Sys2Proof/Word.lean ====
section
/-! DEFINITION. The word types of the hub, and the numbers by which its parts are named. -/

namespace Sys2Proof

/-- One byte of a frame, of a card's memory or of a request's arguments (chapter 12). -/
abbrev Byte := BitVec 8

/-- A slot and its port (00 Conventions: "Both are numbered 1–12"). Slot number `n` is the index `n - 1`. -/
abbrev Slot := Fin 12

/-- A lane of a port, 0–3 (01, "Lanes per port"). -/
abbrev Lane := Fin 4

/-- A monitor channel, 0–15 (09, 9.1). -/
abbrev Channel := Fin 16

/-- An alarm point, ids 0–92 (10, 10.1). -/
abbrev PointId := Fin 93

/-- The number that the manual, a frame or a record gives a slot. -/
def slotNumber (n : Slot) : Nat := n.val + 1

/-- The twelve slots in ascending order. -/
def allSlots : List Slot := [0, 1, 2, 3, 4, 5, 6, 7, 8, 9, 10, 11]

/-- The four lanes in ascending order. -/
def allLanes : List Lane := [0, 1, 2, 3]

end Sys2Proof
end

