-- ==== Sys2Proof/Config.lean ====
section
/-! DEFINITION. The fixed numbers of the part, and the values the manual leaves open. -/

namespace Sys2Proof.Config

/-- The n-th value that the manual leaves open and the part nevertheless sends: the header sequence of a
TIME_MARK and of a MAIL_ACK frame, and the request code answered to a MGMT payload of no bytes (LOG 10, 31); the
byte that a card's memory gives over the sideband (LOG 17); and the group of a WRITE_GROUP that the hub takes by
itself (LOG 35). It has no body: a claim holds whatever these values are. -/
opaque freeByte : Nat → Byte

/-- What a card does on the connected sideband line, the n-th time the master looks: whether it holds the clock wire,
whether its data wire is low in SELECT, and whether it leaves a byte unacknowledged (LOG 17). Without a body: a claim
holds whatever the card does. -/
opaque cardHoldsClock : Nat → Bool
opaque cardHoldsData : Nat → Bool
opaque cardRefusesByte : Nat → Bool

/-- The n-th result that the monitor's converter gives (LOG 33). Without a body: a claim holds for every result. -/
opaque analogResult : Nat → BitVec 10

/-- Oscillator periods in one local second (00 Conventions, Time). -/
def ticksPerSecond : Nat := 125000000

/-- Nanoseconds of one oscillator period (05: "8 ns per tick"). -/
def nsPerTick : Nat := 8

/-- Oscillator periods in one microsecond and in one millisecond of local time. -/
def ticksPerUs : Nat := 125
def ticksPerMs : Nat := 125000

/-- Nanoseconds in a second of hub time. -/
def nsPerSecond : Nat := 1000000000

/-- The seconds of hub time are 48 bits wide (R79). -/
def secModulus : Nat := 2 ^ 48

/-- The nominal increment, 8 ns in units of 2^-32 ns (R80). -/
def nominalIncrement : Nat := 34359738368

/-- Shared cells and reserve cells of the pool (R43). -/
def sharedCells : Nat := 3840
def reserveCells : Nat := 256

/-- The deadline of a training, 2 ms, and of a far loop test, 1 ms (R3, R6). -/
def trainingTicks : Nat := 2 * ticksPerMs
def testTicks : Nat := ticksPerMs

/-- Presence, latch and external input debounce times (R120, R171). -/
def presenceTicks : Nat := 100 * ticksPerMs
def latchTicks : Nat := 20 * ticksPerMs
def extInputTicks : Nat := 50 * ticksPerMs

/-- One unit of a card's soft-start time, 10 ms (R124, R148). -/
def softStartTicks : Nat := 10 * ticksPerMs

/-- The holdoff of a FAILED source, 10 local seconds (R87). -/
def holdoffTicks : Nat := 10 * ticksPerSecond

/-- The conversion time of the monitor, 20 µs (R157). -/
def conversionTicks : Nat := 20 * ticksPerUs

/-- A clock period of the sideband, 10 µs at 100 kHz, and a byte with its acknowledge bit, nine of them (08, 8.2). -/
def sidebandClockTicks : Nat := 10 * ticksPerUs
def sidebandByteTicks : Nat := 9 * sidebandClockTicks

/-- The card clock hold limit, 10 ms (R145). -/
def clockHoldTicks : Nat := 10 * ticksPerMs

/-- Limits of the alarm unit and of the agent (R173, R174, R178, R181). -/
def maxNotices : Nat := 32
def maxNoticesPerWait : Nat := 8
def maxWaits : Nat := 4
def maxRequests : Nat := 8
def maxRefusals : Nat := 8

/-- RAW entries that may stand in the identity request queue (R142). -/
def maxRawReads : Nat := 2

/-- Frames that a TIMING queue holds (R49). -/
def maxTiming : Nat := 8

/-- The maker code, part number and revision that READ_HUB answers (R184). -/
def makerCode : Nat := 214
def partNumber : Nat := 1640
def partRevision : Nat := 1

end Sys2Proof.Config
end

