-- ==== Sys2Proof/Syntax.lean ====
section
/-! DEFINITION. The commands of the hub: one constructor of `Instr` for each row of spec/opcode_table.json. -/

namespace Sys2Proof

/-- The two reference sources, P (pulse) and N (network) (05, 5.2). -/
inductive Source where
  | P
  | N
deriving DecidableEq, Repr

/-- The phases of a sideband transaction, in order (R144). -/
inductive SidebandPhase where
  | select
  | start
  | addressWrite
  | offset
  | restart
  | addressRead
  | data
  | stop
deriving DecidableEq, Repr

/-- How a sideband transaction ends on the wire, a card's clock hold apart (R144, R145). A transaction that runs
through ends with the bytes received in DATA. -/
inductive SidebandEnd where
  | busStuck
  | addressWriteNack
  | offsetNack
  | addressReadNack
  | done (bytes : List Byte)
deriving DecidableEq, Repr

/-- An optional count as it stands in the arguments: its presence byte and its two-byte field (R188). -/
structure RawOptional where
  presence : Byte
  value : BitVec 16
deriving DecidableEq, Repr

/-- A window as it stands in the arguments of WRITE_WINDOWS: start and length, 4 bytes each (R188). -/
structure RawWindow where
  start : BitVec 32
  length : BitVec 32
deriving DecidableEq, Repr

/-- The commands. The first group are events of the links, the clocks and the wired lines; an event names the port,
slot, lane, source or input it happens at, and carries what only the outside knows. The second group are the
management requests: such a command is the agent's taking of the request at the head of its queue (R179), and its
operands are the request's argument fields as R188 lays them out, unchecked. A frame is received as what each of its
logical lanes brought, the framing overhead with it (R187). -/
inductive Instr where
  | powerOn
  | laneTrained (p : Slot) (l : Lane)
  | trainingDeadlineExpiry (p : Slot)
  | testDeadlineExpiry (p : Slot)
  | laneFailure (p : Slot) (l : Lane)
  | cellRequest (p : Slot)
  | frameReceptionEnd (p : Slot) (lanes : List (List Byte))
  | transmissionEnd (p : Slot)
  | holdOn (p : Slot)
  | holdOff (p : Slot)
  | damagedSymbol (p : Slot)
  | holdTimerExpiry (p : Slot)
  | reserveWaitingGrant
  | localSecond
  | calendarSwap
  | windowOpen (p : Slot)
  | windowEnd (p : Slot)
  | hubSecond
  | timingPulseEdge
  | silenceTimeout (src : Source)
  | holdoffExpiry (src : Source)
  | holdoverLimitReached
  | probeTick
  | markTick
  | rawPresenceChange (n : Slot) (present : Bool)
  | presenceDebounced (n : Slot)
  | rawLatchChange (n : Slot) (closed : Bool)
  | latchDebounced (n : Slot)
  | powerGoodTrue (n : Slot)
  | powerGoodLost (n : Slot)
  | fastFault (n : Slot) (active : Bool)
  | softStartExpiry (n : Slot)
  | drainTimeout (n : Slot)
  | sidebandTransactionEnd (e : SidebandEnd)
  | holdTimeout (phase : SidebandPhase)
  | conversionComplete (result : BitVec 10)
  | rawExtInputChange (i : Fin 4) (isOpen : Bool)
  | extInputDebounced (i : Fin 4)
  | unknownRequest
  | readHub
  | hubReset
  | readSlot (slot : Byte)
  | readIdentity (slot : Byte)
  | sidebandRead (slot offset length : Byte)
  | slotAdmit (slot : Byte)
  | slotDrain (slot : Byte)
  | slotRetry (slot : Byte)
  | portReset (slot : Byte)
  | setAdmission (control baseband radio transport reference auxiliary : Byte) (drain : BitVec 16)
  | setBudget (mains battery : BitVec 16)
  | writeFlow (flow source destKind dest cls : Byte) (maxFrame : BitVec 16) (needsLock : Byte)
  | enableFlow (flow : Byte)
  | disableFlow (flow : Byte)
  | deleteFlow (flow : Byte)
  | readFlow (flow : Byte)
  | writeGroup (group : Byte) (members : List Byte)
  | readGroup (group : Byte)
  | setQuota (slot : Byte) (quota y x : BitVec 16)
  | setSampleLimit (port : Byte) (limit : BitVec 16)
  | setHold (slot : Byte) (holdLimit : BitVec 16) (stallLimit : Byte)
  | readCounters (slot : Byte)
  | clearCounters
  | setCycle (cycle : BitVec 32)
  | writeWindows (port : Byte) (windows : List RawWindow)
  | readWindows (bank port : Byte)
  | commitCalendar
  | setSource (order revertive nSlot nRate : Byte) (comp : BitVec 16) (jumpLimit : BitVec 32)
  | setServo (kp ki : Byte) (fLimit stepThreshold lockWindow : BitVec 32) (lockCount : Byte) (holdover : BitVec 32)
  | readTiming
  | setProbe (probeRate : Byte) (rmax stepLimit : BitVec 16) (markRate : Byte)
  | setAsymmetry (slot : Byte) (asymmetry : BitVec 16)
  | readDelay (slot : Byte)
  | setThresholds (channel : Byte) (critLow warnLow warnHigh critHigh : RawOptional) (hysteresis : Byte)
  | monitorStart (mode trigger single : Byte) (scan : BitVec 16)
  | monitorStop
  | readMonitor
  | setAlarmPoint (point enabled severity raisePers clearPers latched : Byte) (extra : BitVec 16)
  | readAlarms (point : Byte)
  | ackAlarm (point : Byte)
  | alarmWait
  | readMail (slot : Byte)
  | supplyLoss
deriving DecidableEq, Repr

end Sys2Proof
end

