-- ==== Sys2Proof/Machine/Bytes.lean ====
section
/-! DEFINITION. Bytes and numbers: the byte order, two's complement and the CRC of chapter 12, and the striping of a
frame's stream over the lanes. -/

namespace Sys2Proof.Machine

/-- The value of a field sent most significant byte first (R186). -/
def beNat : List Byte → Nat
  | bytes => bytes.foldl (fun acc b => acc * 256 + b.toNat) 0

/-- A number as a field of `k` bytes, most significant byte first (R186); what does not fit is cut off. -/
def beBytes : Nat → Nat → List Byte
  | 0, _ => []
  | k + 1, v => BitVec.ofNat 8 (v / 256 ^ k) :: beBytes k v

/-- A signed number as a field of `k` bytes in two's complement (R188). -/
def beSigned (k : Nat) (v : Int) : List Byte :=
  beBytes k (v % (256 ^ k : Nat)).toNat

/-- Two bytes as a 16-bit field. -/
def be16 (a b : Byte) : BitVec 16 := BitVec.ofNat 16 (a.toNat * 256 + b.toNat)

/-- Four bytes as a 32-bit field. -/
def be32 (a b c d : Byte) : BitVec 32 :=
  BitVec.ofNat 32 (((a.toNat * 256 + b.toNat) * 256 + c.toNat) * 256 + d.toNat)

/-- A flag byte: 0x01 for yes or on, 0x00 for no or off (R188). -/
def flagByte (b : Bool) : Byte := if b then 1 else 0

/-- The generator of the check, 0x04C11DB7 (R186). -/
def crcGenerator : BitVec 32 := 0x04C11DB7#32

/-- One bit of the remainder, most significant bit first (R186). -/
def crcBit (rem : BitVec 32) : BitVec 32 :=
  if rem.msb then (rem <<< 1) ^^^ crcGenerator else rem <<< 1

/-- One byte of the remainder. -/
def crcByte (rem : BitVec 32) (b : Byte) : BitVec 32 :=
  let r := rem ^^^ (b.zeroExtend 32 <<< 24)
  crcBit (crcBit (crcBit (crcBit (crcBit (crcBit (crcBit (crcBit r)))))))

/-- The check over the bytes before it: the remainder starts at all ones and is complemented at the end (R186). -/
def crc32 (bytes : List Byte) : BitVec 32 := ~~~(bytes.foldl crcByte 0xFFFFFFFF#32)

/-- A frame's bytes before the check, followed by the check (R186). -/
def withCheck (bytes : List Byte) : List Byte := bytes ++ beBytes 4 (crc32 bytes).toNat

/-- A received frame's last four bytes are the check of the bytes before them (R11, R186). -/
def checkPasses (bytes : List Byte) : Bool :=
  4 ≤ bytes.length && withCheck (bytes.take (bytes.length - 4)) == bytes

/-- The cells that a frame of `L` bytes holds (03, "A frame of L bytes holds ceil(L/64) cells"). -/
def cellsOf (L : Nat) : Nat := (L + 63) / 64

/-! ### A frame on the lanes (R187) -/

/-- The bytes of framing overhead before the first header byte, and after the check (R187). -/
def overheadBytes : Nat := 12

/-- What the `w` logical lanes carry of a stream: byte `i` is sent on logical lane `i` mod `w` (R187). -/
def stripe {α : Type} (w : Nat) (stream : List α) : List (List α) :=
  (List.range w).map fun k => (stream.zipIdx.filter fun x => x.2 % w == k).map Prod.fst

/-- One byte is taken from each logical lane in turn, at most `turns` times (R187). -/
def takeTurns {α : Type} : Nat → List (List α) → List α
  | 0, _ => []
  | turns + 1, lanes => lanes.filterMap List.head? ++ takeTurns turns (lanes.map List.tail)

/-- The stream that a receiver rebuilds from what its logical lanes brought (R187). -/
def unstripe {α : Type} (lanes : List (List α)) : List α := takeTurns ((lanes.map List.length).foldl max 0) lanes

/-- The frame in the stream that the logical lanes brought: what stands between the overhead before its first header
byte and the overhead after its check (R187). -/
def frameOfLanes (lanes : List (List Byte)) : List Byte :=
  let stream := unstripe lanes
  (stream.drop overheadBytes).take (stream.length - 2 * overheadBytes)

/-- The stream of a frame that the hub sends. The spec does not state what the bytes of overhead hold: they are `none`
(R187; LOG 42). -/
def egressStream (bytes : List Byte) : List (Option Byte) :=
  List.replicate overheadBytes none ++ bytes.map some ++ List.replicate overheadBytes none

/-- What each lane in use carries of a frame that the hub sends: logical lane `k` is the `k`-th lane in use in
ascending order (R4, R187). -/
def laneStreams (lanes : List Lane) (bytes : List Byte) : List (Lane × List (Option Byte)) :=
  lanes.zip (stripe lanes.length (egressStream bytes))

/-- The bits of a byte on the data wire of a sideband line, the most significant first (R144). -/
def wireBits (b : Byte) : List Bool := (List.range 8).map fun i => b.getMsbD i

end Sys2Proof.Machine
end

