-- ==== Sys2Proof/WellFormed.lean ====
section
/-! DEFINITION. Which commands are well formed: the bounds on lists that the types of the operands do not hold. -/

namespace Sys2Proof

/-- The most windows that a MGMT payload of 2,024 bytes holds beside its code, tag, port and count (R188). -/
def maxRawWindows : Nat := 252

/-- A command is well formed when the lists it carries have lengths the part's formats allow. Every other operand
is well formed by its type: a slot is one of twelve, a lane one of four, a result ten bits wide, an argument field
as wide as R188 makes it. -/
def Instr.wellFormed : Instr → Bool
  -- a frame arrives over 1, 2 or 4 lanes with at least one byte, between 24 of overhead (R10, R187)
  | .frameReceptionEnd _ lanes =>
    (lanes.length == 1 || lanes.length == 2 || lanes.length == 4) && 25 ≤ (lanes.map List.length).sum
  -- a transaction that runs through receives 1–64 bytes (R144, R150)
  | .sidebandTransactionEnd (.done bytes) => 1 ≤ bytes.length && bytes.length ≤ 64
  -- a WRITE_GROUP count is 0–12 (R188)
  | .writeGroup _ members => members.length ≤ 12
  | .writeWindows _ windows => windows.length ≤ maxRawWindows
  | .powerOn | .laneTrained _ _ | .trainingDeadlineExpiry _ | .testDeadlineExpiry _ | .laneFailure _ _
  | .cellRequest _ | .transmissionEnd _ | .holdOn _ | .holdOff _ | .damagedSymbol _ | .holdTimerExpiry _
  | .reserveWaitingGrant | .localSecond | .calendarSwap | .windowOpen _ | .windowEnd _ | .hubSecond
  | .timingPulseEdge | .silenceTimeout _ | .holdoffExpiry _ | .holdoverLimitReached | .probeTick | .markTick
  | .rawPresenceChange _ _ | .presenceDebounced _ | .rawLatchChange _ _ | .latchDebounced _ | .powerGoodTrue _
  | .powerGoodLost _ | .fastFault _ _ | .softStartExpiry _ | .drainTimeout _
  | .sidebandTransactionEnd .busStuck | .sidebandTransactionEnd .addressWriteNack
  | .sidebandTransactionEnd .offsetNack | .sidebandTransactionEnd .addressReadNack | .holdTimeout _
  | .conversionComplete _ | .rawExtInputChange _ _ | .extInputDebounced _ | .unknownRequest | .readHub | .hubReset
  | .readSlot _ | .readIdentity _ | .sidebandRead _ _ _ | .slotAdmit _ | .slotDrain _ | .slotRetry _ | .portReset _
  | .setAdmission _ _ _ _ _ _ _ | .setBudget _ _ | .writeFlow _ _ _ _ _ _ _ | .enableFlow _ | .disableFlow _
  | .deleteFlow _ | .readFlow _ | .readGroup _ | .setQuota _ _ _ _ | .setSampleLimit _ _ | .setHold _ _ _
  | .readCounters _ | .clearCounters | .setCycle _ | .readWindows _ _ | .commitCalendar | .setSource _ _ _ _ _ _
  | .setServo _ _ _ _ _ _ _ | .readTiming | .setProbe _ _ _ _ | .setAsymmetry _ _ | .readDelay _
  | .setThresholds _ _ _ _ _ _ | .monitorStart _ _ _ _ | .monitorStop | .readMonitor
  | .setAlarmPoint _ _ _ _ _ _ _ | .readAlarms _ | .ackAlarm _ | .alarmWait | .readMail _ | .supplyLoss => true

end Sys2Proof
end

