-- ==== Sys2Proof/Decode.lean ====
section
/-! DEFINITION. Reading commands and frames from bits: the words of the opcode table, the management requests of
chapter 11 in the layouts of R188, and the fields of a frame header (12.1). The encoder of requests stands last. -/

namespace Sys2Proof

open Machine (be16 be32 beNat beBytes)

/-! ### The opcode table -/

/-- The command that a word of the opcode table spells. The table gives no row any bits, so no word spells one
(LOG 19). -/
def decodeTableWord (_nbits _w : Nat) : Option Instr := none

/-! ### Management requests -/

/-- A request without arguments (R188, length 0). -/
def decodeNone (i : Instr) : List Byte → Instr
  | [] => i
  | _ => .unknownRequest

/-- A request whose argument is one byte (R188, length 1). -/
def decodeByte (f : Byte → Instr) : List Byte → Instr
  | [a] => f a
  | _ => .unknownRequest

/-- The windows of WRITE_WINDOWS, 8 bytes each; none unless the bytes hold exactly `n` of them. -/
def decodeWindows : Nat → List Byte → Option (List RawWindow)
  | 0, [] => some []
  | n + 1, a :: b :: c :: d :: e :: f :: g :: h :: rest =>
    (decodeWindows n rest).map (⟨be32 a b c d, be32 e f g h⟩ :: ·)
  | _, _ => none

/-- The arguments of WRITE_GROUP: a count of 0–12 and that many slot numbers (R188). They have no place for the number
of the group, which comes from elsewhere (LOG 35). -/
def decodeWriteGroup (group : Byte) : List Byte → Instr
  | n :: members =>
    if members.length = n.toNat ∧ n.toNat ≤ 12 then .writeGroup group members else .unknownRequest
  | [] => .unknownRequest

/-- The arguments of WRITE_WINDOWS: a port, a count and that many windows (R188). -/
def decodeWriteWindows : List Byte → Instr
  | p :: n :: rest =>
    match decodeWindows n.toNat rest with
    | some ws => .writeWindows p ws
    | none => .unknownRequest
  | _ => .unknownRequest

/-- The request of a code and its argument bytes. Codes are numbered in the order of the catalogue of 11.5, from
READ_HUB 0x01 to READ_MAIL 0x2A (12.3). A code not in the catalogue, or arguments not of its length, is the
UNKNOWN_REQUEST that R179 answers BAD_REQUEST. WRITE_GROUP, 0x11, stands apart in `decodeArguments`. -/
def decodeOthers (code : Nat) (args : List Byte) : Instr :=
  match code, args with
  | 0x01, as => decodeNone .readHub as
  | 0x02, as => decodeNone .hubReset as
  | 0x03, as => decodeByte .readSlot as
  | 0x04, as => decodeByte .readIdentity as
  | 0x05, [a, b, c] => .sidebandRead a b c
  | 0x06, as => decodeByte .slotAdmit as
  | 0x07, as => decodeByte .slotDrain as
  | 0x08, as => decodeByte .slotRetry as
  | 0x09, as => decodeByte .portReset as
  | 0x0A, [a, b, c, d, e, f, g, h] => .setAdmission a b c d e f (be16 g h)
  | 0x0B, [a, b, c, d] => .setBudget (be16 a b) (be16 c d)
  | 0x0C, [a, b, c, d, e, f, g, h] => .writeFlow a b c d e (be16 f g) h
  | 0x0D, as => decodeByte .enableFlow as
  | 0x0E, as => decodeByte .disableFlow as
  | 0x0F, as => decodeByte .deleteFlow as
  | 0x10, as => decodeByte .readFlow as
  | 0x12, as => decodeByte .readGroup as
  | 0x13, [a, b, c, d, e, f, g] => .setQuota a (be16 b c) (be16 d e) (be16 f g)
  | 0x14, [a, b, c] => .setSampleLimit a (be16 b c)
  | 0x15, [a, b, c, d] => .setHold a (be16 b c) d
  | 0x16, as => decodeByte .readCounters as
  | 0x17, as => decodeNone .clearCounters as
  | 0x18, [a, b, c, d] => .setCycle (be32 a b c d)
  | 0x19, as => decodeWriteWindows as
  | 0x1A, [a, b] => .readWindows a b
  | 0x1B, as => decodeNone .commitCalendar as
  | 0x1C, [a, b, c, d, e, f, g, h, i, j] => .setSource a b c d (be16 e f) (be32 g h i j)
  | 0x1D, [a, b, c, d, e, f, g, h, i, j, k, l, m, n, o, p, q, r, t] =>
    .setServo a b (be32 c d e f) (be32 g h i j) (be32 k l m n) o (be32 p q r t)
  | 0x1E, as => decodeNone .readTiming as
  | 0x1F, [a, b, c, d, e, f] => .setProbe a (be16 b c) (be16 d e) f
  | 0x20, [a, b, c] => .setAsymmetry a (be16 b c)
  | 0x21, as => decodeByte .readDelay as
  | 0x22, [a, b, c, d, e, f, g, h, i, j, k, l, m, n] =>
    .setThresholds a ⟨b, be16 c d⟩ ⟨e, be16 f g⟩ ⟨h, be16 i j⟩ ⟨k, be16 l m⟩ n
  | 0x23, [a, b, c, d, e] => .monitorStart a b c (be16 d e)
  | 0x24, as => decodeNone .monitorStop as
  | 0x25, as => decodeNone .readMonitor as
  | 0x26, [a, b, c, d, e, f, g, h] => .setAlarmPoint a b c d e f (be16 g h)
  | 0x27, as => decodeByte .readAlarms as
  | 0x28, as => decodeByte .ackAlarm as
  | 0x29, as => decodeNone .alarmWait as
  | 0x2A, as => decodeByte .readMail as
  | _, _ => .unknownRequest

/-- The request of a code and its argument bytes; a WRITE_GROUP names the group given (12.3, R188; LOG 35). -/
def decodeArguments (group : Byte) (code : Nat) (args : List Byte) : Instr :=
  if code = 0x11 then decodeWriteGroup group args else decodeOthers code args

/-- The request that a MGMT payload carries: a request code, a tag of two bytes, and the arguments (12.3). A payload
shorter than 3 bytes carries no request (R179). The group is the one that a WRITE_GROUP names (LOG 35). -/
def decodeRequest (group : Byte) : List Byte → Instr
  | code :: _ :: _ :: args => decodeArguments group code.toNat args
  | _ => .unknownRequest

/-- The group number of a command that writes a group (R41). -/
def Instr.groupWritten : Instr → Byte
  | .writeGroup group _ => group
  | _ => 0

/-- A MGMT payload carries a request: its bytes spell the command, of which a WRITE_GROUP's name no group (LOG 35). -/
def carries (payload : List Byte) (i : Instr) : Bool := decodeRequest i.groupWritten payload = i

/-- The tag of a MGMT payload, 0 where the payload is too short to carry one (R179). -/
def requestTag : List Byte → BitVec 16
  | _ :: a :: b :: _ => be16 a b
  | _ => 0

/-- The request code of a MGMT payload, absent from a payload of no bytes. -/
def requestCode : List Byte → Option Byte
  | c :: _ => some c
  | [] => none

/-! ### Frames -/

/-- The ten kinds of frame (01, 1.6), coded 0x01 to 0x0A (12.1). -/
inductive FrameKind where
  | data
  | mgmt
  | mgmtResp
  | probe
  | probeReply
  | timeMark
  | refTime
  | mail
  | mailAck
  | test
deriving DecidableEq, Repr

/-- The kind of a kind code, none for a code that names no kind (12.1). -/
def frameKind (code : Byte) : Option FrameKind :=
  match code.toNat with
  | 0x01 => some .data
  | 0x02 => some .mgmt
  | 0x03 => some .mgmtResp
  | 0x04 => some .probe
  | 0x05 => some .probeReply
  | 0x06 => some .timeMark
  | 0x07 => some .refTime
  | 0x08 => some .mail
  | 0x09 => some .mailAck
  | 0x0A => some .test
  | _ => none

/-- The code of a kind (12.1). -/
def FrameKind.code : FrameKind → Byte
  | .data => 0x01
  | .mgmt => 0x02
  | .mgmtResp => 0x03
  | .probe => 0x04
  | .probeReply => 0x05
  | .timeMark => 0x06
  | .refTime => 0x07
  | .mail => 0x08
  | .mailAck => 0x09
  | .test => 0x0A

/-- The byte of a frame at an offset from its first header byte. -/
def frameByte (bytes : List Byte) (i : Nat) : Byte := bytes.getD i 0

/-- Header fields by their offsets (12.1). -/
def frameKindOf (bytes : List Byte) : Option FrameKind := frameKind (frameByte bytes 0)
def frameDest (bytes : List Byte) : Nat := (frameByte bytes 2).toNat
def frameSource (bytes : List Byte) : Nat := (frameByte bytes 3).toNat
def frameFlow (bytes : List Byte) : Nat := (frameByte bytes 4).toNat
def frameSeq (bytes : List Byte) : Byte := frameByte bytes 5
def framePayloadLength (bytes : List Byte) : Nat := beNat [frameByte bytes 6, frameByte bytes 7]

/-- The payload: as many bytes after the 20 of the header as the payload length says (12.1). -/
def framePayload (bytes : List Byte) : List Byte := (bytes.drop 20).take (framePayloadLength bytes)

/-- A field of a payload: `k` bytes at an offset. -/
def payloadField (payload : List Byte) (offset k : Nat) : Nat := beNat ((payload.drop offset).take k)

/-! ### The encoder of requests -/

/-- A field of 16 or 32 bits as its bytes, most significant first. -/
def bytes16 (v : BitVec 16) : List Byte := beBytes 2 v.toNat
def bytes32 (v : BitVec 32) : List Byte := beBytes 4 v.toNat

/-- An optional count as its presence byte and its field (R188). -/
def bytesOptional (o : RawOptional) : List Byte := o.presence :: bytes16 o.value

/-- The windows of WRITE_WINDOWS, start and length each (R188). -/
def bytesWindows : List RawWindow → List Byte
  | [] => []
  | w :: ws => bytes32 w.start ++ bytes32 w.length ++ bytesWindows ws

/-- A request's code and argument bytes, in the layouts of R188; none for a command that is no request of the
catalogue. The group of a WRITE_GROUP has no place in them (LOG 35). -/
def encodeArguments : Instr → Option (Byte × List Byte)
  | .readHub => some (0x01, [])
  | .hubReset => some (0x02, [])
  | .readSlot n => some (0x03, [n])
  | .readIdentity n => some (0x04, [n])
  | .sidebandRead n o l => some (0x05, [n, o, l])
  | .slotAdmit n => some (0x06, [n])
  | .slotDrain n => some (0x07, [n])
  | .slotRetry n => some (0x08, [n])
  | .portReset n => some (0x09, [n])
  | .setAdmission a b c d e f g => some (0x0A, [a, b, c, d, e, f] ++ bytes16 g)
  | .setBudget m b => some (0x0B, bytes16 m ++ bytes16 b)
  | .writeFlow f n k d c m l => some (0x0C, [f, n, k, d, c] ++ bytes16 m ++ [l])
  | .enableFlow f => some (0x0D, [f])
  | .disableFlow f => some (0x0E, [f])
  | .deleteFlow f => some (0x0F, [f])
  | .readFlow f => some (0x10, [f])
  | .writeGroup _ ms => some (0x11, BitVec.ofNat 8 ms.length :: ms)
  | .readGroup g => some (0x12, [g])
  | .setQuota n q y x => some (0x13, n :: bytes16 q ++ bytes16 y ++ bytes16 x)
  | .setSampleLimit p l => some (0x14, p :: bytes16 l)
  | .setHold n h l => some (0x15, n :: bytes16 h ++ [l])
  | .readCounters n => some (0x16, [n])
  | .clearCounters => some (0x17, [])
  | .setCycle c => some (0x18, bytes32 c)
  | .writeWindows p ws => some (0x19, p :: BitVec.ofNat 8 ws.length :: bytesWindows ws)
  | .readWindows b p => some (0x1A, [b, p])
  | .commitCalendar => some (0x1B, [])
  | .setSource o r n rate c j => some (0x1C, [o, r, n, rate] ++ bytes16 c ++ bytes32 j)
  | .setServo kp ki f t w c h =>
    some (0x1D, [kp, ki] ++ bytes32 f ++ bytes32 t ++ bytes32 w ++ [c] ++ bytes32 h)
  | .readTiming => some (0x1E, [])
  | .setProbe r m d k => some (0x1F, r :: bytes16 m ++ bytes16 d ++ [k])
  | .setAsymmetry n a => some (0x20, n :: bytes16 a)
  | .readDelay n => some (0x21, [n])
  | .setThresholds c cl wl wh ch h =>
    some (0x22, c :: bytesOptional cl ++ bytesOptional wl ++ bytesOptional wh ++ bytesOptional ch ++ [h])
  | .monitorStart m t c f => some (0x23, [m, t, c] ++ bytes16 f)
  | .monitorStop => some (0x24, [])
  | .readMonitor => some (0x25, [])
  | .setAlarmPoint p e v r c l x => some (0x26, [p, e, v, r, c, l] ++ bytes16 x)
  | .readAlarms p => some (0x27, [p])
  | .ackAlarm p => some (0x28, [p])
  | .alarmWait => some (0x29, [])
  | .readMail n => some (0x2A, [n])
  | .powerOn | .laneTrained _ _ | .trainingDeadlineExpiry _ | .testDeadlineExpiry _ | .laneFailure _ _
  | .cellRequest _ | .frameReceptionEnd _ _ | .transmissionEnd _ | .holdOn _ | .holdOff _ | .damagedSymbol _
  | .holdTimerExpiry _ | .reserveWaitingGrant | .localSecond | .calendarSwap | .windowOpen _ | .windowEnd _
  | .hubSecond | .timingPulseEdge | .silenceTimeout _ | .holdoffExpiry _ | .holdoverLimitReached | .probeTick
  | .markTick | .rawPresenceChange _ _ | .presenceDebounced _ | .rawLatchChange _ _ | .latchDebounced _
  | .powerGoodTrue _ | .powerGoodLost _ | .fastFault _ _ | .softStartExpiry _ | .drainTimeout _
  | .sidebandTransactionEnd _ | .holdTimeout _ | .conversionComplete _ | .rawExtInputChange _ _
  | .extInputDebounced _ | .unknownRequest | .supplyLoss => none

/-- The MGMT payload of a request with a tag (12.3). -/
def encodeRequest (tag : BitVec 16) (i : Instr) : Option (List Byte) :=
  (encodeArguments i).map fun (code, args) => code :: (bytes16 tag ++ args)

end Sys2Proof
end

