-- ==== Sys2Proof/Machine/Types.lean ====
section
/-! DEFINITION. The names of the manual's tables (states, kinds, reasons, statuses) and their codes, and the tables
that hold a fixed number of like records. -/

namespace Sys2Proof.Machine

/-! ### Tables of like records -/

/-- A fixed number of like records. -/
abbrev Table (n : Nat) (α : Type) := Vector α n

/-- One record per slot or port. -/
abbrev PerSlot (α : Type) := Table 12 α

/-- The record at an index. -/
def Table.read {n : Nat} {α : Type} (t : Table n α) (i : Fin n) : α := t[i.val]

/-- The table with one record replaced. -/
def Table.write {n : Nat} {α : Type} (t : Table n α) (i : Fin n) (a : α) : Table n α := t.set i.val a

/-- The table with one record changed. -/
def Table.update {n : Nat} {α : Type} (t : Table n α) (i : Fin n) (f : α → α) : Table n α :=
  t.write i (f (t.read i))

/-- The table whose every record is the same. -/
def Table.fill {n : Nat} {α : Type} (a : α) : Table n α := Vector.replicate n a

/-- The table with every record changed. -/
def Table.mapAll {n : Nat} {α β : Type} (t : Table n α) (f : α → β) : Table n β := ⟨⟨t.toList.map f⟩, by simp⟩

/-- The table that a function of the index gives. -/
def Table.build {n : Nat} {α : Type} (f : Fin n → α) : Table n α := ⟨⟨(List.finRange n).map f⟩, by simp⟩

/-! ### Chapter 1 -/

/-- The link states (01, 1.1). -/
inductive LinkState where
  | down
  | training
  | testing
  | up
deriving DecidableEq, Repr

/-- A link width: 1, 2 or 4 lanes (01). -/
inductive Width where
  | one
  | two
  | four
deriving DecidableEq, Repr

/-- The number of lanes of a width. -/
def Width.lanes : Width → Nat
  | .one => 1
  | .two => 2
  | .four => 4

/-- The largest of 4, 2 and 1 that is no greater than `n` (R4), none below 1. -/
def Width.largest (n : Nat) : Option Width :=
  if 4 ≤ n then some .four else if 2 ≤ n then some .two else if 1 ≤ n then some .one else none

/-- The symbols that the hub sends (01, 1.7). -/
inductive HubSymbol where
  | pauseOn
  | pauseOff
deriving DecidableEq, Repr

/-! ### Chapters 2 and 3 -/

/-- The classes of frames, coded in this order (12.1). -/
inductive FrameClass where
  | sample
  | timing
  | control
  | bulk
deriving DecidableEq, Repr

/-- The code of a class (12.1). -/
def FrameClass.code : FrameClass → Byte
  | .sample => 0
  | .timing => 1
  | .control => 2
  | .bulk => 3

/-- The flow states (02, 2.2). -/
inductive FlowState where
  | free
  | disabled
  | live
  | suspended
deriving DecidableEq, Repr

def FlowState.code : FlowState → Byte
  | .free => 0
  | .disabled => 1
  | .live => 2
  | .suspended => 3

/-- A flow's destination: a slot or one of groups 1–16 (02, 2.1). Group `g` is the index `g - 1`. -/
inductive FlowDest where
  | slot (n : Slot)
  | group (g : Fin 16)
deriving DecidableEq, Repr

/-- The nine drop reasons (02, 2.7). -/
inductive DropReason where
  | badCheck
  | badLength
  | notReady
  | unknownFlow
  | wrongSource
  | flowNotLive
  | tooLong
  | noPath
  | noBuffer
deriving DecidableEq, Repr

/-- The place of a reason in the table of 2.7. -/
def DropReason.index : DropReason → Fin 9
  | .badCheck => 0
  | .badLength => 1
  | .notReady => 2
  | .unknownFlow => 3
  | .wrongSource => 4
  | .flowNotLive => 5
  | .tooLong => 6
  | .noPath => 7
  | .noBuffer => 8

/-- The hold states of a port (03, 3.5). -/
inductive HoldState where
  | none
  | holding
  | stalled
deriving DecidableEq, Repr

def HoldState.code : HoldState → Byte
  | .none => 0
  | .holding => 1
  | .stalled => 2

/-- The makers that may stand in the reserve waiting list (R46). -/
inductive Maker where
  | test (p : Slot)
  | agent
  | alarm
deriving DecidableEq, Repr

/-! ### Chapter 5 -/

/-- The source states (05, 5.2). -/
inductive SourceState where
  | unavailable
  | candidate
  | qualified
  | failed
deriving DecidableEq, Repr

def SourceState.code : SourceState → Byte
  | .unavailable => 0
  | .candidate => 1
  | .qualified => 2
  | .failed => 3

/-- The timing states, coded in the order of 12.4. -/
inductive TimingState where
  | freerun
  | acquiring
  | locked
  | holdover
deriving DecidableEq, Repr

def TimingState.code : TimingState → Byte
  | .freerun => 0
  | .acquiring => 1
  | .locked => 2
  | .holdover => 3

/-- The quality class of a timing state (05, 5.5). -/
def TimingState.quality : TimingState → Nat
  | .freerun => 4
  | .acquiring => 3
  | .locked => 1
  | .holdover => 2

/-- The selected source as a notice's detail: none 0x00, P 0x01, N 0x02 (12.4). -/
def selectedCode : Option Source → Byte
  | none => 0
  | some .P => 1
  | some .N => 2

/-! ### Chapter 7 -/

/-- The slot states, coded in the order of the table of 7.2 (12.4). -/
inductive SlotState where
  | empty
  | inserted
  | identifying
  | waitingPower
  | powering
  | linking
  | standby
  | active
  | draining
  | quiesced
  | faulted
deriving DecidableEq, Repr

def SlotState.code : SlotState → Byte
  | .empty => 0
  | .inserted => 1
  | .identifying => 2
  | .waitingPower => 3
  | .powering => 4
  | .linking => 5
  | .standby => 6
  | .active => 7
  | .draining => 8
  | .quiesced => 9
  | .faulted => 10

/-- The power-on states (07, 7.2). -/
def SlotState.poweredOn : SlotState → Bool
  | .powering | .linking | .standby | .active | .draining => true
  | .empty | .inserted | .identifying | .waitingPower | .quiesced | .faulted => false

/-- The up states: STANDBY, ACTIVE and DRAINING (07, 7.2). -/
def SlotState.isUp : SlotState → Bool
  | .standby | .active | .draining => true
  | .empty | .inserted | .identifying | .waitingPower | .powering | .linking | .quiesced | .faulted => false

/-- The remove lamp is lit in QUIESCED and FAULTED (R136). -/
def SlotState.lampLit : SlotState → Bool
  | .quiesced | .faulted => true
  | .empty | .inserted | .identifying | .waitingPower | .powering | .linking | .standby | .active | .draining =>
    false

/-- The fault reasons, numbered from 0x01 in the order of the table of 7.2 (12.4). -/
inductive FaultReason where
  | overcurrent
  | overcurrentSlow
  | noPowerGood
  | link
  | stall
  | wrongSlot
  | idFail
deriving DecidableEq, Repr

def FaultReason.code : FaultReason → Byte
  | .overcurrent => 1
  | .overcurrentSlow => 2
  | .noPowerGood => 3
  | .link => 4
  | .stall => 5
  | .wrongSlot => 6
  | .idFail => 7

/-- The card kinds, kind codes 1–6 (R147). -/
inductive CardKind where
  | control
  | baseband
  | radio
  | transport
  | reference
  | auxiliary
deriving DecidableEq, Repr

def CardKind.index : CardKind → Fin 6
  | .control => 0
  | .baseband => 1
  | .radio => 2
  | .transport => 3
  | .reference => 4
  | .auxiliary => 5

def CardKind.code (k : CardKind) : Nat := k.index.val + 1

/-- The card kind of a kind code 1–6, none for any other (R147). -/
def CardKind.ofCode : Nat → Option CardKind
  | 1 => some .control
  | 2 => some .baseband
  | 3 => some .radio
  | 4 => some .transport
  | 5 => some .reference
  | 6 => some .auxiliary
  | _ => none

/-- The budget in force (07, 7.1). -/
inductive Budget where
  | mains
  | battery
deriving DecidableEq, Repr

/-! ### Chapter 8 -/

/-- How an attempt ended: DONE, a failure kind of 8.3, or BAD_RECORD (R146). Coded in this order (LOG 12). -/
inductive SidebandOutcome where
  | done
  | busStuck
  | addrNack
  | offsetNack
  | holdTimeout
  | badRecord
deriving DecidableEq, Repr

def SidebandOutcome.code : SidebandOutcome → Byte
  | .done => 0
  | .busStuck => 1
  | .addrNack => 2
  | .offsetNack => 3
  | .holdTimeout => 4
  | .badRecord => 5

/-- The code of a failure kind: the kinds of the table of 8.3 in its order, BAD_RECORD last (R188; LOG 12). -/
def SidebandOutcome.kindCode (o : SidebandOutcome) : Byte := o.code - 1

/-- One item of an acknowledge map (R144). -/
inductive AckItem where
  | ack
  | nack
  | notReached
deriving DecidableEq, Repr

/-- The code of an item, in the order in which R144 names them (LOG 12). -/
def AckItem.code : AckItem → Byte
  | .ack => 0
  | .nack => 1
  | .notReached => 2

/-- The acknowledge map: one item for each of the three addressed bytes (R144). -/
structure AckMap where
  addressWrite : AckItem
  offset : AckItem
  addressRead : AckItem
deriving DecidableEq, Repr

/-- The map as a transaction starts (R144). -/
def AckMap.start : AckMap := ⟨.notReached, .notReached, .notReached⟩

/-! ### Chapter 9 -/

/-- The monitor modes, coded in this order (R188). -/
inductive MonitorMode where
  | single
  | oneScan
  | continuous
deriving DecidableEq, Repr

def MonitorMode.code : MonitorMode → Byte
  | .single => 0
  | .oneScan => 1
  | .continuous => 2

def MonitorMode.ofCode : Nat → Option MonitorMode
  | 0 => some .single
  | 1 => some .oneScan
  | 2 => some .continuous
  | _ => none

/-- The monitor triggers, coded in this order (R188). -/
inductive MonitorTrigger where
  | software
  | localSecond
  | hubSecond
deriving DecidableEq, Repr

def MonitorTrigger.code : MonitorTrigger → Byte
  | .software => 0
  | .localSecond => 1
  | .hubSecond => 2

def MonitorTrigger.ofCode : Nat → Option MonitorTrigger
  | 0 => some .software
  | 1 => some .localSecond
  | 2 => some .hubSecond
  | _ => none

/-- The monitor states (09, 9.2). -/
inductive MonitorState where
  | stopped
  | waiting
  | scanning
deriving DecidableEq, Repr

def MonitorState.code : MonitorState → Byte
  | .stopped => 0
  | .waiting => 1
  | .scanning => 2

/-! ### Chapter 10 -/

/-- The kinds of alarm point (10, 10.1). -/
inductive PointKind where
  | sampled
  | state
  | event
deriving DecidableEq, Repr

def PointKind.code : PointKind → Byte
  | .sampled => 0
  | .state => 1
  | .event => 2

/-- The severities, coded CRITICAL 0x00 to WARNING 0x03 (12.4). -/
inductive Severity where
  | critical
  | major
  | minor
  | warning
deriving DecidableEq, Repr

def Severity.code : Severity → Byte
  | .critical => 0
  | .major => 1
  | .minor => 2
  | .warning => 3

def Severity.ofCode : Nat → Option Severity
  | 0 => some .critical
  | 1 => some .major
  | 2 => some .minor
  | 3 => some .warning
  | _ => none

/-- The point states, coded CLEAR 0x00, RAISING, ACTIVE, CLEARING, HELD (12.4). -/
inductive PointState where
  | clear
  | raising
  | active
  | clearing
  | held
deriving DecidableEq, Repr

def PointState.code : PointState → Byte
  | .clear => 0
  | .raising => 1
  | .active => 2
  | .clearing => 3
  | .held => 4

/-- The active alarm list holds the points in ACTIVE, CLEARING and HELD (10, 10.1). -/
def PointState.inList : PointState → Bool
  | .active | .clearing | .held => true
  | .clear | .raising => false

/-- A point is raised while it is ACTIVE or CLEARING (R159). -/
def PointState.raised : PointState → Bool
  | .active | .clearing => true
  | .clear | .raising | .held => false

/-- What a notice tells (10, 10.4), with its subject, new value and detail. -/
inductive NoticeBody where
  | alarm (point : PointId) (value : PointState) (severity : Severity)
  | slot (n : Slot) (state : SlotState) (reason : Option FaultReason)
  | timing (state : TimingState) (selected : Option Source)
  | mail (n : Slot) (length : Nat)
deriving DecidableEq, Repr

/-- A notice: what it tells and the seconds of hub time at its production (10, 10.4). -/
structure Notice where
  body : NoticeBody
  seconds : Nat
deriving DecidableEq, Repr

/-- The results of a MAIL_ACK (12.2). -/
inductive MailResult where
  | accepted
  | closed
  | badSize
  | full
deriving DecidableEq, Repr

def MailResult.code : MailResult → Byte
  | .accepted => 0
  | .closed => 1
  | .badSize => 2
  | .full => 3

/-! ### Chapter 11 -/

/-- The status codes, numbered from 0x00 in the order of the table of 11.4 (12.3). -/
inductive Status where
  | ok
  | badRequest
  | badIndex
  | badValue
  | wrongState
  | busy
  | notPermitted
  | queueFull
  | waitLimit
  | noFit
  | gone
  | reset
deriving DecidableEq, Repr

def Status.code : Status → Byte
  | .ok => 0x00
  | .badRequest => 0x01
  | .badIndex => 0x02
  | .badValue => 0x03
  | .wrongState => 0x04
  | .busy => 0x05
  | .notPermitted => 0x06
  | .queueFull => 0x07
  | .waitLimit => 0x08
  | .noFit => 0x09
  | .gone => 0x0A
  | .reset => 0x0B

/-- The requests that become in-flight records (R180). -/
inductive InFlightKind where
  | commit
  | rawRead
  | wait
deriving DecidableEq, Repr

/-- The request code of an in-flight kind (12.3). -/
def InFlightKind.code : InFlightKind → Byte
  | .commit => 0x1B
  | .rawRead => 0x05
  | .wait => 0x29

/-- Why a response was made: it answers a taken request, completes an in-flight record, or refuses a request at its
dispatch (R179, R181). -/
inductive ResponseKind where
  | taken
  | completion
  | refusal
deriving DecidableEq, Repr

end Sys2Proof.Machine
end

