-- ==== Sys2Proof/Machine/Catalogue.lean ====
section
/-! DEFINITION. The catalogue of the 93 alarm points (10, 10.1): what is fixed about each and its initial values. -/

namespace Sys2Proof.Machine

/-- The kind of a point (10.1). -/
def pointKind (id : PointId) : PointKind :=
  if id.val < 12 then .state            -- SLOT_FAULT
  else if id.val < 36 then .sampled     -- SLOT_LINK, SLOT_TIMING
  else if id.val < 48 then .event       -- SLOT_PULLED
  else if id.val < 80 then .sampled     -- CH_WARN, CH_CRIT
  else if id.val = 84 then .event       -- PHASE_STEP
  else if id.val = 91 then .sampled     -- BUFFER_EXHAUSTED
  else .state

/-- The initial severity of a point (10.1). -/
def pointSeverity (id : PointId) : Severity :=
  if id.val < 12 then .major            -- SLOT_FAULT
  else if id.val < 36 then .minor       -- SLOT_LINK, SLOT_TIMING
  else if id.val < 48 then .major       -- SLOT_PULLED
  else if id.val < 64 then .minor       -- CH_WARN
  else if id.val < 80 then .major       -- CH_CRIT
  else match id.val with
    | 81 | 85 | 86 | 87 | 88 | 89 | 92 => .major  -- TIMING_FREERUN, EXT_INPUT, POWER_OVER_BUDGET, FLOW_SUSPENDED
    | 84 | 90 => .warning                         -- PHASE_STEP, POWER_WAITING
    | _ => .minor                                 -- TIMING_HOLDOVER, SOURCE_P_FAILED, SOURCE_N_FAILED, BUFFER_EXHAUSTED

/-- The initial raise and clear persistences, of SAMPLED points only (10.1). -/
def pointPersistence (id : PointId) : Option (Nat × Nat) :=
  match pointKind id with
  | .sampled =>
    if id.val < 24 then some (1, 5)       -- SLOT_LINK
    else if id.val = 91 then some (1, 10) -- BUFFER_EXHAUSTED
    else some (3, 3)
  | .state | .event => none

/-- The points by name (10.1). -/
def slotFaultPoint (n : Slot) : PointId := ⟨n.val, by omega⟩
def slotLinkPoint (n : Slot) : PointId := ⟨12 + n.val, by omega⟩
def slotTimingPoint (n : Slot) : PointId := ⟨24 + n.val, by omega⟩
def slotPulledPoint (n : Slot) : PointId := ⟨36 + n.val, by omega⟩
def warnPoint (c : Channel) : PointId := ⟨48 + c.val, by omega⟩
def critPoint (c : Channel) : PointId := ⟨64 + c.val, by omega⟩
def holdoverPoint : PointId := 80
def freerunPoint : PointId := 81
def sourceFailedPoint : Source → PointId
  | .P => 82
  | .N => 83
def phaseStepPoint : PointId := 84
def extInputPoint (i : Fin 4) : PointId := ⟨85 + i.val, by omega⟩
def overBudgetPoint : PointId := 89
def powerWaitingPoint : PointId := 90
def bufferPoint : PointId := 91
def flowSuspendedPoint : PointId := 92

/-- The slot whose SLOT_LINK point an id is (ids 12–23). -/
def slotOfLinkPoint (id : PointId) : Option Slot :=
  if h : 12 ≤ id.val ∧ id.val < 24 then some ⟨id.val - 12, by omega⟩ else none

/-- The external input whose point an id is (ids 85–88). -/
def inputOfPoint (id : PointId) : Option (Fin 4) :=
  if h : 85 ≤ id.val ∧ id.val < 89 then some ⟨id.val - 85, by omega⟩ else none

/-- The slot whose current channel's critical point an id is (ids 64–75), channel n − 1 for slot n. -/
def slotOfCritPoint (id : PointId) : Option Slot :=
  if h : 64 ≤ id.val ∧ id.val < 76 then some ⟨id.val - 64, by omega⟩ else none

/-- The rectifier's critical point, CH_CRIT(12) (R137). -/
def rectifierPoint : PointId := 76

/-- The current channel of a slot: channel n − 1 for slot n (09, 9.1). -/
def slotChannel (n : Slot) : Channel := ⟨n.val, by omega⟩

/-- The slot of a current channel 0–11. -/
def channelSlot (c : Channel) : Option Slot :=
  if h : c.val < 12 then some ⟨c.val, h⟩ else none

end Sys2Proof.Machine
end

