-- ==== Sys2Proof/Machine/Blocks.lean ====
section
/-! DEFINITION. The records that the hub's blocks keep, one structure per record of the manual, all plain data.
Counts and times are natural numbers; deadlines are local times in oscillator periods (LOG 26). -/

namespace Sys2Proof.Machine

/-- A reading of hub time with the fraction dropped (R79). -/
structure Stamp where
  sec : Nat
  ns : Nat
deriving DecidableEq, Repr

/-! ### Slot ports (chapter 1) -/

/-- A frame in transmission: a stored frame or a TEST frame of the port, and the local time in ns at which its last
byte leaves (R13, R14; LOG 18). -/
inductive Transmission where
  | frame (id : Nat) (endsAt : Nat)
  | test (seq : Nat) (endsAt : Nat)
deriving DecidableEq, Repr

/-- The ingress assembly: the cells granted so far, and whether a request was refused (R10, R44). -/
structure Assembly where
  cells : Nat
  truncated : Bool
deriving DecidableEq, Repr

/-- The link counters (R19). -/
structure LinkCounters where
  framesReceived : Nat
  failedAttempts : Nat
  retrains : Nat
  laneFailures : Nat
deriving DecidableEq, Repr

/-- The port record (01, 1.1), with the deadlines of R3 and R6 and the TEST frames of R6. -/
structure Port where
  link : LinkState
  attempt : Nat
  laneGood : Table 4 Bool
  trained : List Lane
  workingWidth : Option Width
  reportedWidth : Option Width
  lanesInUse : List Lane
  testProgress : Nat
  cardHold : Bool
  pauseAsserted : Bool
  transmission : Option Transmission
  assembly : Option Assembly
  errorCount : Nat
  lastErrorCount : Nat
  stallSeen : Bool
  errorThreshold : Nat
  counters : LinkCounters
  trainingDeadline : Option Nat
  testDeadline : Option Nat
  /-- sequence numbers of the TEST frames built and not yet sent (R6) -/
  testUnsent : List Nat
  /-- the next TEST frame to build, 16 when all are built (R6) -/
  testNext : Nat
deriving DecidableEq, Repr

/-! ### Forwarding unit (chapter 2) -/

/-- The fields of a written flow record (02, 2.1). -/
structure FlowRecord where
  source : Slot
  dest : FlowDest
  cls : FrameClass
  maxFrame : Nat
  needsLock : Bool
deriving DecidableEq, Repr

/-- A suspension set, drawn from the four reasons (02, 2.1). -/
structure Suspension where
  sourceDown : Bool
  destDown : Bool
  timing : Bool
  fit : Bool
deriving DecidableEq, Repr

/-- One record of the flow table (02, 2.1). A FREE flow has no fields. -/
structure Flow where
  state : FlowState
  fields : Option FlowRecord
  suspension : Suspension
  forwarded : Nat
  dropped : Nat
deriving DecidableEq, Repr

/-- A slot's drop counters by reason and its frames to hub counter (R35). -/
structure DropCounters where
  byReason : Table 9 Nat
  framesToHub : Nat
deriving DecidableEq, Repr

/-- What the forwarding unit holds. Flow `f` of 1–255 is the index `f - 1`, group `g` of 1–16 the index `g - 1`. -/
structure Forwarding where
  flows : Table 255 Flow
  groups : Table 16 (PerSlot Bool)
  defaultForwarded : Nat
  defaultDropped : Nat
  drops : PerSlot DropCounters
deriving DecidableEq, Repr

/-! ### Queue manager (chapter 3) -/

/-- The kinds of frame that the hub makes and queues (03, "Cells for frames the hub makes"). -/
inductive HubKind where
  | mgmtResp
  | probe
  | timeMark
  | mailAck
deriving DecidableEq, Repr

/-- A frame the hub made: its kind, destination slot, header sequence and payload; the time at which it was made,
which is the timestamp of a MGMT_RESP or MAIL_ACK; and the compensation of a PROBE or TIME_MARK (R13). -/
structure HubFrame where
  kind : HubKind
  dest : Slot
  seq : Byte
  payload : List Byte
  made : Stamp
  compensation : Nat
deriving DecidableEq, Repr

/-- A stored frame is a card's frame, from its ingress slot and held in the shared account, or a hub frame, held in
the reserve account (R43). -/
inductive FrameBody where
  | card (ingress : Slot) (bytes : List Byte)
  | hub (h : HubFrame)
deriving DecidableEq, Repr

/-- A stored frame: the reference by which queues name it, its content, its class, its cells and its reference
count (R43, R47). -/
structure StoredFrame where
  id : Nat
  body : FrameBody
  cls : FrameClass
  cells : Nat
  refs : Nat
deriving DecidableEq, Repr

/-- The four class queues of a port, heads first (R48). -/
structure Queues where
  sample : List Nat
  timing : List Nat
  control : List Nat
  bulk : List Nat
deriving DecidableEq, Repr

/-- The egress counters of a port (R60). -/
structure EgressCounters where
  sent : Nat
  discards : Nat
  stallDiscards : Nat
  sampleRefusals : Nat
  losses : Nat
deriving DecidableEq, Repr

/-- The values that SET_QUOTA, SET_SAMPLE_LIMIT and SET_HOLD set for a slot (R50, R52, R56); the hold limit in µs. -/
structure QueueConfig where
  quota : Nat
  y : Nat
  x : Nat
  sampleLimit : Nat
  holdLimit : Nat
  stallLimit : Nat
deriving DecidableEq, Repr

/-- What the queue manager keeps for one slot and its port. -/
structure SlotQueues where
  queues : Queues
  paused : Bool
  hold : HoldState
  holdTimer : Option Nat
  stallCount : Nat
  egress : EgressCounters
deriving DecidableEq, Repr

/-- The queue manager: the stored frames, the reserve waiting list (R46), exhaustion seen (R61) and the slots'
records. `nextFrame` is the model's own: the reference the next stored frame takes (LOG 23). -/
structure QueueManager where
  frames : List StoredFrame
  nextFrame : Nat
  waiting : List Maker
  exhaustion : Bool
  slot : PerSlot SlotQueues
deriving DecidableEq, Repr

/-! ### Window calendar (chapter 4) -/

/-- A window: its start offset and its length, in ns (04, 4.1). -/
structure Window where
  start : Nat
  length : Nat
deriving DecidableEq, Repr

/-- A window's end (04, 4.1). -/
def Window.finish (w : Window) : Nat := w.start + w.length

/-- A bank: a cycle length and each port's window list (04, 4.1). -/
structure Bank where
  cycle : Nat
  windows : PerSlot (List Window)
deriving DecidableEq, Repr

/-- The commit arming: the requesting slot, the request's tag and its in-flight record (R68). -/
structure Arming where
  requester : Slot
  tag : BitVec 16
  record : Nat
deriving DecidableEq, Repr

/-- The window calendar. -/
structure Calendar where
  active : Bank
  pendingBank : Bank
  arming : Option Arming
deriving DecidableEq, Repr

/-! ### Time base and reference tracker (chapter 5) -/

/-- The two clocks: local time in oscillator periods since power-on (00 Conventions), hub time with its fraction in
units of 2^-32 ns, the increment and F (05, 5.1). -/
structure TimeBase where
  localTicks : Nat
  sec : Nat
  ns : Nat
  frac : Nat
  increment : Nat
  freq : Int
deriving DecidableEq, Repr

/-- A source record (05, 5.2). `silenceStart` and `holdoffStart` are the local times at which those timers last
started; the holdoff timer runs in FAILED alone. -/
structure SourceRecord where
  state : SourceState
  provider : Option Slot
  ePrev : Option Int
  good : Nat
  jumps : Nat
  prevArrival : Option Nat
  silenceStart : Nat
  holdoffStart : Option Nat
  announced : Option Nat
deriving DecidableEq, Repr

/-- The counters that are kept per source (R100). -/
structure SourceCounters where
  good : Nat
  jumps : Nat
  unusable : Nat
  failures : Nat
deriving DecidableEq, Repr

/-- The tracker's counters (R100). -/
structure TrackerCounters where
  srcP : SourceCounters
  srcN : SourceCounters
  steps : Nat
  discarded : Nat
deriving DecidableEq, Repr

/-- The values of SET_SOURCE (R97); `nFirst` is the priority order N then P, `nSlot` absent is none. -/
structure SourceConfig where
  nFirst : Bool
  revertive : Bool
  nSlot : Option Slot
  nRate : Nat
  pulseComp : Nat
  jumpLimit : Nat
deriving DecidableEq, Repr

/-- The values of SET_SERVO (R98). -/
structure ServoConfig where
  kp : Nat
  ki : Nat
  fLimit : Nat
  stepThreshold : Nat
  lockWindow : Nat
  lockCount : Nat
  holdoverLimit : Nat
deriving DecidableEq, Repr

/-- The reference tracker. The holdover timer is the local time since `holdoverStart` in whole local seconds while
it runs, and `holdoverLast` when it is stopped (R90). -/
structure Tracker where
  srcP : SourceRecord
  srcN : SourceRecord
  selected : Option Source
  timing : TimingState
  holdoverReady : Bool
  holdoverStart : Option Nat
  holdoverLast : Nat
  integral : Int
  lockRun : Nat
  unlockRun : Nat
  source : SourceConfig
  servo : ServoConfig
  counters : TrackerCounters
deriving DecidableEq, Repr

/-! ### Delay unit (chapter 6) -/

/-- The outstanding probe: its sequence and its send time t1, absent until it leaves (06, 6.1). -/
structure Probe where
  seq : Nat
  t1 : Option Stamp
deriving DecidableEq, Repr

/-- A delay record (06, 6.1). -/
structure DelayRecord where
  towardCard : Nat
  towardHub : Nat
deriving DecidableEq, Repr

/-- The delay unit's counters of a slot (R118). -/
structure DelayCounters where
  probesMade : Nat
  probesSkipped : Nat
  accepted : Nat
  rejected : Nat
  stale : Nat
  misses : Nat
  abandoned : Nat
  resets : Nat
  losses : Nat
  marksMade : Nat
  marksSkipped : Nat
  marksWithdrawn : Nat
deriving DecidableEq, Repr

/-- The slot delay state (06, 6.1). -/
structure SlotDelay where
  client : Bool
  nextSeq : Nat
  outstanding : Option Probe
  window : List Nat
  base : Option Nat
  missRun : Nat
  highRun : Nat
  asymmetry : Int
  delays : Option DelayRecord
  counters : DelayCounters
deriving DecidableEq, Repr

/-- The values of SET_PROBE (R117). -/
structure ProbeConfig where
  probeRate : Nat
  rmax : Nat
  stepLimit : Nat
  markRate : Nat
deriving DecidableEq, Repr

/-- The delay unit; the clocks are the local times of their next ticks (R104, R114). -/
structure DelayUnit where
  slot : PerSlot SlotDelay
  quality : Nat
  config : ProbeConfig
  nextProbe : Nat
  nextMark : Nat
deriving DecidableEq, Repr

/-! ### Slot controller (chapters 7 and 8) -/

/-- A valid identity record (12.5), as last read. -/
structure Identity where
  format : Nat
  kind : CardKind
  maker : Nat
  model : List Byte
  serial : List Byte
  powerClass : Nat
  lanes : Nat
  maxExponent : Nat
  flags : Byte
  softStart : Nat
  currentLimit : Nat
  spare : List Byte
  checksum : Byte
deriving DecidableEq, Repr

/-- The timing client flag: the least significant bit of the timing flags (12.5). -/
def Identity.timingClient (i : Identity) : Bool := i.flags.getLsbD 0

/-- The reference provider flag: the next bit (12.5). -/
def Identity.refProvider (i : Identity) : Bool := i.flags.getLsbD 1

/-- The maximum frame length: 2 raised to the max frame exponent (R148). -/
def Identity.maxFrame (i : Identity) : Nat := 2 ^ i.maxExponent

/-- The slot controller's counters of a slot (R139). -/
structure SlotCounters where
  insertions : Nat
  grants : Nat
  faults : Nat
  drainsCompleted : Nat
  drainTimeouts : Nat
  removals : Nat
deriving DecidableEq, Repr

/-- The lines of a slot (00, "Lines of the part"): the raw levels coming in, and the two lines going out. -/
structure SlotLines where
  rawPresent : Bool
  rawClosed : Bool
  powerGood : Bool
  fastFault : Bool
  powerEnable : Bool
  removeLamp : Bool
deriving DecidableEq, Repr

/-- The slot record (07, 7.1), the debounces in progress (R120), the failure kind and the lines. -/
structure SlotRecord where
  present : Bool
  closed : Bool
  state : SlotState
  admitted : Bool
  identity : Option Identity
  powerClass : Option Nat
  width : Option Width
  fault : Option FaultReason
  failureKind : Option SidebandOutcome
  pullGuard : Bool
  softStart : Option Nat
  drainTimer : Option Nat
  presenceDebounce : Option Nat
  latchDebounce : Option Nat
  lines : SlotLines
  counters : SlotCounters
deriving DecidableEq, Repr

/-- The slot controller: the slot records and the hub-wide items of 7.1. In `manual` a kind's policy is MANUAL where
true and AUTO where false. -/
structure SlotController where
  slot : PerSlot SlotRecord
  committed : Nat
  waitingList : List Slot
  mainsBudget : Nat
  batteryBudget : Nat
  inForce : Budget
  manual : Table 6 Bool
  drainTimeout : Nat
deriving DecidableEq, Repr

/-! ### Sideband master (chapter 8) -/

/-- An entry of the identity request queue (08, 8.1). A RAW entry holds its in-flight record's reference (R180). -/
inductive SidebandEntry where
  | identify (slot : Slot) (attempt : Nat)
  | raw (slot : Slot) (offset length : Nat) (requester : Slot) (tag : BitVec 16) (record : Nat)
deriving DecidableEq, Repr

/-- The current transaction, which serves the entry at the head of the queue unless it is being aborted (08, 8.1).
`bytes` are the data bytes received, in their order, and its byte count is their number. `stuck` says that the data wire
was low in SELECT with the clock wire high, so that the transaction ends BUS_STUCK. `due` is the local time at which the present condition or byte is over,
the holds so far counted in; `held` the local time at which the card's present hold of the clock began (R144, R145). -/
structure Transaction where
  phase : SidebandPhase
  bytes : List Byte
  map : AckMap
  due : Nat
  held : Option Nat
  aborting : Bool
  stuck : Bool
deriving DecidableEq, Repr

/-- A slot's last attempt (08, 8.1). -/
structure LastAttempt where
  outcome : SidebandOutcome
  map : AckMap
deriving DecidableEq, Repr

/-- The master's counters of a slot (R153). -/
structure SidebandCounters where
  attempts : Nat
  failures : Nat
  rawReads : Nat
deriving DecidableEq, Repr

/-- The sideband master. -/
structure Sideband where
  queue : List SidebandEntry
  current : Option Transaction
  selector : Option Slot
  lastAttempt : PerSlot (Option LastAttempt)
  counters : PerSlot SidebandCounters
deriving DecidableEq, Repr

/-! ### Cabinet monitor (chapter 9) -/

/-- A channel record (09, 9.1). -/
structure ChannelRecord where
  last : Option Nat
  inScan : Bool
  critLow : Option Nat
  warnLow : Option Nat
  warnHigh : Option Nat
  critHigh : Option Nat
  hysteresis : Nat
  warning : Option Bool
  critical : Option Bool
deriving DecidableEq, Repr

/-- The monitor's counters (R163). -/
structure MonitorCounters where
  conversions : Nat
  passes : Nat
  abandoned : Nat
  ignored : Nat
deriving DecidableEq, Repr

/-- The cabinet monitor. `pass` is what is left of the pass in progress, the channel in conversion at its head, and
`conversionEnd` the local time at which that conversion completes (R157); both are empty outside SCANNING. -/
structure Monitor where
  channel : Table 16 ChannelRecord
  powered : PerSlot Bool
  mode : MonitorMode
  trigger : MonitorTrigger
  single : Channel
  state : MonitorState
  pass : List Channel
  conversionEnd : Option Nat
  counters : MonitorCounters
deriving DecidableEq, Repr

/-! ### Alarm unit (chapter 10) -/

/-- An alarm point's record (10, 10.1); its id, name and kind are the catalogue's. -/
structure Point where
  severity : Severity
  enabled : Bool
  raisePers : Option Nat
  clearPers : Option Nat
  latched : Bool
  state : PointState
  count : Nat
  acked : Bool
  condition : Bool
  raiseCount : Nat
  lastChange : Nat
deriving DecidableEq, Repr

/-- An external input (R171): its levels, true for open (line high), its polarity, true where OPEN signals the
alarm, and the debounce in progress. -/
structure ExtInput where
  rawOpen : Bool
  debouncedOpen : Bool
  alarmWhenOpen : Bool
  debounce : Option Nat
deriving DecidableEq, Repr

/-- An alarm wait (R174). -/
structure Wait where
  requester : Slot
  tag : BitVec 16
  record : Nat
deriving DecidableEq, Repr

/-- A message in a mailbox (10, 10.5). -/
structure Mail where
  payload : List Byte
  seconds : Nat
deriving DecidableEq, Repr

/-- A MAIL_ACK that waits for reserve cells (10, 10.5). -/
structure MailAck where
  dest : Slot
  result : MailResult
  answers : Byte
  seq : Byte
  made : Stamp
deriving DecidableEq, Repr

/-- The alarm unit's counters (R177). -/
structure AlarmCounters where
  produced : Nat
  discarded : Nat
  accepted : Nat
  refused : Nat
  unanswered : Nat
deriving DecidableEq, Repr

/-- The alarm unit. A relay is true in its alarm position, de-energized. `supplied` is whether the part has its
supply (R169). -/
structure AlarmUnit where
  points : Table 93 Point
  active : List PointId
  majorAlarm : Bool
  minorAlarm : Bool
  supplied : Bool
  inputs : Table 4 ExtInput
  waits : List Wait
  notices : List Notice
  overflow : Bool
  mailbox : PerSlot (Option Mail)
  acks : List MailAck
  counters : AlarmCounters
deriving DecidableEq, Repr

/-! ### Management agent (chapter 11) -/

/-- A request in the queue: its requester, the sequence of its frame's header and its MGMT payload (R178). -/
structure Request where
  requester : Slot
  seq : Byte
  payload : List Byte
deriving DecidableEq, Repr

/-- An in-flight record (11, 11.1), with the reference by which its owner names it (R180). -/
structure InFlight where
  record : Nat
  kind : InFlightKind
  requester : Slot
  seq : Byte
  tag : BitVec 16
deriving DecidableEq, Repr

/-- A MGMT_RESP made and waiting for hub reserve cells (11, 11.1). -/
structure Response where
  kind : ResponseKind
  dest : Slot
  seq : Byte
  payload : List Byte
  made : Stamp
deriving DecidableEq, Repr

/-- The agent counters (R185). -/
structure AgentCounters where
  accepted : Nat
  refused : Nat
  made : Nat
  withdrawn : Nat
  unsent : Nat
deriving DecidableEq, Repr

/-- The management agent. `nextRecord` is the model's own: the reference the next in-flight record takes (LOG 23). -/
structure Agent where
  queue : List Request
  inflight : List InFlight
  nextRecord : Nat
  responses : List Response
  uptime : Nat
  counters : AgentCounters
deriving DecidableEq, Repr

/-! ### What the hub puts on its links -/

/-- What the master puts on a sideband line: a start, a restart, the bits of an addressed byte, the acknowledge bit of
a data byte, a stop (R144). -/
inductive SidebandSignal where
  | start
  | restart
  | bits (bits : List Bool)
  | acknowledge (ack : Bool)
  | stop
deriving DecidableEq, Repr

/-- An output: a symbol on a slot link, a frame at its egress start as what each of its lanes in use carries, or a
signal on a sideband line (R13, R15, R144, R187). -/
inductive Output where
  | symbol (p : Slot) (s : HubSymbol)
  | frame (p : Slot) (lanes : List (Lane × List (Option Byte)))
  | sideband (n : Slot) (signal : SidebandSignal)
deriving DecidableEq, Repr

end Sys2Proof.Machine
end

