-- ==== Sys2Proof/Machine/Initial.lean ====
section
/-! DEFINITION. The value of each block's records at power-on, rule by rule. -/

namespace Sys2Proof.Machine

/-- A port at power-on (R1). The attempt is not given there; the model takes 1 (LOG 8). -/
def Port.initial : Port where
  link := .down
  attempt := 1
  laneGood := Table.fill true
  trained := []
  workingWidth := none
  reportedWidth := none
  lanesInUse := []
  testProgress := 0
  cardHold := false
  pauseAsserted := false
  transmission := none
  assembly := none
  errorCount := 0
  lastErrorCount := 0
  stallSeen := false
  errorThreshold := 16
  counters := ⟨0, 0, 0, 0⟩
  trainingDeadline := none
  testDeadline := none
  testUnsent := []
  testNext := 16

/-- The empty suspension set. -/
def Suspension.empty : Suspension := ⟨false, false, false, false⟩

/-- A FREE flow (R21, R39). -/
def Flow.free : Flow := ⟨.free, none, .empty, 0, 0⟩

def DropCounters.zero : DropCounters := ⟨Table.fill 0, 0⟩

/-- The forwarding unit at power-on (R21, R27, R31, R35). -/
def Forwarding.initial : Forwarding := ⟨Table.fill .free, Table.fill (Table.fill false), 0, 0, Table.fill .zero⟩

def Queues.empty : Queues := ⟨[], [], [], []⟩

def EgressCounters.zero : EgressCounters := ⟨0, 0, 0, 0, 0⟩

/-- The initial quota, Y, X, SAMPLE limit, hold limit and stall limit (R50, R52, R56). -/
def QueueConfig.initial : QueueConfig := ⟨512, 64, 128, 128, 50, 3⟩

/-- The queue manager at power-on (R43, R46, R48, R51, R53, R56, R60, R61). -/
def QueueManager.initial : QueueManager :=
  ⟨[], 0, [], false, Table.fill ⟨.empty, false, .none, none, 0, .zero⟩⟩

/-- Both banks at power-on: a cycle of 250,000 ns and no windows; no commit arming (R62). -/
def Calendar.initial : Calendar :=
  ⟨⟨250000, Table.fill []⟩, ⟨250000, Table.fill []⟩, none⟩

/-- Both clocks at 0, the nominal increment, F 0 (00 Conventions, R79). -/
def TimeBase.initial : TimeBase := ⟨0, 0, 0, 0, Config.nominalIncrement, 0⟩

/-- A source without a provider: every item absent or 0 (R81). -/
def SourceRecord.unavailable : SourceRecord := ⟨.unavailable, none, none, 0, 0, none, 0, none, none⟩

def TrackerCounters.zero : TrackerCounters := ⟨⟨0, 0, 0, 0⟩, ⟨0, 0, 0, 0⟩, 0, 0⟩

/-- The tracker at power-on (R81, R88, R89, R90, R95, R96, R97, R98, R100). -/
def Tracker.initial : Tracker where
  srcP := .unavailable
  srcN := .unavailable
  selected := none
  timing := .freerun
  holdoverReady := false
  holdoverStart := none
  holdoverLast := 0
  integral := 0
  lockRun := 0
  unlockRun := 0
  source := ⟨false, true, none, 1, 0, 5000⟩
  servo := ⟨64, 8, 50000, 1000, 100, 8, 14400⟩
  counters := .zero

def DelayCounters.zero : DelayCounters := ⟨0, 0, 0, 0, 0, 0, 0, 0, 0, 0, 0, 0⟩

/-- The periods of the probe clock and of the mark clock, in oscillator periods (R104, R114). -/
def ProbeConfig.probePeriod (c : ProbeConfig) : Nat := Config.ticksPerSecond / c.probeRate
def ProbeConfig.markPeriod (c : ProbeConfig) : Nat := Config.ticksPerSecond / c.markRate

def ProbeConfig.initial : ProbeConfig := ⟨8, 4000, 100, 4⟩

/-- The delay unit at power-on; its clocks first tick one interval later (R102, R104, R114). -/
def DelayUnit.initial : DelayUnit :=
  ⟨Table.fill ⟨false, 0, none, [], none, 0, 0, 0, none, .zero⟩, 4, .initial,
    ProbeConfig.initial.probePeriod, ProbeConfig.initial.markPeriod⟩

def SlotCounters.zero : SlotCounters := ⟨0, 0, 0, 0, 0, 0⟩

/-- A slot's lines with no card seated (LOG 7). -/
def SlotLines.idle : SlotLines := ⟨false, false, false, false, false, false⟩

/-- A slot record at power-on, over the levels its input lines then have. Debouncing starts from presence absent
and latch OPEN, so a raw line that already differs begins its debounce (R119, R120). -/
def SlotRecord.initial (lines : SlotLines) : SlotRecord where
  present := false
  closed := false
  state := .empty
  admitted := false
  identity := none
  powerClass := none
  width := none
  fault := none
  failureKind := none
  pullGuard := false
  softStart := none
  drainTimer := none
  presenceDebounce := if lines.rawPresent then some Config.presenceTicks else none
  latchDebounce := if lines.rawClosed then some Config.latchTicks else none
  lines := { lines with powerEnable := false, removeLamp := false }
  counters := .zero

/-- The slot controller at power-on (R119): MANUAL for RADIO, AUTO for the other kinds. -/
def SlotController.initial (lines : PerSlot SlotLines) : SlotController where
  slot := lines.mapAll SlotRecord.initial
  committed := 0
  waitingList := []
  mainsBudget := 600
  batteryBudget := 200
  inForce := .mains
  manual := (Table.fill false).write CardKind.radio.index true
  drainTimeout := 100

/-- The sideband master at power-on (R141). -/
def Sideband.initial : Sideband := ⟨[], none, none, Table.fill none, Table.fill ⟨0, 0, 0⟩⟩

/-- A channel record at power-on, with thresholds only where R154's table names them. -/
def ChannelRecord.initial (c : Channel) : ChannelRecord :=
  let plain : ChannelRecord := ⟨none, true, none, none, none, none, 4, none, none⟩
  match c.val with
  | 12 => { plain with critLow := some 420, warnLow := some 460 }
  | 13 => { plain with critLow := some 430, warnLow := some 460 }
  | 14 => { plain with warnHigh := some 460, critHigh := some 520 }
  | 15 => { plain with warnHigh := some 540, critHigh := some 600 }
  | _ => plain

/-- The sixteen channels in ascending order. -/
def allChannels : List Channel := [0, 1, 2, 3, 4, 5, 6, 7, 8, 9, 10, 11, 12, 13, 14, 15]

/-- The monitor at power-on: CONTINUOUS with a software trigger, its first pass begun (R154). -/
def Monitor.initial : Monitor where
  channel := Table.build ChannelRecord.initial
  powered := Table.fill false
  mode := .continuous
  trigger := .software
  single := 0
  state := .scanning
  pass := allChannels
  conversionEnd := some Config.conversionTicks
  counters := ⟨0, 0, 0, 0⟩

/-- A point with the values of the catalogue (R164). -/
def Point.initial (id : PointId) : Point where
  severity := pointSeverity id
  enabled := true
  raisePers := (pointPersistence id).map Prod.fst
  clearPers := (pointPersistence id).map Prod.snd
  latched := pointKind id == .event
  state := .clear
  count := 0
  acked := false
  condition := false
  raiseCount := 0
  lastChange := 0

/-- The TIMING_FREERUN point after the first evaluation (R164): its condition is true from the start, so it has
gone ACTIVE, at hub time 0. -/
def Point.freerunFirst : Point :=
  { Point.initial freerunPoint with state := .active, condition := true, raiseCount := 1 }

/-- The notice of the first evaluation (R164, R174). -/
def Notice.first : Notice := ⟨.alarm freerunPoint .active .major, 0⟩

/-- An external input at power-on: polarity OPEN, the debounced level at its non-alarm state, debouncing started
(R171). -/
def ExtInput.initial (rawOpen : Bool) : ExtInput :=
  ⟨rawOpen, false, true, if rawOpen then some Config.extInputTicks else none⟩

/-- The alarm unit after power-on and its first evaluation (R164, R169, R174, R176, R177). -/
def AlarmUnit.initial (inputs : Table 4 Bool) : AlarmUnit where
  points := (Table.build Point.initial).write freerunPoint .freerunFirst
  active := [freerunPoint]
  majorAlarm := true
  minorAlarm := false
  supplied := true
  inputs := inputs.mapAll ExtInput.initial
  waits := []
  notices := [Notice.first]
  overflow := false
  mailbox := Table.fill none
  acks := []
  counters := ⟨1, 0, 0, 0, 0⟩

/-- The agent at power-on (R178). -/
def Agent.initial : Agent := ⟨[], [], 0, [], 0, ⟨0, 0, 0, 0, 0⟩⟩

end Sys2Proof.Machine
end

