-- ==== Sys2Proof/Machine/State.lean ====
section
/-! DEFINITION. The state of the hub, its stops, and the state right after reset. -/

namespace Sys2Proof.Machine

/-- The faults of a step. The spec names no event that stops the part: what it calls faults (slot faults, drops,
refused requests) are effects on the state. So no meaning raises a fault, and there is none to raise. -/
inductive Fault where
deriving DecidableEq, Repr

/-- The refusals of a step. -/
inductive Refusal where
  /-- Raised by `exec` for a command that has no meaning yet. Safe: the model stops. No arm raises it. -/
  | notModelled (mnemonic : String)
deriving DecidableEq, Repr

/-- The whole state of the hub, one field per block of 00_scope.md, with the queue of commands in front. -/
structure State where
  /-- the commands that wait, first in, first out (the model's own) -/
  pending : List Instr
  ports : PerSlot Port
  fwd : Forwarding
  qcfg : PerSlot QueueConfig
  qm : QueueManager
  cal : Calendar
  time : TimeBase
  trk : Tracker
  delay : DelayUnit
  slots : SlotController
  side : Sideband
  mon : Monitor
  alarm : AlarmUnit
  agent : Agent
  /-- what the hub put on its links during the last command (the model's own, LOG 21) -/
  out : List Output
  /-- how many free values have been drawn (the model's own, LOG 10) -/
  free : Nat
deriving DecidableEq, Repr

/-- The state right after power-on, over the levels that the input lines then have: every block's initial values,
both clocks at 0, and the alarm unit's first evaluation made (R1, R164). -/
def State.atPowerOn (lines : PerSlot SlotLines) (inputs : Table 4 Bool) : State where
  pending := []
  ports := Table.fill Port.initial
  fwd := Forwarding.initial
  qcfg := Table.fill QueueConfig.initial
  qm := QueueManager.initial
  cal := Calendar.initial
  time := TimeBase.initial
  trk := Tracker.initial
  delay := DelayUnit.initial
  slots := SlotController.initial lines
  side := Sideband.initial
  mon := Monitor.initial
  alarm := AlarmUnit.initial inputs
  agent := Agent.initial
  out := []
  free := 0

/-- The machine right after reset: power-on with no card seated and every external contact closed (LOG 7). -/
def State.reset : State := State.atPowerOn (Table.fill SlotLines.idle) (Table.fill false)

end Sys2Proof.Machine
end

