-- ==== Sys2Proof/Machine/Ops.lean ====
section
/-! DEFINITION. The named operations over the state's records: reading and updating one record, the counters, the
readings and arithmetic of the two clocks, and the hub's outputs. -/

namespace Sys2Proof.Machine

/-! ### Reading and updating one record -/

def State.port (s : State) (p : Slot) : Port := s.ports.read p
def State.updPort (s : State) (p : Slot) (f : Port → Port) : State := { s with ports := s.ports.update p f }

def State.sq (s : State) (p : Slot) : SlotQueues := s.qm.slot.read p
def State.updSq (s : State) (p : Slot) (f : SlotQueues → SlotQueues) : State :=
  { s with qm := { s.qm with slot := s.qm.slot.update p f } }

def State.queueConfig (s : State) (n : Slot) : QueueConfig := s.qcfg.read n
def State.updQueueConfig (s : State) (n : Slot) (f : QueueConfig → QueueConfig) : State :=
  { s with qcfg := s.qcfg.update n f }

def State.flow (s : State) (f : Fin 255) : Flow := s.fwd.flows.read f
def State.updFlow (s : State) (f : Fin 255) (g : Flow → Flow) : State :=
  { s with fwd := { s.fwd with flows := s.fwd.flows.update f g } }

def State.updDrops (s : State) (n : Slot) (f : DropCounters → DropCounters) : State :=
  { s with fwd := { s.fwd with drops := s.fwd.drops.update n f } }

def State.source (s : State) : Source → SourceRecord
  | .P => s.trk.srcP
  | .N => s.trk.srcN

def State.updSource (s : State) (src : Source) (f : SourceRecord → SourceRecord) : State :=
  match src with
  | .P => { s with trk := { s.trk with srcP := f s.trk.srcP } }
  | .N => { s with trk := { s.trk with srcN := f s.trk.srcN } }

def State.updTrk (s : State) (f : Tracker → Tracker) : State := { s with trk := f s.trk }

def State.slotDelay (s : State) (n : Slot) : SlotDelay := s.delay.slot.read n
def State.updDelay (s : State) (n : Slot) (f : SlotDelay → SlotDelay) : State :=
  { s with delay := { s.delay with slot := s.delay.slot.update n f } }

def State.slot (s : State) (n : Slot) : SlotRecord := s.slots.slot.read n
def State.updSlot (s : State) (n : Slot) (f : SlotRecord → SlotRecord) : State :=
  { s with slots := { s.slots with slot := s.slots.slot.update n f } }

def State.channel (s : State) (c : Channel) : ChannelRecord := s.mon.channel.read c
def State.updChannel (s : State) (c : Channel) (f : ChannelRecord → ChannelRecord) : State :=
  { s with mon := { s.mon with channel := s.mon.channel.update c f } }

def State.point (s : State) (id : PointId) : Point := s.alarm.points.read id

def State.input (s : State) (i : Fin 4) : ExtInput := s.alarm.inputs.read i
def State.updInput (s : State) (i : Fin 4) (f : ExtInput → ExtInput) : State :=
  { s with alarm := { s.alarm with inputs := s.alarm.inputs.update i f } }

def State.updAlarm (s : State) (f : AlarmUnit → AlarmUnit) : State := { s with alarm := f s.alarm }
def State.updAgent (s : State) (f : Agent → Agent) : State := { s with agent := f s.agent }
def State.updMon (s : State) (f : Monitor → Monitor) : State := { s with mon := f s.mon }
def State.updSide (s : State) (f : Sideband → Sideband) : State := { s with side := f s.side }
def State.updCal (s : State) (f : Calendar → Calendar) : State := { s with cal := f s.cal }

/-- An operation done for every slot, in ascending slot order. -/
def forSlots (f : Slot → State → State) (s : State) : State := allSlots.foldl (fun t n => f n t) s

/-- An operation done for every item of a list, in its order. -/
def forEach {α : Type} (xs : List α) (f : α → State → State) (s : State) : State := xs.foldl (fun t x => f x t) s

/-! ### Counters -/

/-- One more on a 32-bit counter, which stops at 2^32 − 1 (R19, R21, R60 and the other counter rules). -/
def count32 (n : Nat) : Nat := min (n + 1) (2 ^ 32 - 1)

/-- One more on a 16-bit counter, which stops at 65,535 (R18, 10.1). -/
def count16 (n : Nat) : Nat := min (n + 1) 65535

/-! ### The clocks -/

/-- Local time, in oscillator periods. -/
def State.now (s : State) : Nat := s.time.localTicks

/-- Local time, in nanoseconds of the oscillator. -/
def State.nowNs (s : State) : Nat := s.time.localTicks * Config.nsPerTick

/-- Hub time with the fraction dropped (R79). -/
def State.hubNow (s : State) : Stamp := ⟨s.time.sec, s.time.ns⟩

/-- A time as nanoseconds since second 0. -/
def Stamp.toNs (t : Stamp) : Nat := t.sec * Config.nsPerSecond + t.ns

/-- The time of a number of nanoseconds since second 0; the seconds are taken modulo 2^48 (R79). -/
def Stamp.ofNs (n : Nat) : Stamp := ⟨n / Config.nsPerSecond % Config.secModulus, n % Config.nsPerSecond⟩

/-- A time plus a number of nanoseconds; nanoseconds carry into seconds (R13). -/
def Stamp.plus (t : Stamp) (n : Nat) : Stamp := Stamp.ofNs (t.toNs + n)

/-- The difference of two times, computed exactly across seconds (R83, R108). -/
def Stamp.minus (a b : Stamp) : Int := (a.toNs : Int) - (b.toNs : Int)

/-- A time as it is sent: its seconds (6 bytes) and its nanoseconds (4 bytes) (12.1, R188). -/
def Stamp.bytes (t : Stamp) : List Byte := beBytes 6 t.sec ++ beBytes 4 t.ns

/-- The hub time that lies an amount of 2^-32 ns after a hub time: whole nanoseconds carry out of the fraction,
whole seconds out of the nanoseconds, and the seconds return to 0 past 2^48 − 1 (R79). -/
def TimeBase.advance (t : TimeBase) : TimeBase :=
  let frac := t.frac + t.increment
  let ns := t.ns + frac / 2 ^ 32
  { t with
    localTicks := t.localTicks + 1
    frac := frac % 2 ^ 32
    ns := ns % Config.nsPerSecond
    sec := (t.sec + ns / Config.nsPerSecond) % Config.secModulus }

/-- The increment of a frequency adjustment: the nominal increment plus adj, where adj is the nominal increment times
|F| over 10^9, rounded to the nearest whole number with a half rounded up, with the sign of F (R80). -/
def incrementOf (f : Int) : Nat :=
  let adj := (2 * Config.nominalIncrement * f.natAbs + Config.nsPerSecond) / (2 * Config.nsPerSecond)
  if f < 0 then Config.nominalIncrement - adj else Config.nominalIncrement + adj

/-- F takes a value, and the increment is formed again from it (R80). -/
def State.setFreq (s : State) (f : Int) : State :=
  { s with time := { s.time with freq := f, increment := incrementOf f } }

/-! ### Outputs and free values -/

/-- The hub puts something on a link. -/
def State.emit (s : State) (o : Output) : State := { s with out := s.out ++ [o] }

/-- A command begins: what the last one put on the links is past (LOG 21). -/
def State.begin (s : State) : State := { s with out := [] }

/-- The next free value (LOG 10). -/
def State.freeByte (s : State) : Byte := Config.freeByte s.free

/-- The state in which the next free value has been drawn. -/
def State.drawn (s : State) : State := { s with free := s.free + 1 }

end Sys2Proof.Machine
end

