-- ==== Sys2Proof/Machine/Operands.lean ====
section
/-! DEFINITION. The operand forms of the requests: reading an argument field as the number, name or flag it stands
for, with the checks and the clamping that every owning chapter uses (R179, R188). -/

namespace Sys2Proof.Machine

/-- The slot of a number 1–12, none outside. -/
def slotOfNat (n : Nat) : Option Slot := if h : 1 ≤ n ∧ n ≤ 12 then some ⟨n - 1, by omega⟩ else none

/-- The slot or port that an argument byte names. -/
def slotOfByte (b : Byte) : Option Slot := slotOfNat b.toNat

/-- The flow of a number 1–255, none for 0. -/
def flowOfByte (b : Byte) : Option (Fin 255) :=
  if h : 1 ≤ b.toNat then some ⟨b.toNat - 1, by have := b.isLt; omega⟩ else none

/-- The group of a number 1–16, none outside. -/
def groupOfNat (n : Nat) : Option (Fin 16) := if h : 1 ≤ n ∧ n ≤ 16 then some ⟨n - 1, by omega⟩ else none

/-- The channel of a number 0–15, none outside. -/
def channelOfByte (b : Byte) : Option Channel := if h : b.toNat < 16 then some ⟨b.toNat, h⟩ else none

/-- The alarm point of an id 0–92, none outside. -/
def pointOfByte (b : Byte) : Option PointId := if h : b.toNat < 93 then some ⟨b.toNat, h⟩ else none

/-- A value outside a range is taken at the nearer end. -/
def clamp (lo hi n : Nat) : Nat := max lo (min hi n)

/-- A signed value outside a range is taken at the nearer end. -/
def clampInt (lo hi n : Int) : Int := max lo (min hi n)

/-- A flag byte: 0x00 no, 0x01 yes, any other is not in the table (R188). -/
def flagOfByte (b : Byte) : Option Bool :=
  match b.toNat with
  | 0 => some false
  | 1 => some true
  | _ => none

/-- An optional count: absent or present by its presence byte; another presence byte is not in the table (R188). -/
def optionalOf (o : RawOptional) : Option (Option Nat) :=
  (flagOfByte o.presence).map fun present => if present then some o.value.toNat else none

/-- A rate of 1, 2, 4, 8 or 16: a rate between two allowed ones is taken as the lower, 0 as 1, and one above 16
as 16 (R97, R117). -/
def lowerRate (n : Nat) : Nat :=
  if 16 ≤ n then 16 else if 8 ≤ n then 8 else if 4 ≤ n then 4 else if 2 ≤ n then 2 else 1

/-- The class codes of a flow: SAMPLE, CONTROL and BULK, TIMING not being a flow class (R36). -/
def flowClassOfByte (b : Byte) : Option FrameClass :=
  match b.toNat with
  | 0 => some .sample
  | 2 => some .control
  | 3 => some .bulk
  | _ => none

/-- The destination of WRITE_FLOW: its kind, 0x00 slot or 0x01 group, and its number (R36, R188). -/
def flowDestOf (kind number : Byte) : Option FlowDest :=
  match kind.toNat with
  | 0 => (slotOfByte number).map .slot
  | 1 => (groupOfNat number.toNat).map .group
  | _ => none

/-! ### Results -/

/-- A whole number of 1, 2, 4 or 8 bytes, as results carry it (R188). -/
def u8 (n : Nat) : List Byte := beBytes 1 n
def u16 (n : Nat) : List Byte := beBytes 2 n
def u32 (n : Nat) : List Byte := beBytes 4 n
def u64 (n : Nat) : List Byte := beBytes 8 n

/-- A signed number, in two's complement (R188). -/
def i16 (n : Int) : List Byte := beSigned 2 n
def i32 (n : Int) : List Byte := beSigned 4 n
def i64 (n : Int) : List Byte := beSigned 8 n

/-- A flag (R188). -/
def flag (b : Bool) : List Byte := [flagByte b]

/-- An optional value: a presence byte, then the value's field, zeros when the value is absent (R188). -/
def optional {α : Type} (width : Nat) (enc : α → List Byte) : Option α → List Byte
  | some a => 1 :: enc a
  | none => 0 :: List.replicate width 0

/-- A list or a set: a one-byte count and the items (R188). -/
def counted {α : Type} (enc : α → List Byte) (xs : List α) : List Byte := u8 xs.length ++ xs.flatMap enc

/-- A slot by its number. -/
def slotByte (n : Slot) : List Byte := u8 (slotNumber n)

/-- A width by its number of lanes. -/
def widthByte (w : Width) : List Byte := u8 w.lanes

end Sys2Proof.Machine
end

