-- ==== Sys2Proof/Machine/Flags.lean ====
section
/-! DEFINITION. The flags, levels and conditions that the manual forms from the state: held cells and occupancies,
the degraded flag, egress empty, the conditions of the STATE alarm points. -/

namespace Sys2Proof.Machine

/-! ### Slots and cards -/

/-- The slot is ACTIVE. -/
def State.isActive (s : State) (n : Slot) : Bool := (s.slot n).state == .active

/-- The slot is STANDBY, ACTIVE or DRAINING (07, 7.2). -/
def State.isUp (s : State) (n : Slot) : Bool := (s.slot n).state.isUp

/-- The slot is 1 or 2, a controller slot (07). -/
def isControllerSlot (n : Slot) : Bool := n.val < 2

/-- The slot is a controller slot that holds a CONTROL card (R182). -/
def State.holdsController (s : State) (n : Slot) : Bool :=
  isControllerSlot n && (s.slot n).identity.any (·.kind == .control)

/-- The card's lane capability. A port that trains has a valid identity (01, 1.1), whose lanes are at
least 1 (LOG 41). -/
def State.laneCapability (s : State) (n : Slot) : Nat := max 1 (((s.slot n).identity.map Identity.lanes).getD 1)

/-- The degraded flag: the reported width is present and less than the card's lane capability (R18). -/
def State.degraded (s : State) (n : Slot) : Bool :=
  (s.port n).reportedWidth.any fun w => w.lanes < s.laneCapability n

/-! ### Cells -/

/-- The length of a stored frame in bytes, padding counted (R187). -/
def FrameBody.length : FrameBody → Nat
  | .card _ bytes => bytes.length
  | .hub h => max 64 (24 + h.payload.length)

/-- The slot a card's frame came from. -/
def FrameBody.ingress : FrameBody → Option Slot
  | .card n _ => some n
  | .hub _ => none

/-- The cells that an ingress assembly holds. -/
def Port.assemblyCells (p : Port) : Nat := (p.assembly.map Assembly.cells).getD 0

/-- The reserve cells that a port's TEST frames hold: one for each built and unsent, one for one in transmission
(R6). -/
def Port.testCells (p : Port) : Nat :=
  p.testUnsent.length + (match p.transmission with | some (.test _ _) => 1 | some (.frame _ _) | none => 0)

/-- A slot's held cells: its ingress assembly, and its CONTROL and BULK frames, each once (R51). -/
def State.heldCells (s : State) (n : Slot) : Nat :=
  (s.port n).assemblyCells +
    ((s.qm.frames.filter fun f => f.body.ingress == some n && f.cls != .sample).map StoredFrame.cells).sum

/-- The shared cells in use (R43). -/
def State.sharedUsed (s : State) : Nat :=
  (allSlots.map fun p => (s.port p).assemblyCells).sum +
    ((s.qm.frames.filter fun f => f.body.ingress.isSome).map StoredFrame.cells).sum

/-- The reserve cells in use (R43). -/
def State.reserveUsed (s : State) : Nat :=
  (allSlots.map fun p => (s.port p).testCells).sum +
    ((s.qm.frames.filter fun f => f.body.ingress.isNone).map StoredFrame.cells).sum

/-- The free cells of the two accounts (R43). -/
def State.sharedFree (s : State) : Nat := Config.sharedCells - s.sharedUsed
def State.reserveFree (s : State) : Nat := Config.reserveCells - s.reserveUsed

/-- A stored frame by its reference. -/
def State.frame? (s : State) (id : Nat) : Option StoredFrame := s.qm.frames.find? (·.id == id)

/-- The cells and the length of a referenced frame. -/
def State.frameCells (s : State) (id : Nat) : Nat := ((s.frame? id).map StoredFrame.cells).getD 0
def State.frameLength (s : State) (id : Nat) : Nat := ((s.frame? id).map fun f => f.body.length).getD 0

/-- A port's SAMPLE occupancy: the cells of the copies in its SAMPLE queue (R50). -/
def State.sampleOccupancy (s : State) (p : Slot) : Nat := ((s.sq p).queues.sample.map s.frameCells).sum

/-! ### Ports -/

/-- All four queues of a port are empty. -/
def Queues.isEmpty (q : Queues) : Bool := q.sample.isEmpty && q.timing.isEmpty && q.control.isEmpty && q.bulk.isEmpty

/-- A port's egress is empty: its four queues are empty and it has no transmission (R48). -/
def State.egressEmpty (s : State) (p : Slot) : Bool := (s.sq p).queues.isEmpty && (s.port p).transmission.isNone

/-- A port is free: its link is UP, card hold is OFF and it has no transmission (04, 4.4; R13). -/
def State.portFree (s : State) (p : Slot) : Bool :=
  (s.port p).link == .up && !(s.port p).cardHold && (s.port p).transmission.isNone

/-! ### Time -/

/-- The wire time, in ns, of a frame of `L` bytes at a width: ceil((L + 24) × 800 / w) ps, rounded up to a whole ns
(R14). The widths divide 800. -/
def wireTime (L : Nat) (w : Width) : Nat := ((L + 24) * 800 / w.lanes + 999) / 1000

/-- The cycle offset: the nanoseconds of hub time modulo the active bank's cycle length (R63). -/
def State.cycleOffset (s : State) : Nat := s.time.ns % s.cal.active.cycle

/-- Counting or stepping from one number of ns to a later one reaches a multiple of `c` (R63). -/
def reachesMultiple (c before after : Nat) : Bool := before / c < after / c

/-- The holdover timer, in whole local seconds: counted since its start while it runs, its last value when it is
stopped (R90). -/
def State.holdoverTimer (s : State) : Nat :=
  match s.trk.holdoverStart with
  | some start => (s.now - start) / Config.ticksPerSecond
  | none => s.trk.holdoverLast

/-! ### Conditions of STATE points -/

/-- A flow is enabled when it is LIVE or SUSPENDED (02, 2.2). -/
def Flow.enabled (f : Flow) : Bool := f.state == .live || f.state == .suspended

/-- FLOW_SUSPENDED: at least one enabled flow holds TIMING or FIT (R26). -/
def State.flowSuspended (s : State) : Bool :=
  s.fwd.flows.toList.any fun f => f.enabled && (f.suspension.timing || f.suspension.fit)

/-- The budget that grants are checked against (R137). -/
def State.budget (s : State) : Nat :=
  match s.slots.inForce with
  | .mains => s.slots.mainsBudget
  | .battery => s.slots.batteryBudget

/-- POWER_OVER_BUDGET: committed power is greater than the budget in force (R138). -/
def State.overBudget (s : State) : Bool := s.budget < s.slots.committed

/-- POWER_WAITING: the waiting list is not empty (R138). -/
def State.powerWaiting (s : State) : Bool := !s.slots.waitingList.isEmpty

/-- The members of a group in ascending slot order (R33, R42). -/
def State.groupMembers (s : State) (g : Fin 16) : List Slot :=
  allSlots.filter fun n => (s.fwd.groups.read g).read n

end Sys2Proof.Machine
end

