-- ==== Sys2Proof/Machine/Traffic.lean ====
section
/-! DEFINITION. The queue manager, the egress arbiter and the start of frames (chapters 1, 3 and 4). -/

namespace Sys2Proof.Machine

/-! ### Pause -/

/-- Pause asserted takes a value; a port whose link is UP sends the symbol of a change at once (R15). -/
def setPauseAsserted (p : Slot) (b : Bool) (s : State) : State :=
  if (s.port p).pauseAsserted = b then s
  else
    let t := s.updPort p fun q => { q with pauseAsserted := b }
    if (s.port p).link = .up then t.emit (.symbol p (if b then .pauseOn else .pauseOff)) else t

/-- The paused decision takes a value, and each change is passed to the port (R51). -/
def setPaused (n : Slot) (b : Bool) (s : State) : State :=
  if (s.sq n).paused = b then s
  else setPauseAsserted n b (s.updSq n fun q => { q with paused := b })

/-- The paused decision is examined against the held cells, the pause level quota − Y and the almost-empty level X
(R51). -/
def reexaminePause (n : Slot) (s : State) : State :=
  let c := s.queueConfig n
  let held := s.heldCells n
  if !(s.sq n).paused && c.quota - c.y ≤ held then setPaused n true s
  else if (s.sq n).paused && held ≤ c.x then setPaused n false s
  else s

/-! ### References and freeing -/

/-- A stored frame is changed. -/
def updFrame (id : Nat) (f : StoredFrame → StoredFrame) (s : State) : State :=
  { s with qm := { s.qm with frames := s.qm.frames.map fun g => if g.id = id then f g else g } }

/-- A frame is freed: its cells return to their account, and where they counted in a slot's held cells the slot's
pause is examined (R47, R51). -/
def freeFrame (f : StoredFrame) (s : State) : State :=
  let t := { s with qm := { s.qm with frames := s.qm.frames.filter fun g => g.id != f.id } }
  match f.body.ingress with
  | some n => if f.cls = .sample then t else reexaminePause n t
  | none => t

/-- A reference is returned; the frame is freed when none is left (R47). -/
def release (id : Nat) (s : State) : State :=
  match s.frame? id with
  | some f => if f.refs ≤ 1 then freeFrame f s else updFrame id (fun g => { g with refs := g.refs - 1 }) s
  | none => s

/-! ### Bytes of the hub's frames -/

/-- The kind and the class of a hub frame (12.1). -/
def HubKind.frameKind : HubKind → FrameKind
  | .mgmtResp => .mgmtResp
  | .probe => .probe
  | .timeMark => .timeMark
  | .mailAck => .mailAck

def HubKind.cls : HubKind → FrameClass
  | .mgmtResp | .mailAck => .control
  | .probe | .timeMark => .timing

/-- A frame made by the hub: header with source 0, flow 0 and spare 0, payload, padding to 64 and check (12.1, R186,
R187). -/
def hubBytes (kind : FrameKind) (cls : FrameClass) (dest : Slot) (seq : Byte) (stamp : Stamp)
    (payload : List Byte) : List Byte :=
  let header := [kind.code, cls.code] ++ slotByte dest ++ [0, 0, seq] ++ u16 payload.length ++ stamp.bytes ++ [0, 0]
  withCheck (header ++ payload ++ List.replicate (40 - payload.length) 0)

/-- The timestamp of a hub frame as its header leaves: the hub time at egress start plus the maker's compensation for
a PROBE or TIME_MARK, the time at which it was made for the others (R13, R76). -/
def egressStamp (h : HubFrame) (now : Stamp) : Stamp :=
  match h.kind with
  | .probe | .timeMark => now.plus h.compensation
  | .mgmtResp | .mailAck => h.made

/-- The bytes of a frame as it is sent; a card's frame goes unchanged (R13). -/
def egressBytes (b : FrameBody) (now : Stamp) : List Byte :=
  match b with
  | .card _ bytes => bytes
  | .hub h => hubBytes h.kind.frameKind h.kind.cls h.dest h.seq (egressStamp h now) h.payload

/-- The payload of a TEST frame: attempt, sequence and 38 pattern bytes (R6, 12.2). -/
def testPayload (attempt seq : Nat) : List Byte :=
  u8 attempt ++ u8 seq ++ (List.range 38).map fun i => BitVec.ofNat 8 (attempt * 16 + seq * 40 + (i + 2))

/-- The bytes of a TEST frame: destination the slot, source 0, timestamp 0 (R6, R13). -/
def testBytes (p : Slot) (attempt seq : Nat) : List Byte :=
  hubBytes .test .control p (BitVec.ofNat 8 seq) ⟨0, 0⟩ (testPayload attempt seq)

/-- A frame as it goes out on the lanes in use of a port (R187). -/
def frameOutput (p : Slot) (lanes : List Lane) (bytes : List Byte) : Output := .frame p (laneStreams lanes bytes)

/-! ### The egress arbiter -/

/-- The queue of a class. -/
def Queues.ofClass (q : Queues) : FrameClass → List Nat
  | .sample => q.sample
  | .timing => q.timing
  | .control => q.control
  | .bulk => q.bulk

def Queues.setClass (q : Queues) (c : FrameClass) (xs : List Nat) : Queues :=
  match c with
  | .sample => { q with sample := xs }
  | .timing => { q with timing := xs }
  | .control => { q with control := xs }
  | .bulk => { q with bulk := xs }

/-- The first of TIMING, CONTROL and BULK that is not empty, with its head (R74, R75). -/
def Queues.firstOutside (q : Queues) : Option (FrameClass × Nat) :=
  match q.timing, q.control, q.bulk with
  | id :: _, _, _ => some (.timing, id)
  | [], id :: _, _ => some (.control, id)
  | [], [], id :: _ => some (.bulk, id)
  | [], [], [] => none

/-- The window that a cycle offset lies inside (R63). -/
def windowAt (ws : List Window) (offset : Nat) : Option Window :=
  ws.find? fun w => w.start ≤ offset && offset < w.finish

/-- The time from a cycle offset to the start of the next window: of this cycle, or the first of the next (R74). -/
def timeToWindow (ws : List Window) (cycle offset : Nat) : Nat :=
  match ws.find? fun w => offset < w.start with
  | some w => w.start - offset
  | none => cycle - offset + (ws.head?.map Window.start).getD 0

/-- The arbiter's decision for a port, as its queues, hub time and the active bank stand: the class whose head
starts, or none (R72–R75). -/
def decision (s : State) (p : Slot) : Option FrameClass :=
  match s.portFree p, (s.port p).reportedWidth with
  | true, some w =>
    let q := (s.sq p).queues
    let ws := s.cal.active.windows.read p
    let offset := s.cycleOffset
    if ws.isEmpty then q.firstOutside.map Prod.fst
    else
      match windowAt ws offset with
      | some win =>
        match q.sample with
        | id :: _ => if wireTime (s.frameLength id) w ≤ win.finish - offset then some .sample else none
        | [] => none
      | none =>
        match q.firstOutside with
        | some (c, id) =>
          if wireTime (s.frameLength id) w ≤ timeToWindow ws s.cal.active.cycle offset then some c else none
        | none => none
  | _, _ => none

/-- The egress start of a PROBE is given back to the delay unit: it becomes t1 of the outstanding probe of that
sequence whose t1 is absent (R105). -/
def probeSent (n : Slot) (seq : Byte) (t : Stamp) (s : State) : State :=
  match (s.slotDelay n).outstanding with
  | some pr =>
    if pr.seq = seq.toNat ∧ pr.t1 = none then
      s.updDelay n fun d => { d with outstanding := some { pr with t1 := some t } }
    else s
  | none => s

/-- The delay unit hears of the egress start of a frame if it is a PROBE (R13). -/
def reportEgress (b : FrameBody) (s : State) : State :=
  match b with
  | .hub h => if h.kind = .probe then probeSent h.dest h.seq s.hubNow s else s
  | .card _ _ => s

/-- The head of a class queue leaves its queue and becomes the port's transmission (R48, R72); the frame occupies
the link for its wire time at the working width (R14). -/
def startFrame (p : Slot) (c : FrameClass) (s : State) : State :=
  match (s.sq p).queues.ofClass c with
  | id :: rest =>
    match s.frame? id with
    | some f =>
      let port := s.port p
      let wire := (port.workingWidth.map (wireTime f.body.length)).getD 0
      let t := s.updSq p fun q => { q with queues := q.queues.setClass c rest }
      let u := t.updPort p fun q => { q with transmission := some (.frame id (s.nowNs + wire)) }
      reportEgress f.body (u.emit (frameOutput p port.lanesInUse (egressBytes f.body s.hubNow)))
    | none => s
  | [] => s

/-- A decision is taken for a port, which starts a frame or leaves it idle (R72). -/
def arbitrate (p : Slot) (s : State) : State :=
  match decision s p with
  | some c => startFrame p c s
  | none => s

/-! ### Flushes -/

/-- A copy is thrown away: an egress discard of the port (R60), and its reference is returned (R47). -/
def discardCopy (p : Slot) (id : Nat) (s : State) : State :=
  release id (s.updSq p fun q => { q with egress := { q.egress with discards := count32 q.egress.discards } })

/-- All four queues of a port are flushed, in the order SAMPLE, TIMING, CONTROL, BULK (R57; LOG 52). -/
def flushAll (p : Slot) (s : State) : State :=
  let q := (s.sq p).queues
  forEach (q.sample ++ q.timing ++ q.control ++ q.bulk) (discardCopy p)
    (s.updSq p fun r => { r with queues := .empty })

/-- The SAMPLE queue of a port is flushed (R57). -/
def flushSample (p : Slot) (s : State) : State :=
  forEach (s.sq p).queues.sample (discardCopy p)
    (s.updSq p fun r => { r with queues := { r.queues with sample := [] } })

/-! ### Admission -/

/-- The queue manager's answer for one copy (R34, R49). -/
inductive Verdict where
  | admitted
  | refused
  | discarded
deriving DecidableEq, Repr

/-- The admission tests of a card's copy at a port, in their order (R49). -/
def cardVerdict (s : State) (p : Slot) (c : FrameClass) (cells : Nat) : Verdict :=
  if !s.isUp p then .discarded
  else if (s.sq p).hold = .stalled then .discarded
  else if c = .sample ∧ (s.queueConfig p).sampleLimit < s.sampleOccupancy p + cells then .refused
  else .admitted

/-- A copy is discarded at admission: an egress discard, and a stall discard where the port's slot is up and the port
is stalled (R49, R60). -/
def countDiscard (p : Slot) (s : State) : State :=
  let stalled := s.isUp p && (s.sq p).hold == .stalled
  s.updSq p fun q =>
    { q with egress := { q.egress with
        discards := count32 q.egress.discards
        stallDiscards := if stalled then count32 q.egress.stallDiscards else q.egress.stallDiscards } }

/-- Exhaustion seen is marked for the current local second (R61). -/
def markExhaustion (s : State) : State := { s with qm := { s.qm with exhaustion := true } }

/-- A SAMPLE copy is refused for want of buffer (R49, R60, R61). -/
def countRefusal (p : Slot) (s : State) : State :=
  markExhaustion (s.updSq p fun q =>
    { q with egress := { q.egress with sampleRefusals := count32 q.egress.sampleRefusals } })

/-- A frame is stored with its reference count, and its reference enters the queue of its class at each port of a
list, at the tail (R47, R48). -/
def storeFrame (body : FrameBody) (c : FrameClass) (cells : Nat) (ports : List Slot) (s : State) : State :=
  let id := s.qm.nextFrame
  let t := { s with qm := { s.qm with
    frames := s.qm.frames ++ [⟨id, body, c, cells, ports.length⟩]
    nextFrame := id + 1 } }
  forEach ports (fun p u => u.updSq p fun q =>
    { q with queues := q.queues.setClass c (q.queues.ofClass c ++ [id]) }) t

/-- The cells of a hub frame. -/
def HubFrame.cells (h : HubFrame) : Nat := cellsOf (FrameBody.hub h).length

/-- A hub frame enters the queue of its class at its destination port, and the port's arbiter takes a decision
(R48, R72). -/
def admitHub (h : HubFrame) (s : State) : State :=
  arbitrate h.dest (storeFrame (.hub h) h.kind.cls h.cells [h.dest] s)

/-- A hub frame with its reserve cells is offered to its port: discarded at a slot not up or a stalled port, its
cells given back at once, and admitted otherwise (R49). -/
def hubAdmissible (s : State) (p : Slot) : Bool := s.isUp p && (s.sq p).hold != .stalled

def offerHub (h : HubFrame) (s : State) : State :=
  if hubAdmissible s h.dest then admitHub h s else countDiscard h.dest s

/-- A PROBE or TIME_MARK can be made: its slot is up, its port is not stalled, its TIMING queue does not hold 8
frames, and the reserve has free cells for it (R46, R49; LOG 9). -/
def timingAdmissible (s : State) (h : HubFrame) : Bool :=
  hubAdmissible s h.dest && (s.sq h.dest).queues.timing.length < Config.maxTiming && h.cells ≤ s.reserveFree

/-! ### The reserve waiting list -/

/-- A maker joins the tail of the list, unless it has an entry (R46). -/
def joinWaiting (m : Maker) (s : State) : State :=
  if s.qm.waiting.contains m then s else { s with qm := { s.qm with waiting := s.qm.waiting ++ [m] } }

/-- A maker withdraws its entry (R46). -/
def withdrawMaker (m : Maker) (s : State) : State :=
  { s with qm := { s.qm with waiting := s.qm.waiting.filter (· != m) } }

/-- A request for a TEST frame, a MGMT_RESP or a MAIL_ACK from a maker without an entry is granted: the list is empty
and the reserve has free cells for the whole frame (R46). -/
def reserveGrants (s : State) (cells : Nat) : Bool := s.qm.waiting.isEmpty && cells ≤ s.reserveFree

/-! ### TEST frames -/

/-- The port in TESTING sends the next TEST frame built, if it is not sending (R6). -/
def startTest (p : Slot) (s : State) : State :=
  let q := s.port p
  match q.testUnsent with
  | seq :: rest =>
    if q.link = .testing ∧ q.transmission = none then
      let wire := (q.workingWidth.map (wireTime 64)).getD 0
      let t := s.updPort p fun r =>
        { r with testUnsent := rest, transmission := some (.test seq (s.nowNs + wire)) }
      t.emit (frameOutput p q.lanesInUse (testBytes p q.attempt seq))
    else s
  | [] => s

/-- The next TEST frame is built from a reserve cell (R6). -/
def buildTest (p : Slot) (s : State) : State :=
  s.updPort p fun q => { q with testUnsent := q.testUnsent ++ [q.testNext], testNext := q.testNext + 1 }

/-- TEST frames are built while the reserve grants their cells; where it does not, the port's entry joins the reserve
waiting list and the rest wait behind it (R6, R46). At most `n` are built. -/
def buildTests : Nat → Slot → State → State
  | 0, _, s => s
  | n + 1, p, s =>
    if (s.port p).testNext < 16 then
      if reserveGrants s 1 then buildTests n p (buildTest p s) else joinWaiting (.test p) s
    else s

end Sys2Proof.Machine
end

