-- ==== Sys2Proof/Machine/Responses.lean ====
section
/-! DEFINITION. The management agent: responses, in-flight records, and the taking of a request (chapter 11). -/

namespace Sys2Proof.Machine

/-- A number of events on a 32-bit counter, which stops at 2^32 − 1. -/
def addCount32 (n k : Nat) : Nat := min (n + k) (2 ^ 32 - 1)

/-! ### Responses -/

/-- The MGMT_RESP frame of a response (R181, 12.3). -/
def Response.frame (r : Response) : HubFrame := ⟨.mgmtResp, r.dest, r.seq, r.payload, r.made, 0⟩

/-- A response that has its reserve cells is offered to its port; admitted, it counts as made (R181, R185). -/
def sendResponse (r : Response) (s : State) : State :=
  if hubAdmissible s r.dest then
    admitHub r.frame (s.updAgent fun a => { a with counters := { a.counters with made := count32 a.counters.made } })
  else countDiscard r.dest s

/-- The refusals that stand in the response list. -/
def State.refusals (s : State) : Nat := (s.agent.responses.filter (·.kind == .refusal)).length

/-- A response is made: sent at once where the reserve grants its cells, and put at the tail of the response list
otherwise, where the agent's entry stands for the head. A refusal that would be the ninth in the list is not made
(R181). In-flight completions are put there without a limit of the model's (LOG 57). -/
def makeResponse (kind : ResponseKind) (dest : Slot) (seq : Byte) (payload : List Byte) (s : State) : State :=
  let r : Response := ⟨kind, dest, seq, payload, s.hubNow⟩
  if s.agent.responses.isEmpty && reserveGrants s r.frame.cells then sendResponse r s
  else if kind = .refusal ∧ Config.maxRefusals ≤ s.refusals then
    s.updAgent fun a => { a with counters := { a.counters with unsent := count32 a.counters.unsent } }
  else joinWaiting .agent (s.updAgent fun a => { a with responses := a.responses ++ [r] })

/-- The reserve grants the agent's entry: the head of the response list is sent and the next head entered (R181). -/
def grantAgent (s : State) : State :=
  let t := withdrawMaker .agent s
  match t.agent.responses with
  | r :: rest =>
    let u := sendResponse r (t.updAgent fun a => { a with responses := rest })
    if rest.isEmpty then u else joinWaiting .agent u
  | [] => t

/-- Every response in the list for a slot is removed and counted as withdrawn. Where the head was among them the
agent withdraws its entry and enters the new head, if any (R181). -/
def withdrawResponses (n : Slot) (s : State) : State :=
  let gone := s.agent.responses.filter (·.dest == n)
  let kept := s.agent.responses.filter (·.dest != n)
  let t := s.updAgent fun a =>
    { a with responses := kept, counters := { a.counters with withdrawn := addCount32 a.counters.withdrawn gone.length } }
  if (s.agent.responses.head?).any (·.dest == n) then
    let u := withdrawMaker .agent t
    if kept.isEmpty then u else joinWaiting .agent u
  else t

/-- The payload of an answer: request code, tag, status and results (12.3). -/
def answerPayload (code : Byte) (tag : BitVec 16) (status : Status) (results : List Byte) : List Byte :=
  code :: (bytes16 tag ++ status.code :: results)

/-- A request is answered with a status and results. Its payload gives the code and the tag; of a payload of no
bytes the code is a free value (LOG 31). -/
def answer (kind : ResponseKind) (r : Request) (status : Status) (results : List Byte) (s : State) : State :=
  let tag := requestTag r.payload
  match requestCode r.payload with
  | some code => makeResponse kind r.requester r.seq (answerPayload code tag status results) s
  | none => makeResponse kind r.requester r.seq (answerPayload s.freeByte tag status results) s.drawn

/-! ### In-flight records -/

/-- The request becomes an in-flight record; its owner holds the record's reference (R180). -/
def addInFlight (kind : InFlightKind) (r : Request) (s : State) : State :=
  s.updAgent fun a =>
    { a with
      inflight := a.inflight ++ [⟨a.nextRecord, kind, r.requester, r.seq, requestTag r.payload⟩]
      nextRecord := a.nextRecord + 1 }

/-- An owner's event has come: the agent drops the record and makes its response. Where the record was dropped
before, there is no response (R180). -/
def complete (record : Nat) (status : Status) (results : List Byte) (s : State) : State :=
  match s.agent.inflight.find? (·.record == record) with
  | some f =>
    makeResponse .completion f.requester f.seq (answerPayload f.kind.code f.tag status results)
      (s.updAgent fun a => { a with inflight := a.inflight.filter (·.record != record) })
  | none => s

/-- A controller has left ACTIVE: its queued requests and its in-flight records go, without answer (R182). -/
def dropController (n : Slot) (s : State) : State :=
  s.updAgent fun a =>
    { a with queue := a.queue.filter (·.requester != n), inflight := a.inflight.filter (·.requester != n) }

/-! ### Accepting and taking requests -/

/-- A dispatched MGMT frame is judged: refused NOT_PERMITTED unless it comes from an ACTIVE controller, refused
QUEUE_FULL where 8 requests are queued, and queued otherwise (R178). -/
def acceptRequest (r : Request) (s : State) : State :=
  let refuse (status : Status) : State :=
    answer .refusal r status []
      (s.updAgent fun a => { a with counters := { a.counters with refused := count32 a.counters.refused } })
  if !(s.holdsController r.requester && s.isActive r.requester) then refuse .notPermitted
  else if Config.maxRequests ≤ s.agent.queue.length then refuse .queueFull
  else
    s.updAgent fun a =>
      { a with queue := a.queue ++ [r], counters := { a.counters with accepted := count32 a.counters.accepted } }

/-- The agent may take a request: no response of a taken request stands in the response list (R179). -/
def State.mayTake (s : State) : Bool := s.agent.responses.all (·.kind != .taken)

/-- What a request does: the state after its effect, and its answer, absent where the answer waits (R180). -/
abbrev Effect := State × Option (Status × List Byte)

/-- An effect that leaves the state as it is and answers a status without results. -/
def refusedWith (status : Status) (s : State) : Effect := (s, some (status, []))

/-- The agent takes a request, the command naming the one at the head of the queue: it leaves the queue, its effect
comes about, and then its response is made (R179). A command that names a request the agent does not then take has
no effect (LOG 1, 22). -/
def takeRequest (i : Instr) (effect : Request → State → Effect) (s : State) : State :=
  match s.agent.queue with
  | r :: rest =>
    if s.mayTake && carries r.payload i then
      let done := effect r (s.updAgent fun a => { a with queue := rest })
      match done.2 with
      | some (status, results) => answer .taken r status results done.1
      | none => done.1
    else s
  | [] => s

end Sys2Proof.Machine
end

