-- ==== Sys2Proof/Machine/Alarms.lean ====
section
/-! DEFINITION. The alarm unit's operations: points, the active list and the relays, notices and waits,
acknowledgements of mail (chapter 10). -/

namespace Sys2Proof.Machine

/-! ### How a point moves -/

/-- Entry to ACTIVE from CLEAR, RAISING or HELD: the count becomes 0 and the raise count rises (R165, R166). -/
def Point.enterActive (p : Point) : Point :=
  { p with state := .active, count := 0, raiseCount := count16 p.raiseCount }

/-- Entry to CLEAR: acknowledged becomes no (R167). -/
def Point.enterClear (p : Point) : Point := { p with state := .clear, count := 0, acked := false }

/-- The point ends: HELD if it is latched and not acknowledged, CLEAR otherwise (R165). -/
def Point.finish (p : Point) : Point :=
  if p.latched && !p.acked then { p with state := .held, count := 0 } else p.enterClear

/-- A sample is taken against the point's state (R165). -/
def Point.sample (p : Point) (b : Bool) : Point :=
  let raise := p.raisePers.getD 1
  let clear := p.clearPers.getD 1
  match p.state, b with
  | .clear, true => if raise ≤ 1 then p.enterActive else { p with state := .raising, count := 1 }
  | .clear, false => p
  | .raising, true => if raise ≤ p.count + 1 then p.enterActive else { p with count := p.count + 1 }
  | .raising, false => p.enterClear
  | .active, true => p
  | .active, false => if clear ≤ 1 then p.finish else { p with state := .clearing, count := 1 }
  | .clearing, true => { p with state := .active, count := 0 }
  | .clearing, false => if clear ≤ p.count + 1 then p.finish else { p with count := p.count + 1 }
  | .held, true => if raise ≤ p.count + 1 then p.enterActive else { p with count := p.count + 1 }
  | .held, false => { p with count := 0 }

/-- A change of a STATE point's condition is taken; a report that repeats the present condition changes nothing
(R166). -/
def Point.report (p : Point) (b : Bool) : Point :=
  if p.condition = b then p
  else
    let q := { p with condition := b }
    match b, p.state with
    | true, .clear | true, .held | true, .raising => q.enterActive
    | true, .active | true, .clearing => q
    | false, .active | false, .clearing => q.finish
    | false, .clear | false, .held | false, .raising => q

/-- An EVENT point takes an occurrence: from CLEAR it is ACTIVE and at once HELD; in HELD the raise count alone
changes (R166). -/
def Point.occur (p : Point) : Point :=
  let q := { p with raiseCount := count16 p.raiseCount }
  match p.state with
  | .clear => { q with state := .held, count := 0 }
  | .raising | .active | .clearing | .held => q

/-- An acknowledgement is taken against the point's state (R167). -/
def Point.acknowledge (p : Point) : Point :=
  match p.state with
  | .held => if 0 < p.count then { p with state := .raising, acked := false } else p.enterClear
  | .active | .clearing => { p with acked := true }
  | .clear | .raising => p

/-! ### The active list and the relays -/

/-- The list holds an enabled point of one of some severities. -/
def AlarmUnit.listHolds (a : AlarmUnit) (sev : Severity → Bool) : Bool :=
  a.active.any fun id => (a.points.read id).enabled && sev (a.points.read id).severity

/-- The relays are set from the list: the major relay is in its alarm position exactly when the list holds an enabled
CRITICAL or MAJOR point, the minor relay exactly when it holds an enabled MINOR one. Without the part's supply both
are in the alarm position (R169; LOG 16). -/
def setRelays (s : State) : State :=
  s.updAlarm fun a =>
    { a with
      majorAlarm := !a.supplied || a.listHolds fun v => v == .critical || v == .major
      minorAlarm := !a.supplied || a.listHolds fun v => v == .minor }

/-- The active list after a point's move: a point that enters it joins at the tail, one that leaves it is removed, any
other keeps its place (R169). -/
def listAfter (active : List PointId) (id : PointId) (old new : PointState) : List PointId :=
  if old.inList = new.inList then active
  else if new.inList then active ++ [id]
  else active.filter (· != id)

/-- A point's move gives an ALARM notice: it enters the list, leaves it, goes to HELD, or as a SAMPLED point returns
from HELD to ACTIVE, and the point is enabled (R172). -/
def moveNotice (id : PointId) (old : PointState) (new : Point) : List NoticeBody :=
  if new.enabled && old != new.state &&
      (old.inList != new.state.inList || new.state == .held ||
        (pointKind id == .sampled && old == .held && new.state == .active)) then
    [.alarm id new.state new.severity]
  else []

/-- A point takes a new record: a change of its state sets the last change time (R166), and the list and the relays
follow (R169). -/
def movePoint (id : PointId) (new : Point) (s : State) : State :=
  let old := (s.point id).state
  let stamped := if old = new.state then new else { new with lastChange := s.time.sec }
  setRelays (s.updAlarm fun a =>
    { a with points := a.points.write id stamped, active := listAfter a.active id old new.state })

/-! ### Notices and waits -/

/-- A notice's ten bytes (12.4). -/
def Notice.bytes (n : Notice) : List Byte :=
  let head : List Byte :=
    match n.body with
    | .alarm id value severity => [1] ++ u8 id.val ++ [value.code, severity.code]
    | .slot m state reason => [2] ++ slotByte m ++ [state.code, (reason.map FaultReason.code).getD 0]
    | .timing state selected => [3, 0, state.code, selectedCode selected]
    | .mail m length => [4] ++ slotByte m ++ u8 length ++ [0]
  head ++ beBytes 6 n.seconds

/-- The results of a wait's completion: count, overflow mark and notices (12.4). -/
def waitResults (overflow : Bool) (ns : List Notice) : List Byte := u8 ns.length ++ flag overflow ++ ns.flatMap Notice.bytes

/-- A notice joins the pending notices, or is discarded where 32 stand there, which sets the overflow mark (R173). -/
def pendNotice (n : Notice) (s : State) : State :=
  s.updAlarm fun a =>
    if a.notices.length < Config.maxNotices then { a with notices := a.notices ++ [n] }
    else { a with overflow := true, counters := { a.counters with discarded := count32 a.counters.discarded } }

/-- A wait is completed with some notices: it leaves the list of waits, carries the overflow mark, which is then
cleared, and the agent answers it (R173). -/
def completeWait (w : Wait) (ns : List Notice) (s : State) : State :=
  let results := waitResults s.alarm.overflow ns
  complete w.record .ok results
    (s.updAlarm fun a => { a with waits := a.waits.filter (·.record != w.record), overflow := false })

/-- The notices of one event are delivered: up to 8 complete the oldest wait, the next 8 the next oldest, and those
left when no wait remains join the pending notices (R173). -/
def deliver : List Wait → List Notice → State → State
  | [], ns, s => forEach ns pendNotice s
  | w :: ws, ns, s =>
    if ns.isEmpty then s
    else deliver ws (ns.drop Config.maxNoticesPerWait) (completeWait w (ns.take Config.maxNoticesPerWait) s)

/-- One event produces notices, which are counted and delivered together (R172, R173, R177). -/
def produce (bodies : List NoticeBody) (s : State) : State :=
  let ns := bodies.map fun b => (⟨b, s.time.sec⟩ : Notice)
  let t := s.updAlarm fun a =>
    { a with counters := { a.counters with produced := addCount32 a.counters.produced ns.length } }
  deliver t.alarm.waits ns t

/-- A point takes a new record as an event of its own, with its notice. -/
def changePoint (id : PointId) (new : Point) (s : State) : State :=
  produce (moveNotice id (s.point id).state new) (movePoint id new s)

/-- A sample, a condition or an occurrence reaches a point (R165, R166). -/
def samplePoint (id : PointId) (b : Bool) (s : State) : State := changePoint id ((s.point id).sample b) s
def reportCondition (id : PointId) (b : Bool) (s : State) : State := changePoint id ((s.point id).report b) s
def occurPoint (id : PointId) (s : State) : State := changePoint id (s.point id).occur s

/-- A timing state change is one event: the TIMING notice, then the ALARM notices of TIMING_HOLDOVER and
TIMING_FREERUN, in the order of their ids (R91, R172; LOG 50). -/
def alarmTiming (state : TimingState) (selected : Option Source) (s : State) : State :=
  let p := (s.point holdoverPoint).report (state == .holdover)
  let q := (s.point freerunPoint).report (state == .freerun)
  produce ([.timing state selected] ++ moveNotice holdoverPoint (s.point holdoverPoint).state p ++
      moveNotice freerunPoint (s.point freerunPoint).state q)
    (movePoint freerunPoint q (movePoint holdoverPoint p s))

/-! ### Mail -/

/-- The MAIL_ACK frame: its result and the sequence of the MAIL it answers (12.2). -/
def MailAck.frame (a : MailAck) : HubFrame := ⟨.mailAck, a.dest, a.seq, [a.result.code, a.answers], a.made, 0⟩

/-- A MAIL_ACK is made and counted; it is sent where the reserve grants its cells, and joins the acknowledgement queue
otherwise (R175). The header sequence is a free value (LOG 10). -/
def makeAck (dest : Slot) (result : MailResult) (answers : Byte) (s : State) : State :=
  let ack : MailAck := ⟨dest, result, answers, s.freeByte, s.hubNow⟩
  let t := s.drawn.updAlarm fun a =>
    { a with counters :=
      if result = .accepted then { a.counters with accepted := count32 a.counters.accepted }
      else { a.counters with refused := count32 a.counters.refused } }
  if t.alarm.acks.isEmpty && reserveGrants t ack.frame.cells then offerHub ack.frame t
  else joinWaiting .alarm (t.updAlarm fun a => { a with acks := a.acks ++ [ack] })

/-- The reserve grants the alarm unit's entry: the head of the acknowledgement queue is sent and the next head
entered (R46, R175). -/
def grantAlarm (s : State) : State :=
  let t := withdrawMaker .alarm s
  match t.alarm.acks with
  | a :: rest =>
    let u := offerHub a.frame (t.updAlarm fun b => { b with acks := rest })
    if rest.isEmpty then u else joinWaiting .alarm u
  | [] => t

/-- The acknowledgements that wait for a slot are withdrawn and not sent (R175). -/
def withdrawAcks (n : Slot) (s : State) : State :=
  let kept := s.alarm.acks.filter (·.dest != n)
  let t := s.updAlarm fun a => { a with acks := kept }
  if (s.alarm.acks.head?).any (·.dest == n) then
    let u := withdrawMaker .alarm t
    if kept.isEmpty then u else joinWaiting .alarm u
  else t

/-- A mail is judged, the first case that applies deciding (R175). The MAIL notice of an accepted one is delivered
before its MAIL_ACK is made (LOG 53). -/
def takeMail (n : Slot) (seq : Byte) (payload : List Byte) (s : State) : State :=
  let state := (s.slot n).state
  if s.alarm.acks.any (·.dest == n) then
    s.updAlarm fun a => { a with counters := { a.counters with unanswered := count32 a.counters.unanswered } }
  else if !(state == .standby || state == .active) then makeAck n .closed seq s
  else if payload.length < 4 || 32 < payload.length then makeAck n .badSize seq s
  else if (s.alarm.mailbox.read n).isSome then makeAck n .full seq s
  else
    let t := s.updAlarm fun a => { a with mailbox := a.mailbox.write n (some ⟨payload, s.time.sec⟩) }
    makeAck n .accepted seq (produce [.mail n payload.length] t)

end Sys2Proof.Machine
end

