-- ==== Sys2Proof/Machine/ForwardingUnit.lean ====
section
/-! DEFINITION. The flow table as the other blocks move it: the evaluation of FIT (chapter 4) and the suspension sets
(chapter 2). -/

namespace Sys2Proof.Machine

/-! ### FIT -/

/-- A frame length fits a port in a bank: the port's window list is not empty, its reported width is present, and the
frame's wire time at it is no greater than the length of every window (R77). -/
def fitsPort (s : State) (b : Bank) (length : Nat) (p : Slot) : Bool :=
  let ws := b.windows.read p
  match (s.port p).reportedWidth with
  | some w => !ws.isEmpty && ws.all fun win => wireTime length w ≤ win.length
  | none => false

/-- A flow's destination ports: its destination slot if ACTIVE, or the ACTIVE members of its group but for its source
(R77). -/
def State.destPorts (s : State) (r : FlowRecord) : List Slot :=
  match r.dest with
  | .slot n => if s.isActive n then [n] else []
  | .group g => (s.groupMembers g).filter fun n => s.isActive n && n != r.source

/-- The first destination port, in ascending order, that a flow does not fit in a bank (R67). -/
def misfit (s : State) (b : Bank) (r : FlowRecord) : Option Slot :=
  (s.destPorts r).find? fun p => !fitsPort s b r.maxFrame p

/-- A flow fits a bank when it fits each of its destination ports in it (R77). -/
def fits (s : State) (b : Bank) (r : FlowRecord) : Bool := (misfit s b r).isNone

/-! ### Suspension sets -/

/-- The suspension set is empty. -/
def Suspension.isEmpty (x : Suspension) : Bool := !x.sourceDown && !x.destDown && !x.timing && !x.fit

/-- An enabled flow is LIVE exactly when its suspension set is empty, and SUSPENDED otherwise; another flow keeps its
state (R22). -/
def Flow.settle (f : Flow) : Flow :=
  if f.enabled then { f with state := if f.suspension.isEmpty then .live else .suspended } else f

/-- A written flow's suspension set is changed, and its state follows (R22). -/
def Flow.resuspend (f : Flow) (g : FlowRecord → Suspension → Suspension) : Flow :=
  match f.fields with
  | some r => Flow.settle { f with suspension := g r f.suspension }
  | none => f

/-- FLOW_SUSPENDED is examined again and a change of it reported (R26). -/
def reexamineFlows (s : State) : State := reportCondition flowSuspendedPoint s.flowSuspended s

/-- A change of the suspension sets of the written flows, after which FLOW_SUSPENDED is examined again (R26). -/
def resuspendFlows (g : FlowRecord → Suspension → Suspension) (s : State) : State :=
  reexamineFlows { s with fwd := { s.fwd with flows := s.fwd.flows.mapAll fun f => f.resuspend g } }

/-- A slot entered or left ACTIVE: SOURCE_DOWN and DEST_DOWN follow (R23). -/
def flowsSlotChange (n : Slot) (active : Bool) (s : State) : State :=
  resuspendFlows (fun r x =>
    { x with
      sourceDown := if r.source = n then !active else x.sourceDown
      destDown := if r.dest = .slot n then !active else x.destDown }) s

/-- The timing state changed: TIMING is added at the entry to FREERUN and removed on leaving it (R24). -/
def flowsTimingChange (old new : TimingState) (s : State) : State :=
  if new = .freerun ∨ old = .freerun then
    resuspendFlows (fun r x => { x with timing := if r.needsLock then new == .freerun else x.timing }) s
  else s

/-- FIT is evaluated for every written SAMPLE flow against the active bank, and reported (R25, R78). -/
def evaluateFit (s : State) : State :=
  resuspendFlows (fun r x => { x with fit := if r.cls = .sample then !fits s s.cal.active r else x.fit }) s

/-- The suspension set of a newly written flow, from the hub's present state (R36). -/
def freshSuspension (s : State) (r : FlowRecord) : Suspension where
  sourceDown := !s.isActive r.source
  destDown := match r.dest with
    | .slot n => !s.isActive n
    | .group _ => false
  timing := r.needsLock && s.trk.timing == .freerun
  fit := r.cls == .sample && !fits s s.cal.active r

/-! ### Results -/

/-- A suspension set as a set of reasons in the order of the table of 2.2: count and codes (R188). -/
def Suspension.bytes (x : Suspension) : List Byte :=
  counted (fun c : Nat => u8 c)
    ((if x.sourceDown then [0] else []) ++ (if x.destDown then [1] else []) ++ (if x.timing then [2] else []) ++
      (if x.fit then [3] else []))

/-- A destination as its kind, 0x00 slot or 0x01 group, and its number (R188). -/
def FlowDest.bytes : FlowDest → List Byte
  | .slot n => [0] ++ slotByte n
  | .group g => [1] ++ u8 (g.val + 1)

/-- A flow number. -/
def flowByte (f : Fin 255) : List Byte := u8 (f.val + 1)

/-- The fields of a written record, with the argument's sizes and codings (R188). -/
def FlowRecord.bytes (r : FlowRecord) : List Byte :=
  slotByte r.source ++ r.dest.bytes ++ [r.cls.code] ++ u16 r.maxFrame ++ flag r.needsLock

end Sys2Proof.Machine
end

