-- ==== Sys2Proof/Machine/DelayOps.lean ====
section
/-! DEFINITION. The delay unit's operations: probes, samples, the delay window and record, time marks (chapter 6). -/

namespace Sys2Proof.Machine

/-- A change of a slot's counters in the delay unit (R118). -/
def countDelay (n : Slot) (f : DelayCounters → DelayCounters) (s : State) : State :=
  s.updDelay n fun d => { d with counters := f d.counters }

/-! ### The delay record -/

/-- The delay record of a base delay and an asymmetry, negative delays taken as 0 (R112). -/
def recordOf (base : Option Nat) (asymmetry : Int) : Option DelayRecord :=
  base.map fun b => ⟨((b : Int) + asymmetry).toNat, ((b : Int) - asymmetry).toNat⟩

/-- The slot's delay record is formed again (R112). -/
def SlotDelay.reform (d : SlotDelay) : SlotDelay := { d with delays := recordOf d.base d.asymmetry }

/-! ### Marks -/

/-- A reference names a TIME_MARK. -/
def State.isMark (s : State) (id : Nat) : Bool :=
  match (s.frame? id).map StoredFrame.body with
  | some (.hub h) => h.kind == .timeMark
  | some (.card _ _) | none => false

/-- One waiting TIME_MARK of a slot is withdrawn: its reference is returned, and it counts as withdrawn, not as an
egress discard (R115). -/
def withdrawMark (n : Slot) (id : Nat) (s : State) : State :=
  release id (countDelay n (fun c => { c with marksWithdrawn := count32 c.marksWithdrawn }) s)

/-- The TIME_MARK frames that wait in a slot's TIMING queue are withdrawn; the PROBE frames keep their places. The
port's arbiter takes the change as it takes a flush (R115). -/
def withdrawMarks (n : Slot) (s : State) : State :=
  let queue := (s.sq n).queues.timing
  let t := s.updSq n fun q => { q with queues := { q.queues with timing := queue.filter fun id => !s.isMark id } }
  arbitrate n (forEach (queue.filter s.isMark) (withdrawMark n) t)

/-! ### Departure, abandonment and misses -/

/-- A slot's outstanding probe is abandoned without a miss (R103, R107). -/
def abandonProbe (n : Slot) (s : State) : State :=
  if (s.slotDelay n).outstanding.isSome then
    s.updDelay n fun d =>
      { d with outstanding := none, counters := { d.counters with abandoned := count32 d.counters.abandoned } }
  else s

/-- Every slot's outstanding probe is abandoned, at a phase step or a HUB_RESET (R107). -/
def abandonProbes (s : State) : State := forSlots abandonProbe s

/-- A slot entered ACTIVE: client becomes yes where its card has the timing client flag (R103). -/
def delayArrival (n : Slot) (s : State) : State :=
  if (s.slot n).identity.any Identity.timingClient then s.updDelay n fun d => { d with client := true } else s

/-- A client left ACTIVE (R103). -/
def delayDeparture (n : Slot) (s : State) : State :=
  if (s.slotDelay n).client then
    withdrawMarks n ((abandonProbe n s).updDelay n fun d =>
      { d with client := false, window := [], base := none, missRun := 0, highRun := 0, delays := none })
  else s

/-- A miss is counted for a slot; at the third in a row the window is lost (R111). -/
def countMiss (n : Slot) (s : State) : State :=
  let t := countDelay n (fun c => { c with misses := count32 c.misses }) s
  if (s.slotDelay n).missRun < 3 then
    let u := t.updDelay n fun d => { d with missRun := d.missRun + 1 }
    if (u.slotDelay n).missRun = 3 then
      withdrawMarks n (u.updDelay n fun d =>
        { d with
          window := [], base := none, highRun := 0, delays := none
          counters := { d.counters with losses := count32 d.counters.losses } })
    else u
  else t

/-! ### Samples -/

/-- The smallest of some samples. -/
def minimumOf : List Nat → Nat
  | [] => 0
  | x :: xs => xs.foldl min x

/-- The base delay of a window: its minimum while it holds 4 or more samples (R109). -/
def baseOf (window : List Nat) : Option Nat := if 4 ≤ window.length then some (minimumOf window) else none

/-- An accepted base sample joins a slot's window (R109, R110). -/
def SlotDelay.join (d : SlotDelay) (stepLimit b : Nat) : SlotDelay :=
  let high :=
    match d.base with
    | some base => if base + stepLimit < b then d.highRun + 1 else 0
    | none => d.highRun
  let longer := d.window ++ [b]
  let joined := if 9 ≤ longer.length then longer.drop 1 else longer
  let stepped := 4 ≤ high
  let window := if stepped then joined.drop (joined.length - 4) else joined
  SlotDelay.reform
    { d with
      window := window
      highRun := if stepped then 0 else high
      base := baseOf window
      missRun := 0
      counters := if stepped then { d.counters with resets := count32 d.counters.resets } else d.counters }

/-- A round trip is judged: from 0 to Rmax it gives an accepted base sample, and otherwise it is rejected and counts
as a miss (R108). -/
def takeRoundTrip (n : Slot) (r : Int) (s : State) : State :=
  if 0 ≤ r ∧ r ≤ (s.delay.config.rmax : Int) then
    let b := ((r + 1) / 2).toNat
    (countDelay n (fun c => { c with accepted := count32 c.accepted }) s).updDelay n fun d =>
      d.join s.delay.config.stepLimit b
  else countMiss n (countDelay n (fun c => { c with rejected := count32 c.rejected }) s)

/-- A PROBE_REPLY is taken: it matches the slot's outstanding probe, or it is stale (R106, R108). -/
def takeReply (n : Slot) (seq : Byte) (payload : List Byte) (length : Nat) (t4 : Stamp) (s : State) : State :=
  let d := s.slotDelay n
  let stale := countDelay n (fun c => { c with stale := count32 c.stale }) s
  match d.outstanding with
  | some ⟨pseq, some t1⟩ =>
    if length = 20 ∧ d.client = true ∧ seq.toNat = pseq then
      let t2 : Stamp := ⟨payloadField payload 0 6, payloadField payload 6 4⟩
      let t3 : Stamp := ⟨payloadField payload 10 6, payloadField payload 16 4⟩
      takeRoundTrip n (t4.minus t1 - t3.minus t2) (s.updDelay n fun e => { e with outstanding := none })
    else stale
  | some ⟨_, none⟩ | none => stale

/-! ### The two clocks -/

/-- The PROBE of a slot with a sequence (R104). -/
def probeFrame (n : Slot) (seq : Nat) (now : Stamp) : HubFrame := ⟨.probe, n, BitVec.ofNat 8 seq, [], now, 0⟩

/-- A probe tick takes a client: abandon, sequence, request, outcome (R104). -/
def probeClient (n : Slot) (s : State) : State :=
  if (s.slotDelay n).client then
    let t := if (s.slotDelay n).outstanding.isSome then
        countMiss n (s.updDelay n fun d => { d with outstanding := none })
      else s
    let seq := (t.slotDelay n).nextSeq
    let u := t.updDelay n fun d => { d with nextSeq := (d.nextSeq + 1) % 256 }
    let h := probeFrame n seq u.hubNow
    if timingAdmissible u h then
      admitHub h (u.updDelay n fun d =>
        { d with
          outstanding := some ⟨seq, none⟩
          counters := { d.counters with probesMade := count32 d.counters.probesMade } })
    else countMiss n (countDelay n (fun c => { c with probesSkipped := count32 c.probesSkipped }) u)
  else s

/-- The TIME_MARK of a slot: the toward-card delay as compensation, the quality class as payload; its header sequence
is a free value (R114, LOG 10). -/
def markFrame (n : Slot) (seq : Byte) (quality compensation : Nat) (now : Stamp) : HubFrame :=
  ⟨.timeMark, n, seq, u8 quality, now, compensation⟩

/-- A mark tick takes a client that has a delay record (R114). -/
def markClient (n : Slot) (s : State) : State :=
  match (s.slotDelay n).client, (s.slotDelay n).delays with
  | true, some r =>
    let h := markFrame n s.freeByte s.delay.quality r.towardCard s.hubNow
    if timingAdmissible s h then
      admitHub h (countDelay n (fun c => { c with marksMade := count32 c.marksMade }) s.drawn)
    else countDelay n (fun c => { c with marksSkipped := count32 c.marksSkipped }) s
  | _, _ => s

end Sys2Proof.Machine
end

