-- ==== Sys2Proof/Machine/CalendarOps.lean ====
section
/-! DEFINITION. The window calendar's checks of a commit and its swap (chapter 4), and the monitor's passes and
triggers (chapter 9), which a step of hub time reaches together. -/

namespace Sys2Proof.Machine

/-! ### The commit's checks -/

/-- A cycle length divides a second (R67). -/
def cycleDivides (c : Nat) : Bool := c != 0 && Config.nsPerSecond % c == 0

/-- A window list is in order: every length at least 1, every window at or after the end of the one before it, and
the last ends at or before the cycle length (R67). `from` is the end of the window before. -/
def windowsOrdered (cycle : Nat) : Nat → List Window → Bool
  | _, [] => true
  | start, w :: ws =>
    start ≤ w.start && 1 ≤ w.length && w.finish ≤ cycle && windowsOrdered cycle w.finish ws

/-- The first port whose pending list is out of order (R67). -/
def firstDisordered (b : Bank) : Option Slot := allSlots.find? fun p => !windowsOrdered b.cycle 0 (b.windows.read p)

/-- The first enabled SAMPLE flow, in ascending flow number, that does not fit the pending bank, with the first port
of it that does not (R67). -/
def firstMisfit (s : State) : Option (Fin 255 × Slot) :=
  (List.finRange 255).findSome? fun f =>
    let flow := s.flow f
    match flow.fields with
    | some r =>
      if flow.enabled && r.cls == .sample then (misfit s s.cal.pendingBank r).map fun p => (f, p) else none
    | none => none

/-! ### The swap -/

/-- Every port takes a new decision (R70, R72), in ascending order, which the rules leave open (LOG 60). -/
def arbitrateAll (s : State) : State := forSlots arbitrate s

/-- The banks change places and the arming becomes absent; window-less ports have their SAMPLE queues flushed, in
ascending order (LOG 60); FIT is evaluated against the new active bank; the commit is answered where its in-flight
record still stands (R70). -/
def swapBanks (s : State) : State :=
  match s.cal.arming with
  | some a =>
    let swapped := s.updCal fun c => { c with active := c.pendingBank, pendingBank := c.active, arming := none }
    let flushed := forSlots
      (fun p t => if (t.cal.active.windows.read p).isEmpty then flushSample p t else t) swapped
    let fitted := evaluateFit flushed
    complete a.record .ok (s.hubNow.bytes ++ u32 fitted.cal.active.cycle) fitted
  | none => s

/-! ### The monitor's passes -/

/-- The channels that one pass converts (09, 9.2). -/
def Monitor.passChannels (m : Monitor) : List Channel :=
  match m.mode with
  | .single => [m.single]
  | .oneScan | .continuous => allChannels.filter fun c => (m.channel.read c).inScan

/-- The conversions of some channels begin, the first at the local time `now`; each takes 20 µs (R157). -/
def Monitor.scan (m : Monitor) (now : Nat) (channels : List Channel) : Monitor :=
  { m with state := .scanning, pass := channels, conversionEnd := some (now + Config.conversionTicks) }

/-- What follows a completed pass: CONTINUOUS begins the next at once over the same channels, unless there is none to
convert; the others stop or wait for their trigger (R157). -/
def Monitor.passEnd (m : Monitor) (now : Nat) : Monitor :=
  let done := { m with
    counters := { m.counters with passes := count32 m.counters.passes }, pass := [], conversionEnd := none }
  match m.mode, m.trigger with
  | .continuous, _ =>
    if m.passChannels.isEmpty then { done with state := .stopped } else done.scan now m.passChannels
  | .single, .software | .oneScan, .software => { done with state := .stopped }
  | .single, .localSecond | .single, .hubSecond | .oneScan, .localSecond | .oneScan, .hubSecond =>
    { done with state := .waiting }

/-- A pass begins; one with no channel to convert ends at its start and counts as completed (R157). -/
def Monitor.beginPass (m : Monitor) (now : Nat) : Monitor :=
  if m.passChannels.isEmpty then m.passEnd now else m.scan now m.passChannels

/-- A hardware trigger: observed only when it is of the kind configured; it begins a pass in WAITING and is counted
as ignored in SCANNING (R156). -/
def Monitor.triggered (m : Monitor) (now : Nat) (kind : MonitorTrigger) : Monitor :=
  if m.trigger = kind then
    match m.state with
    | .waiting => m.beginPass now
    | .scanning => { m with counters := { m.counters with ignored := count32 m.counters.ignored } }
    | .stopped => m
  else m

/-! ### A phase step as the calendar and the monitor take it -/

/-- An armed calendar swaps at a forward step that reaches or passes a boundary of the pending cycle (R63, R69). A step
is forward where the stamp after it is the greater, so one that wraps the seconds past 2^48 − 1 is not (LOG 43). -/
def stepSwaps (s : State) (before after : Stamp) : Bool :=
  s.cal.arming.isSome && before.toNs < after.toNs &&
    reachesMultiple s.cal.pendingBank.cycle before.toNs after.toNs

/-- A phase step is reported to the delay unit, the calendar, the monitor and the alarm unit (R94), in this order
(LOG 50). -/
def phaseStep (before after : Stamp) (s : State) : State :=
  let abandoned := abandonProbes s
  let swapped := if stepSwaps s before after then swapBanks abandoned else abandoned
  let decided := arbitrateAll swapped
  let triggered := if before.sec < after.sec then decided.updMon (·.triggered s.now .hubSecond) else decided
  occurPoint phaseStepPoint triggered

end Sys2Proof.Machine
end

