-- ==== Sys2Proof/Machine/TrackerOps.lean ====
section
/-! DEFINITION. The reference tracker's operations: providers, classification of events, source states, selection,
timing states, the servo and the step (chapter 5). -/

namespace Sys2Proof.Machine

/-! ### Timing states -/

/-- The timing state changes, with what each entry sets (R89, R90), and is reported to the forwarding unit, the delay
unit and the alarm unit (R91), in that order (LOG 50). The holdover timer keeps its last value when HOLDOVER is left, for
FREERUN as for ACQUIRING (LOG 49). -/
def enterTiming (new : TimingState) (s : State) : State :=
  let old := s.trk.timing
  let last := s.holdoverTimer
  let moved := s.updTrk fun k =>
    { k with
      timing := new
      holdoverReady := match new with
        | .locked => true
        | .freerun => false
        | .acquiring | .holdover => k.holdoverReady
      holdoverStart := if new = .holdover then some s.now else none
      holdoverLast := if old = .holdover then last else k.holdoverLast
      lockRun := if new = .acquiring then 0 else k.lockRun
      unlockRun := if new = .acquiring ∨ new = .locked then 0 else k.unlockRun }
  let held := if new = .holdover then moved.setFreq moved.trk.integral else moved
  let flows := flowsTimingChange old new held
  alarmTiming new flows.trk.selected { flows with delay := { flows.delay with quality := new.quality } }

/-! ### Selection -/

/-- The source is QUALIFIED. -/
def State.qualified (s : State) (src : Source) : Bool := (s.source src).state == .qualified

/-- The source that an examination of the selection selects (R88). -/
def selection (s : State) : Option Source :=
  let first := if s.trk.source.nFirst then [Source.N, Source.P] else [Source.P, Source.N]
  if !s.trk.source.revertive && s.trk.selected.any s.qualified then s.trk.selected else first.find? s.qualified

/-- The selection is examined; a change of the selected source reaches the timing states (R88, R89). A change to the
other source while ACQUIRING leaves the state as it is (R91, LOG 13). -/
def examineSelection (s : State) : State :=
  let new := selection s
  if new = s.trk.selected then s
  else
    let t := s.updTrk fun k => { k with selected := new }
    match new, t.trk.timing with
    | some _, .acquiring => t
    | some _, .freerun | some _, .locked | some _, .holdover => enterTiming .acquiring t
    | none, .acquiring | none, .locked => if t.trk.holdoverReady then enterTiming .holdover t else enterTiming .freerun t
    | none, .freerun | none, .holdover => t

/-! ### Source states -/

/-- A source takes a new record; SOURCE_P_FAILED or SOURCE_N_FAILED follows its state (R87). -/
def setSource (src : Source) (r : SourceRecord) (s : State) : State :=
  reportCondition (sourceFailedPoint src) (r.state == .failed) (s.updSource src fun _ => r)

/-- The record at an entry to CANDIDATE; the previous arrival and the announced second are kept when the source comes
from FAILED with the same provider (R86). -/
def SourceRecord.candidate (r : SourceRecord) (now : Nat) : SourceRecord :=
  { r with state := .candidate, good := 0, jumps := 0, ePrev := none, silenceStart := now, holdoffStart := none }

/-- The record of a source with a new provider (R81). -/
def SourceRecord.fresh (r : SourceRecord) (provider : Slot) (now : Nat) : SourceRecord :=
  { r.candidate now with provider := some provider, prevArrival := none, announced := none }

/-- The record of a source whose provider is lost (R81). -/
def SourceRecord.lost (r : SourceRecord) : SourceRecord :=
  { r with
    state := .unavailable, provider := none, ePrev := none, good := 0, jumps := 0, prevArrival := none
    holdoffStart := none, announced := none }

/-- A change of the counters of a source (R100). -/
def countSource (src : Source) (f : SourceCounters → SourceCounters) (s : State) : State :=
  s.updTrk fun k =>
    match src with
    | .P => { k with counters := { k.counters with srcP := f k.counters.srcP } }
    | .N => { k with counters := { k.counters with srcN := f k.counters.srcN } }

/-- A source enters FAILED, and the selection is examined (R87, R88). -/
def failSource (src : Source) (s : State) : State :=
  let r := s.source src
  examineSelection (setSource src
    { r with state := .failed, ePrev := none, good := 0, jumps := 0, holdoffStart := some s.now }
    (countSource src (fun c => { c with failures := count32 c.failures }) s))

/-! ### Providers -/

/-- The provider of source P: the lowest ACTIVE slot with a REFERENCE card that has the reference provider flag. The
provider of source N: the slot that SET_SOURCE names, when it is ACTIVE and its card has both flags (R81). -/
def providerOf (s : State) : Source → Option Slot
  | .P => allSlots.find? fun n =>
    s.isActive n && (s.slot n).identity.any fun i => i.kind == .reference && i.refProvider
  | .N => s.trk.source.nSlot.filter fun n =>
    s.isActive n && (s.slot n).identity.any fun i => i.timingClient && i.refProvider

/-- A source's provider is worked out again: it appears, is lost, changes, or stays (R81). -/
def reworkProvider (src : Source) (s : State) : State :=
  let r := s.source src
  let new := providerOf s src
  if new = r.provider then s
  else
    match new with
    | some n => setSource src (r.fresh n s.now) s
    | none => setSource src r.lost s

/-- Both providers are worked out again, and the selection is examined (R81, R88; LOG 14). -/
def reworkProviders (s : State) : State := examineSelection (reworkProvider .N (reworkProvider .P s))

/-! ### The servo -/

/-- I takes a value clamped to F_limit, and F another (R95). -/
def clampFreq (limit : Nat) (f : Int) : Int := clampInt (-(limit : Int)) limit f

/-- I and F are formed from an error; the products are divided by 256 toward zero (R95). -/
def servoUpdate (e : Int) (s : State) : State :=
  let c := s.trk.servo
  let proportional := (e * c.kp).tdiv 256
  let integral := clampFreq c.fLimit (s.trk.integral + (e * c.ki).tdiv 256)
  (s.updTrk fun k => { k with integral := integral }).setFreq (clampFreq c.fLimit (proportional + integral))

/-- The lock accounting (R96). -/
def lockAccounting (e : Int) (s : State) : State :=
  let inside := e.natAbs ≤ s.trk.servo.lockWindow
  match s.trk.timing with
  | .acquiring =>
    let t := s.updTrk fun k => { k with lockRun := if inside then min 64 (k.lockRun + 1) else 0 }
    if inside ∧ t.trk.servo.lockCount ≤ t.trk.lockRun then enterTiming .locked t else t
  | .locked =>
    let t := s.updTrk fun k => { k with unlockRun := if inside then 0 else k.unlockRun + 1 }
    if 3 ≤ t.trk.unlockRun then enterTiming .acquiring t else t
  | .freerun | .holdover => s

/-! ### The step -/

/-- The hub time that lies a signed number of ns after a hub time, modulo 2^48 seconds (R93). -/
def Stamp.shift (t : Stamp) (e : Int) : Stamp :=
  Stamp.ofNs (((t.toNs : Int) + e) % ((Config.secModulus * Config.nsPerSecond : Nat) : Int)).toNat

/-- A source's last good error keeps its meaning against the new hub time (R93). -/
def SourceRecord.shift (r : SourceRecord) (e : Int) : SourceRecord := { r with ePrev := r.ePrev.map (· - e) }

/-- Hub time is moved by an error, the fraction keeping its value, and the phase step is reported (R93, R94). -/
def stepTime (e : Int) (s : State) : State :=
  let before := s.hubNow
  let after := before.shift e
  let moved := { s with time := { s.time with sec := after.sec, ns := after.ns } }
  phaseStep before after (moved.updTrk fun k =>
    { k with
      srcP := k.srcP.shift e, srcN := k.srcN.shift e, lockRun := 0
      counters := { k.counters with steps := count32 k.counters.steps } })

/-- The servo takes an applied event: in ACQUIRING an error above the step threshold steps hub time and the event ends
there; otherwise I and F are formed and the lock accounting is done (R92). -/
def applyEvent (e : Int) (s : State) : State :=
  if s.trk.timing = .acquiring ∧ s.trk.servo.stepThreshold < e.natAbs then stepTime e s
  else lockAccounting e (servoUpdate e s)

/-! ### Events of a source -/

/-- The interval of a source, in oscillator periods (R85). -/
def interval (s : State) : Source → Nat
  | .P => Config.ticksPerSecond
  | .N => Config.ticksPerSecond / s.trk.source.nRate

/-- An event is timely when there is no previous arrival, or the local time since it lies within an eighth of the
interval, the limits included (R85). -/
def timely (s : State) (src : Source) : Bool :=
  match (s.source src).prevArrival with
  | some t => 7 * interval s src ≤ 8 * (s.now - t) && 8 * (s.now - t) ≤ 9 * interval s src
  | none => true

/-- An error is a jump: too far from the last good one, or, of the selected source in LOCKED, above the step threshold
(R85). -/
def isJump (s : State) (src : Source) (e : Int) : Bool :=
  ((s.source src).ePrev.any fun p => s.trk.source.jumpLimit < (e - p).natAbs) ||
    (s.trk.selected == some src && s.trk.timing == .locked && s.trk.servo.stepThreshold < e.natAbs)

/-- The servo takes good events of the selected source while ACQUIRING or LOCKED (R92). -/
def takesEvent (s : State) (src : Source) : Bool :=
  s.trk.selected == some src && (s.trk.timing == .acquiring || s.trk.timing == .locked)

/-- An unusable event: the good count becomes 0 and the silence timer keeps running (R85). -/
def unusableEvent (src : Source) (s : State) : State :=
  (countSource src (fun c => { c with unusable := count32 c.unusable }) s).updSource src fun r => { r with good := 0 }

/-- A jump: at the second without a good event between, the source fails (R85, R86). -/
def jumpEvent (src : Source) (s : State) : State :=
  let t := (countSource src (fun c => { c with jumps := count32 c.jumps }) s).updSource src fun r =>
    { r with good := 0, jumps := r.jumps + 1, silenceStart := s.now }
  if 2 ≤ (t.source src).jumps then failSource src t else t

/-- A good event: at the fourth in a row a CANDIDATE qualifies, and the event is not used by the servo; a QUALIFIED
source's event is applied where the source is selected (R85, R86, R92). -/
def goodEvent (src : Source) (e : Int) (s : State) : State :=
  let t := (countSource src (fun c => { c with good := count32 c.good }) s).updSource src fun r =>
    { r with good := min 4 (r.good + 1), jumps := 0, ePrev := some e, silenceStart := s.now }
  let r := t.source src
  if r.state = .candidate then
    if r.good = 4 then examineSelection (setSource src { r with state := .qualified } t) else t
  else if takesEvent t src then applyEvent e t
  else t

/-- An event of a source: classified in CANDIDATE and QUALIFIED, and only noted as an arrival in FAILED (R85, R87). -/
def takeEvent (src : Source) (error : Option Int) (s : State) : State :=
  let arrived := s.updSource src fun r => { r with prevArrival := some s.now }
  match (s.source src).state with
  | .unavailable => s
  | .failed => arrived
  | .candidate | .qualified =>
    match error, timely s src with
    | some e, true => if isJump s src e then jumpEvent src arrived else goodEvent src e arrived
    | some _, false | none, _ => unusableEvent src arrived

/-- A REF_TIME frame is taken as an ANNOUNCE of source P's provider, as a STAMP of source N's provider, or is
discarded (R82, R84). -/
def takeRefTime (n : Slot) (payload : List Byte) (length : Nat) (arrival : Stamp) (s : State) : State :=
  let discarded := s.updTrk fun k =>
    { k with counters := { k.counters with discarded := count32 k.counters.discarded } }
  if length ≠ 11 then discarded
  else
    match payloadField payload 0 1 with
    | 1 =>
      if s.trk.srcP.provider = some n then
        s.updSource .P fun r => { r with announced := some (payloadField payload 1 6) }
      else discarded
    | 2 =>
      if s.trk.srcN.provider = some n then
        let sent : Stamp := ⟨payloadField payload 1 6, payloadField payload 7 4⟩
        takeEvent .N ((s.slotDelay n).delays.map fun d => sent.minus arrival + d.towardHub) s
      else discarded
    | _ => discarded

/-! ### The timers -/

/-- The silence timer of a source has reached three intervals (R86). -/
def silent (s : State) (src : Source) : Bool :=
  ((s.source src).state == .candidate || (s.source src).state == .qualified) &&
    3 * interval s src ≤ s.now - (s.source src).silenceStart

/-- The holdoff timer of a FAILED source has reached 10 local seconds (R87). -/
def holdoffOver (s : State) (src : Source) : Bool :=
  (s.source src).state == .failed && (s.source src).holdoffStart.any fun start => Config.holdoffTicks ≤ s.now - start

/-- The holdover timer has reached the holdover limit (R90). -/
def holdoverOver (s : State) : Bool :=
  s.trk.timing == .holdover && s.trk.servo.holdoverLimit ≤ s.holdoverTimer

end Sys2Proof.Machine
end

