-- ==== Sys2Proof/Machine/SidebandOps.lean ====
section
/-! DEFINITION. The sideband master's operations: its queue, the phases of a transaction and how they pass with local
time, aborts, the validation of an identity record (chapter 8; LOG 17). -/

namespace Sys2Proof.Machine

/-- The slot an entry reads. -/
def SidebandEntry.slot : SidebandEntry → Slot
  | .identify n _ => n
  | .raw n _ _ _ _ _ => n

/-- The entry is the IDENTIFY entry of a slot. -/
def SidebandEntry.identifies (n : Slot) : SidebandEntry → Bool
  | .identify m _ => m == n
  | .raw _ _ _ _ _ _ => false

/-- The entry is a RAW entry of a slot. -/
def SidebandEntry.rawOf (n : Slot) : SidebandEntry → Bool
  | .identify _ _ => false
  | .raw m _ _ _ _ _ => m == n

/-- The entry is a RAW entry. -/
def SidebandEntry.isRaw : SidebandEntry → Bool
  | .identify _ _ => false
  | .raw _ _ _ _ _ _ => true

/-- The number of bytes that an entry's transaction reads (R144). -/
def SidebandEntry.length : SidebandEntry → Nat
  | .identify _ _ => 64
  | .raw _ _ k _ _ _ => k

/-- The offset that an entry's transaction reads from (R144). -/
def SidebandEntry.offset : SidebandEntry → Nat
  | .identify _ _ => 0
  | .raw _ o _ _ _ _ => o

/-- A transaction for the entry at the head is running, and is not being aborted. READ_IDENTITY shows the entry that a
HUB_RESET leaves at the head as not running while its abort lasts (R152, R153; LOG 55). -/
def Sideband.running (m : Sideband) : Bool := m.current.any fun t => !t.aborting

/-- Where no transaction runs and the queue is not empty, one starts for the head in SELECT, and the selector connects
its slot (R143, R144). -/
def startTransaction (s : State) : State :=
  match s.side.current, s.side.queue with
  | none, e :: _ =>
    s.updSide fun m => { m with current := some ⟨.select, [], .start, s.now, none, false, false⟩, selector := some e.slot }
  | _, _ => s

/-- The transaction ends: the wires are released and the selector connects no slot (R143). -/
def endTransaction (s : State) : State := s.updSide fun m => { m with current := none, selector := none }

/-- An entry joins the tail of the queue (R142). -/
def joinSideband (e : SidebandEntry) (s : State) : State :=
  startTransaction (s.updSide fun m => { m with queue := m.queue ++ [e] })

/-- The current transaction is aborted: in SELECT and while the card holds the clock at once, and otherwise after the
byte or condition in progress, with a stop (R149; LOG 17). -/
def abortTransaction (s : State) : State :=
  match s.side.current with
  | some t =>
    if t.phase = .select ∨ t.held.isSome = true then endTransaction s
    else s.updSide fun m => { m with current := some { t with aborting := true } }
  | none => s

/-- The entries of a kind are removed; where the running one is among them its transaction is aborted, after which the
next is started (R149). -/
def removeEntries (gone : SidebandEntry → Bool) (s : State) : State :=
  let t := if s.side.running && (s.side.queue.head?).any gone then abortTransaction s else s
  startTransaction (t.updSide fun m => { m with queue := m.queue.filter fun e => !gone e })

/-- A removed RAW entry is answered GONE (R149). -/
def answerGone (e : SidebandEntry) (s : State) : State :=
  match e with
  | .raw _ _ _ _ _ record => complete record .gone [] s
  | .identify _ _ => s

/-- The master takes a slot state change: entry to IDENTIFYING queues an IDENTIFY entry; leaving it for INSERTED or
EMPTY removes it; entry to EMPTY removes the slot's RAW entries, answered GONE in the order of the queue (R135, R142, R149;
LOG 51). A RAW transaction that is aborted here is not counted as a raw read (R153 leaves it open; the model's choice,
LOG 61). -/
def sidebandSlotChange (n : Slot) (old new : SlotState) (s : State) : State :=
  let identified :=
    if new = .identifying then joinSideband (.identify n 1) s
    else if old = .identifying ∧ (new = .inserted ∨ new = .empty) then removeEntries (SidebandEntry.identifies n) s
    else s
  if new = .empty then
    let raws := identified.side.queue.filter (SidebandEntry.rawOf n)
    forEach raws answerGone (removeEntries (SidebandEntry.rawOf n) identified)
  else identified

/-- A RAW entry made for a controller. -/
def SidebandEntry.requestedBy (n : Slot) : SidebandEntry → Bool
  | .identify _ _ => false
  | .raw _ _ _ r _ _ => r == n

/-- A controller left ACTIVE: its queued RAW entries are removed, a running one is left to its end (R151). -/
def sidebandDeparture (n : Slot) (s : State) : State :=
  s.updSide fun m =>
    match m.running, m.queue with
    | true, e :: rest => { m with queue := e :: rest.filter fun x => !x.requestedBy n }
    | _, _ => { m with queue := m.queue.filter fun x => !x.requestedBy n }

/-! ### Validation -/

/-- A byte of an identity record. -/
def recordByte (bytes : List Byte) (i : Nat) : Nat := (bytes.getD i 0).toNat

/-- The whole of an identity record of a kind, by its offsets (12.5). -/
def readRecord (kind : CardKind) (bytes : List Byte) : Identity where
  format := recordByte bytes 0
  kind := kind
  maker := payloadField bytes 2 2
  model := (bytes.drop 4).take 16
  serial := (bytes.drop 20).take 12
  powerClass := recordByte bytes 32
  lanes := recordByte bytes 33
  maxExponent := recordByte bytes 34
  flags := bytes.getD 35 0
  softStart := recordByte bytes 36
  currentLimit := payloadField bytes 37 2
  spare := (bytes.drop 39).take 24
  checksum := bytes.getD 63 0

/-- The bytes of a record sum to a multiple of 256 (R147). -/
def checksumHolds (bytes : List Byte) : Bool := (bytes.map BitVec.toNat).sum % 256 == 0

/-- The fields of a record whose kind is known are in their ranges (R147). -/
def Identity.inRange (i : Identity) : Bool :=
  i.format == 1 && (1 ≤ i.powerClass && i.powerClass ≤ 250) && (i.lanes == 1 || i.lanes == 2 || i.lanes == 4) &&
    (6 ≤ i.maxExponent && i.maxExponent ≤ 11) && (1 ≤ i.softStart && i.softStart ≤ 50) &&
    (1 ≤ i.currentLimit && i.currentLimit ≤ 500)

/-- The identity of the 64 bytes read, none where a field does not hold (R147). -/
def validate (bytes : List Byte) : Option Identity :=
  match CardKind.ofCode (recordByte bytes 1) with
  | some kind =>
    let i := readRecord kind bytes
    if checksumHolds bytes && i.inRange then some i else none
  | none => none

/-! ### How a transaction ends -/

/-- The outcome of an end on the wire (R145). -/
def endOutcome : SidebandEnd → SidebandOutcome
  | .busStuck => .busStuck
  | .addressWriteNack | .addressReadNack => .addrNack
  | .offsetNack => .offsetNack
  | .done _ => .done

/-- The acknowledge map of an end on the wire (R144, R145). -/
def endMap : SidebandEnd → AckMap
  | .busStuck => .start
  | .addressWriteNack => ⟨.nack, .notReached, .notReached⟩
  | .offsetNack => ⟨.ack, .nack, .notReached⟩
  | .addressReadNack => ⟨.ack, .ack, .nack⟩
  | .done _ => ⟨.ack, .ack, .ack⟩

/-- The stop of a transaction is over (R144). -/
def Transaction.stopped (t : Transaction) (now : Nat) : Bool := t.phase == .stop && t.due ≤ now

/-- A transaction, as far as it has come, ends so: found stuck in SELECT, or after its stop with the acknowledge map of
that end, and for DONE with the bytes received (R144, R145). -/
def Transaction.endsSo (t : Transaction) (now : Nat) : SidebandEnd → Bool
  | .busStuck => t.phase == .select && t.stuck
  | .done bytes => t.stopped now && t.map == endMap (.done bytes) && bytes == t.bytes
  | .addressWriteNack => t.stopped now && t.map == endMap .addressWriteNack
  | .offsetNack => t.stopped now && t.map == endMap .offsetNack
  | .addressReadNack => t.stopped now && t.map == endMap .addressReadNack

/-- The card has held the clock for 10 ms (R145). -/
def Transaction.holdOver (t : Transaction) (now : Nat) : Bool := t.held.any fun since => since + Config.clockHoldTicks ≤ now

/-- The failure that an acknowledge map shows: a byte that was not acknowledged (R145). -/
def AckMap.failure (m : AckMap) : Option SidebandOutcome :=
  if m.addressWrite = .nack ∨ m.addressRead = .nack then some .addrNack
  else if m.offset = .nack then some .offsetNack
  else none

/-- The outcome of a transaction that a hold of 10 ms ends: HOLD_TIMEOUT, unless a byte was not acknowledged before,
which was then the first event, and the hold stands in the stop that follows it (R145; LOG 17). -/
def holdOutcome (m : AckMap) : SidebandOutcome := m.failure.getD .holdTimeout

/-- The bytes of an end on the wire. -/
def endBytes : SidebandEnd → List Byte
  | .done bytes => bytes
  | .busStuck | .addressWriteNack | .offsetNack | .addressReadNack => []

/-- An identity outcome, as the master reports it to the slot controller (R146). -/
inductive IdentityOutcome where
  | valid (i : Identity)
  | failed (kind : SidebandOutcome)
deriving DecidableEq, Repr

/-- The results of a raw read: outcome, acknowledge map, and for DONE the bytes in a counted list (R150, LOG 12). -/
def rawResults (outcome : SidebandOutcome) (map : AckMap) (bytes : List Byte) : List Byte :=
  [outcome.code, map.addressWrite.code, map.offset.code, map.addressRead.code] ++
    (if outcome = .done then u8 bytes.length ++ bytes else [])

/-- A change of a slot's counters in the master (R153). -/
def countSideband (n : Slot) (f : SidebandCounters → SidebandCounters) (s : State) : State :=
  s.updSide fun m => { m with counters := m.counters.update n f }

/-- A slot's last attempt is recorded (R146). -/
def recordAttempt (n : Slot) (outcome : SidebandOutcome) (map : AckMap) (s : State) : State :=
  s.updSide fun m => { m with lastAttempt := m.lastAttempt.write n (some ⟨outcome, map⟩) }

/-- The settling of an IDENTIFY entry whose attempt failed: to the tail with its attempt raised at attempt 1 or 2, out
of the queue with a failed outcome at attempt 3. The queue is already without it (R146). -/
def settleFailure (n : Slot) (attempt : Nat) (kind : SidebandOutcome) (s : State) :
    State × Option (Slot × IdentityOutcome) :=
  let t := countSideband n (fun c => { c with failures := count32 c.failures }) s
  if attempt < 3 then (t.updSide fun m => { m with queue := m.queue ++ [.identify n (attempt + 1)] }, none)
  else (t, some (n, .failed kind))

/-- The entry at the head is settled at its transaction's end: the state after, and the identity outcome to report
(R143, R146, R150, R151). -/
def settleEntry (outcome : SidebandOutcome) (map : AckMap) (bytes : List Byte) (s : State) :
    State × Option (Slot × IdentityOutcome) :=
  match s.side.queue with
  | [] => (s, none)
  | .raw n _ _ _ _ record :: rest =>
    let t := countSideband n (fun c => { c with rawReads := count32 c.rawReads })
      ((endTransaction s).updSide fun m => { m with queue := rest })
    (complete record .ok (rawResults outcome map bytes) t, none)
  | .identify n attempt :: rest =>
    let t := countSideband n (fun c => { c with attempts := count32 c.attempts })
      ((endTransaction s).updSide fun m => { m with queue := rest })
    if outcome = .done then
      match validate bytes with
      | some i => (recordAttempt n .done map t, some (n, .valid i))
      | none => settleFailure n attempt .badRecord (recordAttempt n .badRecord map t)
    else settleFailure n attempt outcome (recordAttempt n outcome map t)

/-- The thresholds of a slot's current channel at a valid identity: critical-high the limit × 2, warning-high the
floor of 80 % of that (R148). -/
def setCurrentThresholds (n : Slot) (i : Identity) (s : State) : State :=
  let critical := i.currentLimit * 2
  s.updChannel (slotChannel n) fun c => { c with critHigh := some critical, warnHigh := some (critical * 80 / 100) }

/-- The master takes a HUB_RESET: a running transaction is aborted, RAW entries leave the queue, IDENTIFY entries keep
their places and attempts, the counters are set to 0, and the head starts anew once the abort has ended (R152). -/
def resetSideband (s : State) : State :=
  startTransaction ((abortTransaction s).updSide fun m =>
    { m with queue := m.queue.filter fun e => !e.isRaw, counters := Table.fill ⟨0, 0, 0⟩ })

/-! ### The phases of a transaction, as local time passes (R144) -/

/-- The local time that a phase's condition takes, or one byte of it (8.2). -/
def phaseTicks : SidebandPhase → Nat
  | .select => 0
  | .start | .restart | .stop => Config.sidebandClockTicks
  | .addressWrite | .offset | .addressRead | .data => Config.sidebandByteTicks

/-- What the master puts on the line as a phase begins: the memory address 54 with the write direction is the byte 108,
and with the read direction 109 (R144). -/
def phaseSignals (offset : Nat) : SidebandPhase → List SidebandSignal
  | .start => [.start]
  | .addressWrite => [.bits (wireBits 108)]
  | .offset => [.bits (wireBits (BitVec.ofNat 8 offset))]
  | .restart => [.restart]
  | .addressRead => [.bits (wireBits 109)]
  | .stop => [.stop]
  | .select | .data => []

/-- The master puts signals on the line that the selector connects. -/
def sendSignals (signals : List SidebandSignal) (s : State) : State :=
  match s.side.selector with
  | some n => forEach signals (fun g t => t.emit (.sideband n g)) s
  | none => s

/-- The transaction goes on to a phase, which begins as the condition or byte before it is over. -/
def toPhase (p : SidebandPhase) (t : Transaction) (s : State) : State :=
  sendSignals (phaseSignals ((s.side.queue.head?.map SidebandEntry.offset).getD 0) p)
    (s.updSide fun m => { m with current := some { t with phase := p, due := t.due + phaseTicks p } })

/-- The phase after an addressed byte: the next one where the card acknowledged it, and otherwise, or in an abort, the
stop (R144, R145, R149). -/
def afterByte (next : SidebandPhase) (item : AckItem) (t : Transaction) : SidebandPhase :=
  if t.aborting || item != .ack then .stop else next

/-- The card of the slot that the selector connects is seated. -/
def State.cardSeated (s : State) : Bool := s.side.selector.any fun n => (s.slot n).lines.rawPresent

/-- What the card does on the wires as the master looks. Both wires are pulled up, so a card that was pulled holds
neither of them, acknowledges no byte, and is read as all ones; what a seated card does is a free value (8.2, R145;
LOG 10, 17). -/
def State.cardHoldsClock (s : State) : Bool := s.cardSeated && Config.cardHoldsClock s.free
def State.cardHoldsData (s : State) : Bool := s.cardSeated && Config.cardHoldsData s.free
def State.cardRefuses (s : State) : Bool := !s.cardSeated || Config.cardRefusesByte s.free
def State.cardByte (s : State) : Byte := if s.cardSeated then s.freeByte else 0xFF

/-- A data byte is over and kept: the master acknowledges each but the last, which the stop follows; in an abort the
byte in progress is the last (R144, R149). -/
def dataByteOver (t : Transaction) (byte : Byte) (s : State) : State :=
  let received := { t with bytes := t.bytes ++ [byte] }
  let last := t.aborting || (s.side.queue.head?.map SidebandEntry.length).getD 0 ≤ received.bytes.length
  toPhase (if last then .stop else .data) received (sendSignals [.acknowledge !last] s)

/-- The end that a map shows, with the bytes of a transaction that ran through. -/
def endOfMap (m : AckMap) (bytes : List Byte) : SidebandEnd :=
  if m.addressWrite != .ack then .addressWriteNack
  else if m.offset != .ack then .offsetNack
  else if m.addressRead != .ack then .addressReadNack
  else .done bytes

/-- The condition or byte in progress is over: what the card answers is taken into the map, and the transaction goes on
to its next phase. After SELECT with the data wire low, and after the stop, it has ended, by the command that is
answered beside the state; an abort ends by itself, and the next transaction starts (R143, R144, R145, R149). -/
def elementOver (t : Transaction) (s : State) : State × List Instr :=
  let item : AckItem := if s.cardRefuses then .nack else .ack
  match t.phase with
  | .select =>
    if s.cardHoldsData then
      (s.drawn.updSide fun m => { m with current := some { t with stuck := true } }, [.sidebandTransactionEnd .busStuck])
    else (toPhase .start t s.drawn, [])
  | .start => (toPhase (if t.aborting then .stop else .addressWrite) t s, [])
  | .addressWrite => (toPhase (afterByte .offset item t) { t with map := { t.map with addressWrite := item } } s.drawn, [])
  | .offset => (toPhase (afterByte .restart item t) { t with map := { t.map with offset := item } } s.drawn, [])
  | .restart => (toPhase (if t.aborting then .stop else .addressRead) t s, [])
  | .addressRead => (toPhase (afterByte .data item t) { t with map := { t.map with addressRead := item } } s.drawn, [])
  | .data => (dataByteOver t s.cardByte s.drawn, [])
  | .stop =>
    if t.aborting then (startTransaction (endTransaction s), [])
    else (s, [.sidebandTransactionEnd (endOfMap t.map t.bytes)])

/-- One period of the oscillator passes for the current transaction. While the card holds the clock wire the element in
progress waits, and at 10 ms of one hold HOLD_TIMEOUT comes; otherwise the element ends in its time (R144, R145). -/
def tickSideband (s : State) : State × List Instr :=
  match s.side.current with
  | none => (s, [])
  | some t =>
    if s.cardHoldsClock then
      let held := { t with held := some (t.held.getD s.now), due := t.due + 1 }
      (s.drawn.updSide fun m => { m with current := some held },
        if held.holdOver s.now then [.holdTimeout t.phase] else [])
    else
      let going := { t with held := none }
      let u := s.drawn.updSide fun m => { m with current := some going }
      if t.due ≤ s.now then elementOver going u else (u, [])

end Sys2Proof.Machine
end

