-- ==== Sys2Proof/Machine/SlotReports.lean ====
section
/-! DEFINITION. What a slot state change does elsewhere (R135), block by block, and the port's bring-up and take-down
commands (R2). -/

namespace Sys2Proof.Machine

/-! ### Reports of a slot state change -/

/-- The agent's part: a controller that leaves ACTIVE loses its queued and in-flight requests, and a slot that leaves
the up states its waiting responses (R181, R182). -/
def agentSlotChange (n : Slot) (old new : SlotState) (s : State) : State :=
  let t := if old = .active ∧ new ≠ .active ∧ s.holdsController n = true then dropController n s else s
  if old.isUp && !new.isUp then withdrawResponses n t else t

/-- A controller's alarm waits are cancelled without an answer (R174). -/
def cancelWaits (n : Slot) (s : State) : State :=
  s.updAlarm fun a => { a with waits := a.waits.filter (·.requester != n) }

/-- The alarm unit's part, as one event: a departing controller's waits go first; SLOT_FAULT follows the state with no
ALARM notice of its own; the SLOT notice is produced; and a slot that leaves the up states loses its waiting
acknowledgements and, unless for LINKING, its mailbox (R135, R172, R174, R175, R176). -/
def alarmSlotChange (n : Slot) (old new : SlotState) (reason : Option FaultReason) (s : State) : State :=
  let t := if old = .active ∧ new ≠ .active ∧ isControllerSlot n = true then cancelWaits n s else s
  let id := slotFaultPoint n
  let noticed := produce [.slot n new reason] (movePoint id ((t.point id).report (new == .faulted)) t)
  if old.isUp && !new.isUp then
    let u := if new = .linking then noticed
      else noticed.updAlarm fun a => { a with mailbox := a.mailbox.write n none }
    withdrawAcks n u
  else noticed

/-- The forwarding unit's and the calendar's part, at an entry to ACTIVE and on leaving it (R23, R78). -/
def flowsSlotReport (n : Slot) (old new : SlotState) (s : State) : State :=
  if (old == .active) != (new == .active) then evaluateFit (flowsSlotChange n (new == .active) s) else s

/-- The queue manager's part: a slot that leaves the up states has its port flushed, its pause released and its hold
ended; the stall count becomes 0 at an entry to LINKING (R56, R58). -/
def queueSlotChange (n : Slot) (old new : SlotState) (s : State) : State :=
  let t := if old.isUp && !new.isUp then
      (setPaused n false (flushAll n s)).updSq n fun q => { q with hold := .none, holdTimer := none }
    else s
  if new = .linking then t.updSq n fun q => { q with stallCount := 0 } else t

/-- The delay unit's part (R103). -/
def delaySlotChange (n : Slot) (old new : SlotState) (s : State) : State :=
  if new = .active ∧ old ≠ .active then delayArrival n s
  else if old = .active ∧ new ≠ .active then delayDeparture n s
  else s

/-- The monitor's part: the powered flag of the slot's current channel (R160). -/
def monitorSlotChange (n : Slot) (new : SlotState) (s : State) : State :=
  s.updMon fun m => { m with powered := m.powered.write n new.poweredOn }

/-- The tracker's part: the providers are worked out again at an entry to ACTIVE and on leaving it (R81). -/
def trackerSlotChange (old new : SlotState) (s : State) : State :=
  if (old == .active) != (new == .active) then reworkProviders s else s

/-- A departing controller's raw entries, and the identity reads (R142, R149, R151). -/
def sidebandReport (n : Slot) (old new : SlotState) (s : State) : State :=
  let t := if old = .active ∧ new ≠ .active ∧ isControllerSlot n = true then sidebandDeparture n s else s
  sidebandSlotChange n old new t

/-- A slot's state changes, with its power enable and lamp (R136), and the change is reported to the blocks, in an
order the model fixes (R135, LOG 4). -/
def changeSlot (n : Slot) (new : SlotState) (reason : Option FaultReason) (s : State) : State :=
  let old := (s.slot n).state
  let t := s.updSlot n fun r =>
    { r with state := new, lines := { r.lines with powerEnable := new.poweredOn, removeLamp := new.lampLit } }
  trackerSlotChange old new <| monitorSlotChange n new <| delaySlotChange n old new <| queueSlotChange n old new <|
    flowsSlotReport n old new <| sidebandReport n old new <| alarmSlotChange n old new reason <|
    agentSlotChange n old new t

/-! ### The port's two commands -/

/-- A transmission is broken: a frame of a class queue is an egress loss and its reference is given back, a TEST frame
frees its cell and is no loss (R2, R9). -/
def cutTransmission (p : Slot) (s : State) : State :=
  let t := s.updPort p fun q => { q with transmission := none }
  match (s.port p).transmission with
  | some (.frame id _) =>
    release id (t.updSq p fun q => { q with egress := { q.egress with losses := count32 q.egress.losses } })
  | some (.test _ _) => t
  | none => s

/-- The TEST frames built and not yet sent are given up, and with them the port's entry in the reserve waiting list
and the test deadline (R2, R5). -/
def dropTests (p : Slot) (s : State) : State :=
  withdrawMaker (.test p) (s.updPort p fun q => { q with testUnsent := [], testNext := 16, testDeadline := none })

/-- The ingress assembly is discarded. Where it held cells, which the slot's held cells fall by, its pause is examined
(R2, R9, R51). -/
def discardAssembly (p : Slot) (s : State) : State :=
  match (s.port p).assembly with
  | some a =>
    let t := s.updPort p fun q => { q with assembly := none }
    if a.cells = 0 then t else reexaminePause p t
  | none => s

/-- A change of the reported width reaches the window calendar and the slot controller's record (R78, R125). Any slot
state change that comes with it is taken after it (a choice of the model, LOG 63). -/
def setReportedWidth (p : Slot) (w : Option Width) (s : State) : State :=
  if (s.port p).reportedWidth = w then s
  else
    evaluateFit ((s.updPort p fun q => { q with reportedWidth := w }).updSlot p fun r => { r with width := w })

/-- The port enters TRAINING with its deadline (R3). -/
def enterTraining (p : Slot) (s : State) : State :=
  s.updPort p fun q =>
    { q with
      link := .training, trained := [], workingWidth := none, lanesInUse := []
      trainingDeadline := some (s.now + Config.trainingTicks) }

/-- What bring-up and take-down commands have in common. The link leaves its state first, so that no symbol is sent
(R2). -/
def stopPort (p : Slot) (link : LinkState) (s : State) : State :=
  let off := s.updPort p fun q => { q with link := link, cardHold := false, trainingDeadline := none }
  let stopped := discardAssembly p (dropTests p (cutTransmission p off))
  let paused := stopped.updPort p fun q =>
    { q with pauseAsserted := (stopped.sq p).paused, workingWidth := none, lanesInUse := [] }
  setReportedWidth p none paused

/-- The take-down command (R2). -/
def takeDown (p : Slot) (s : State) : State := stopPort p .down s

/-- The bring-up command: all lanes are GOOD again, the attempt is 1, and the port enters TRAINING (R2). -/
def bringUp (p : Slot) (s : State) : State :=
  enterTraining p ((stopPort p .training s).updPort p fun q => { q with laneGood := Table.fill true, attempt := 1 })

end Sys2Proof.Machine
end

