-- ==== Sys2Proof/Machine/SlotOps.lean ====
section
/-! DEFINITION. The slot controller's operations: entries to the slot states, power, drains, faults (chapter 7). -/

namespace Sys2Proof.Machine

/-- A change of a slot's counters in the slot controller (R139). -/
def countSlot (n : Slot) (f : SlotCounters → SlotCounters) (s : State) : State :=
  s.updSlot n fun r => { r with counters := f r.counters }

/-- A slot's power class, 0 while it is absent. -/
def State.classOf (s : State) (n : Slot) : Nat := (s.slot n).powerClass.getD 0

/-- A slot leaves the power-on states: its timers stop and its class leaves committed power (R130, R132, R134, R136). -/
def releasePower (n : Slot) (s : State) : State :=
  let t := s.updSlot n fun r => { r with softStart := none, drainTimer := none }
  { t with slots := { t.slots with committed := t.slots.committed - s.classOf n } }

/-- What leaving a power-on state calls for: the port is taken down, unless the slot was POWERING, and the power is
released (R130, R132, R134). -/
def leavePower (n : Slot) (s : State) : State :=
  match (s.slot n).state with
  | .powering => releasePower n s
  | .linking | .standby | .active | .draining => releasePower n (takeDown n s)
  | .empty | .inserted | .identifying | .waitingPower | .quiesced | .faulted => s

/-- A slot leaves the waiting list (R123). -/
def leaveWaiting (n : Slot) (s : State) : State :=
  { s with slots := { s.slots with waitingList := s.slots.waitingList.filter (· != n) } }

/-- POWER_OVER_BUDGET and POWER_WAITING are reported as they stand (R138; LOG 5). -/
def reportOverBudget (s : State) : State := reportCondition overBudgetPoint s.overBudget s
def reportWaiting (s : State) : State := reportCondition powerWaitingPoint s.powerWaiting s

/-! ### Entries -/

/-- Entry to FAULTED, the examination of the waiting list apart: power, guard, reason and counter (R132, R134). -/
def enterFaulted (n : Slot) (reason : FaultReason) (kind : Option SidebandOutcome) (s : State) : State :=
  let on := (s.slot n).state.poweredOn
  let t := (leavePower n s).updSlot n fun r =>
    { r with
      fault := some reason, failureKind := kind
      pullGuard := on && r.pullGuard && !r.lines.rawPresent
      counters := { r.counters with faults := count32 r.counters.faults } }
  changeSlot n .faulted (some reason) t

/-- Entry to LINKING: the port is given a bring-up command (R125). -/
def enterLinking (n : Slot) (s : State) : State :=
  changeSlot n .linking none (bringUp n (s.updSlot n fun r => { r with softStart := none }))

/-- Entry to POWERING: the grant, the soft-start deadline and the pull guard; the grant that empties the list makes
POWER_WAITING false (R138); an active fast fault line faults the slot at once, and power good already true takes it on to
LINKING (R123, R124, R134). -/
def grantPower (n : Slot) (s : State) : State :=
  let listed := leaveWaiting n s
  let units := ((s.slot n).identity.map Identity.softStart).getD 0
  let on := { listed with slots := { listed.slots with committed := listed.slots.committed + s.classOf n } }
  let t := reportWaiting (changeSlot n .powering none (on.updSlot n fun r =>
    { r with
      pullGuard := true, softStart := some (s.now + units * Config.softStartTicks)
      counters := { r.counters with grants := count32 r.counters.grants } }))
  if (t.slot n).lines.fastFault then enterFaulted n .overcurrent none t
  else if (t.slot n).lines.powerGood then enterLinking n t
  else t

/-- The waiting list is examined: its head is granted while committed power plus the head's class is at or below the
budget in force. At most as many grants are made as the first argument says (R123). -/
def examineWaiting : Nat → State → State
  | 0, s => s
  | k + 1, s =>
    match s.slots.waitingList with
    | [] => s
    | n :: _ => if s.slots.committed + s.classOf n ≤ s.budget then examineWaiting k (grantPower n s) else s

/-- An event changed committed power, the budget or the waiting list: the changes of the two conditions are reported,
and then the list is examined to its end (R123, R138; LOG 5). -/
def servePower (s : State) : State :=
  let t := reportWaiting (reportOverBudget s)
  examineWaiting t.slots.waitingList.length t

/-- A slot is faulted; where it leaves the power-on states the list is examined, after the slot's own change has been
reported (R132; LOG 45). -/
def faultSlot (n : Slot) (reason : FaultReason) (kind : Option SidebandOutcome) (s : State) : State :=
  let t := enterFaulted n reason kind s
  if (s.slot n).state.poweredOn then servePower t else t

/-- Entry to IDENTIFYING (R121): identity, class, admitted, fault and guard are cleared. -/
def enterIdentifying (n : Slot) (s : State) : State :=
  changeSlot n .identifying none (s.updSlot n fun r =>
    { r with
      identity := none, powerClass := none, admitted := false, fault := none, failureKind := none
      pullGuard := false })

/-- Entry to INSERTED (R121, R130): the guard is cleared and the identity kept. -/
def enterInserted (n : Slot) (s : State) : State :=
  changeSlot n .inserted none (s.updSlot n fun r => { r with pullGuard := false })

/-- Entry to WAITING_POWER at the tail of the waiting list, which is then examined (R122). -/
def enterWaiting (n : Slot) (s : State) : State :=
  let t := changeSlot n .waitingPower none s
  servePower { t with slots := { t.slots with waitingList := t.slots.waitingList ++ [n] } }

/-- The slot controller takes an identity outcome in IDENTIFYING; in another state it is ignored (R122, R148). -/
def takeIdentity (n : Slot) (o : IdentityOutcome) (s : State) : State :=
  if (s.slot n).state = .identifying then
    match o with
    | .valid i =>
      let t := setCurrentThresholds n i
        (s.updSlot n fun r => { r with identity := some i, powerClass := some i.powerClass })
      if i.kind = .control ∧ isControllerSlot n = false then faultSlot n .wrongSlot none t else enterWaiting n t
    | .failed kind => faultSlot n .idFail (some kind) s
  else s

/-! ### Drains -/

/-- A drain ends: the slot enters QUIESCED, its port is taken down and its power released, and the list is examined
(R129). -/
def endDrain (n : Slot) (s : State) : State :=
  servePower (changeSlot n .quiesced none ((leavePower n s).updSlot n fun r => { r with pullGuard := false }))

/-- A drain ends where the port's egress is empty (R48, R129). -/
def checkDrain (n : Slot) (s : State) : State :=
  if (s.slot n).state = .draining ∧ s.egressEmpty n = true then
    endDrain n (countSlot n (fun c => { c with drainsCompleted := count32 c.drainsCompleted }) s)
  else s

/-- Every drain whose egress has become empty ends (R129). Where one event empties several ports, their drains end after
the rest of its effect in ascending slot order, each with its reports and the grants that follow; the spec gives no
order (a choice of the model, LOG 60). -/
def checkDrains (s : State) : State := forSlots checkDrain s

/-- A drain times out: the port's queues are flushed and the slot enters QUIESCED (R129). -/
def timeOutDrain (n : Slot) (s : State) : State :=
  endDrain n (countSlot n (fun c => { c with drainTimeouts := count32 c.drainTimeouts }) (flushAll n s))

/-- Entry to DRAINING: the drain timer starts, and the queue manager is asked whether the egress is empty now; the
drain then ends within the event (R128; LOG 54). -/
def enterDraining (n : Slot) (s : State) : State :=
  checkDrain n (changeSlot n .draining none
    (s.updSlot n fun r => { r with drainTimer := some (s.now + s.slots.drainTimeout * Config.ticksPerMs) }))

/-! ### Latch, presence and link -/

/-- A latch change to OPEN in IDENTIFYING, WAITING_POWER, POWERING or LINKING takes the slot back to INSERTED (R130). -/
def backToInserted (n : Slot) (s : State) : State :=
  match (s.slot n).state with
  | .waitingPower => servePower (enterInserted n (leaveWaiting n s))
  | .powering | .linking => servePower (enterInserted n (leavePower n s))
  | .empty | .inserted | .identifying | .standby | .active | .draining | .quiesced | .faulted => enterInserted n s

/-- A presence change to absent takes the slot to EMPTY, SLOT_PULLED occurring first where the pull guard is set
(R134). -/
def toEmpty (n : Slot) (s : State) : State :=
  let old := (s.slot n).state
  let left := leavePower n (leaveWaiting n s)
  let pulled := if (left.slot n).pullGuard then
      countSlot n (fun c => { c with removals := count32 c.removals }) (occurPoint (slotPulledPoint n) left)
    else left
  let gone := (changeSlot n .empty none pulled).updSlot n fun r =>
    { r with
      identity := none, powerClass := none, width := none, fault := none, failureKind := none, admitted := false
      pullGuard := false }
  if old.poweredOn || old == .waitingPower then servePower gone else gone

/-- The link up that ends LINKING: the slot enters ACTIVE if it is admitted and STANDBY otherwise (R125, R126). -/
def linkUp (n : Slot) (s : State) : State :=
  if (s.slot n).state = .linking then
    let r := s.slot n
    let policy := r.identity.any fun i =>
      (i.kind == .control && isControllerSlot n) || !(s.slots.manual.read i.kind.index)
    let admitted := r.admitted || policy
    changeSlot n (if admitted then .active else .standby) none (s.updSlot n fun q => { q with admitted := admitted })
  else s

/-- A link down from the port faults the slot with LINK in LINKING and the up states (R125, R131). -/
def linkDown (n : Slot) (s : State) : State :=
  if (s.slot n).state = .linking ∨ (s.slot n).state.isUp = true then faultSlot n .link none s else s

/-! ### What the alarm unit reports back (R170) -/

/-- The budget in force follows the rectifier's critical point, and at a change the list is examined (R137). -/
def updateBudget (s : State) : State :=
  let b : Budget := if (s.point rectifierPoint).state.inList then .battery else .mains
  if b = s.slots.inForce then s else servePower { s with slots := { s.slots with inForce := b } }

/-- A slot current critical point that entered ACTIVE faults its slot in the power-on states (R131, R170). -/
def criticalEntered (id : PointId) (old : PointState) (s : State) : State :=
  match slotOfCritPoint id with
  | some n =>
    if old ≠ .active ∧ (s.point id).state = .active ∧ (s.slot n).state.poweredOn = true then
      faultSlot n .overcurrentSlow none s
    else s
  | none => s

end Sys2Proof.Machine
end

