-- ==== Sys2Proof/Machine/PortOps.lean ====
section
/-! DEFINITION. A port's bring-up by itself: training, width selection, the far loop test, failed attempts, retrains
(chapter 1). -/

namespace Sys2Proof.Machine

/-- A change of a port's link counters (R19). -/
def countLink (p : Slot) (f : LinkCounters → LinkCounters) (s : State) : State :=
  s.updPort p fun q => { q with counters := f q.counters }

/-- The training target: the smaller of the card's lane capability and the number of GOOD lanes (R3). -/
def trainingTarget (s : State) (p : Slot) : Nat :=
  min (s.laneCapability p) (allLanes.filter fun l => (s.port p).laneGood.read l).length

/-- The training has reached its target (R3). -/
def targetReached (s : State) (p : Slot) : Bool := trainingTarget s p ≤ (s.port p).trained.length

/-! ### Failed attempts -/

/-- The port enters DOWN after its third failed attempt: the reported width becomes absent, and link down is reported
(R5). After a retrain a width change goes out as well, and R5 and R78 leave open which of the two is taken first: the
model takes the width change, with its evaluation of FIT and report of FLOW_SUSPENDED, before link down faults the slot
(a choice of the model, LOG 63). -/
def giveUp (p : Slot) (s : State) : State :=
  linkDown p (setReportedWidth p none (s.updPort p fun q => { q with link := .down }))

/-- A bring-up attempt fails (R5). The port enters TRAINING again, or DOWN at attempt 3. A training whose target is 0
ends at once with no lane trained, which is the next failed attempt (R3); at most `k` attempts more are tried. The
ingress assembly is discarded, as at a retrain (LOG 36), and with the test over test progress is 0 (LOG 40). -/
def failAttempt : Nat → Slot → State → State
  | k, p, s =>
    let counted := countLink p (fun c => { c with failedAttempts := count32 c.failedAttempts }) s
    let cut := match (counted.port p).transmission with
      | some (.test _ _) => counted.updPort p fun q => { q with transmission := none }
      | some (.frame _ _) | none => counted
    let cleared := discardAssembly p ((dropTests p cut).updPort p fun q =>
      { q with trainingDeadline := none, testProgress := 0 })
    if (cleared.port p).attempt < 3 then
      let again := enterTraining p (cleared.updPort p fun q => { q with attempt := q.attempt + 1 })
      match k with
      | 0 => again
      | k + 1 => if trainingTarget again p = 0 then failAttempt k p again else again
    else giveUp p cleared

/-- An attempt fails, with the attempts that fail at once after it (R5). -/
def attemptFails (p : Slot) (s : State) : State := failAttempt 3 p s

/-! ### Width selection and testing -/

/-- The trained lanes in ascending order. -/
def Port.trainedAscending (q : Port) : List Lane := allLanes.filter fun l => q.trained.contains l

/-- Width selection: the working width and the lanes in use from the trained lanes and the card's lane capability
(R4). -/
def selectWidth (p : Slot) (s : State) : State :=
  let lanes := (s.port p).trainedAscending
  let w := Width.largest (min (s.laneCapability p) lanes.length)
  s.updPort p fun q => { q with workingWidth := w, lanesInUse := lanes.take ((w.map Width.lanes).getD 0) }

/-- The port enters TESTING: its deadline starts and its TEST frames are built and sent (R6). TEST frames left unsent
when the link came UP before are given up, and their cells freed (LOG 46). -/
def enterTesting (p : Slot) (s : State) : State :=
  startTest p (buildTests 16 p (s.updPort p fun q =>
    { q with
      link := .testing, testProgress := 0, testDeadline := some (s.now + Config.testTicks), testUnsent := []
      testNext := 0 }))

/-- Training ends: it succeeds with the trained lanes it has, or fails if there are none (R3). -/
def endTraining (p : Slot) (s : State) : State :=
  let t := s.updPort p fun q => { q with trainingDeadline := none }
  if (t.port p).trained.isEmpty then attemptFails p t else enterTesting p (selectWidth p t)

/-- The port enters TRAINING, which ends at once where its target is 0 (R3). -/
def beginTraining (p : Slot) (s : State) : State :=
  let t := enterTraining p s
  if trainingTarget t p = 0 then endTraining p t else t

/-- The test has passed: the port enters UP at its working width, sends its pause symbol, and becomes free; in LINKING
the link up moves the slot (R7, R72, R125). The width change is taken whole by the calendar before the slot moves, and
the port decides last, an order that R7, R72 and R125 leave open (LOG 63). TEST frames built and not sent by then keep
their cells, and a TEST entry its place in the reserve waiting list (LOG 46). -/
def enterUp (p : Slot) (s : State) : State :=
  let t := s.updPort p fun q => { q with link := .up, testDeadline := none }
  let reported := setReportedWidth p (t.port p).workingWidth t
  let symbol := reported.emit (.symbol p (if (reported.port p).pauseAsserted then .pauseOn else .pauseOff))
  arbitrate p (linkUp p symbol)

/-! ### Test returns -/

/-- A received frame is an intact return of the current attempt's next TEST frame (R7). -/
def intactReturn (p : Slot) (q : Port) (bytes : List Byte) : Bool :=
  checkPasses bytes && bytes.length == 64 && frameKindOf bytes == some .test && frameDest bytes == 0 &&
    frameSource bytes == slotNumber p && (frameSeq bytes).toNat == q.testProgress &&
    framePayloadLength bytes == 40 && framePayload bytes == testPayload q.attempt q.testProgress

/-- A frame taken during TESTING is judged as a test return (R7). -/
def judgeReturn (p : Slot) (truncated : Bool) (bytes : List Byte) (s : State) : State :=
  if !truncated && intactReturn p (s.port p) bytes then
    let t := s.updPort p fun q => { q with testProgress := q.testProgress + 1 }
    if 16 ≤ (t.port p).testProgress then enterUp p t else t
  else attemptFails p s

/-! ### Lanes failing -/

/-- A lane in use failed while the link was UP: the retrain (R9). -/
def retrain (p : Slot) (s : State) : State :=
  let t := countLink p (fun c => { c with retrains := count32 c.retrains }) s
  let u := t.updPort p fun q => { q with link := .training, attempt := 1 }
  beginTraining p (discardAssembly p (cutTransmission p u))

/-- A lane failure, by the link state and whether the lane is in use (R8). A lane already FAILED has no signal left to
lose (LOG 1). -/
def failLane (p : Slot) (l : Lane) (s : State) : State :=
  let q := s.port p
  if q.link = .down ∨ q.laneGood.read l = false then s
  else
    let t := countLink p (fun c => { c with laneFailures := count32 c.laneFailures })
      (s.updPort p fun r => { r with laneGood := r.laneGood.write l false })
    match q.link with
    | .down => s
    | .training =>
      let u := t.updPort p fun r => { r with trained := r.trained.filter (· != l) }
      if targetReached u p then endTraining p u else u
    | .testing => if q.lanesInUse.contains l then attemptFails p t else t
    | .up => if q.lanesInUse.contains l then retrain p t else t

/-! ### The reserve waiting list's grants -/

/-- The cells that the head of the reserve waiting list asks for (R46). -/
def headCells (s : State) : Option (Maker × Nat) :=
  match s.qm.waiting with
  | .test p :: _ => some (.test p, 1)
  | .agent :: _ => some (.agent, ((s.agent.responses.head?).map fun r => r.frame.cells).getD 0)
  | .alarm :: _ => some (.alarm, ((s.alarm.acks.head?).map fun a => a.frame.cells).getD 0)
  | [] => none

/-- The head of the reserve waiting list fits the free reserve cells (R46). -/
def headFits (s : State) : Bool := (headCells s).any fun h => h.2 ≤ s.reserveFree

/-- The port's entry is granted: its next TEST frame is built and the ones after it asked for (R6, R46). -/
def grantTest (p : Slot) (s : State) : State :=
  let t := withdrawMaker (.test p) s
  startTest p (buildTests 16 p (if (t.port p).testNext < 16 then buildTest p t else t))

/-- The head of the reserve waiting list is granted while it fits; at most as many grants are made as the first
argument says (R46). -/
def serveReserve : Nat → State → State
  | 0, s => s
  | k + 1, s =>
    match headCells s with
    | some (m, cells) =>
      if cells ≤ s.reserveFree then
        serveReserve k (match m with
          | .test p => grantTest p s
          | .agent => grantAgent s
          | .alarm => grantAlarm s)
      else s
    | none => s

/-- No more grants than this can follow one another: each sends a response, an acknowledgement or builds a TEST
frame. -/
def grantBound (s : State) : Nat := s.agent.responses.length + s.alarm.acks.length + 12 * 16

end Sys2Proof.Machine
end

