-- ==== Sys2Proof/Machine/FrameOps.lean ====
section
/-! DEFINITION. A received frame at its reception end: the port's tests (R11), the ingress checks, dispatch, copy
selection and admission (chapters 1, 2 and 3). -/

namespace Sys2Proof.Machine

/-- What a command answers. -/
abbrev Result := Host.Outcome State Fault Refusal

/-! ### The port's tests -/

/-- The card's maximum frame length; a port that receives has a valid identity (01, 1.1; LOG 41). -/
def State.cardMaxFrame (s : State) (n : Slot) : Nat := ((s.slot n).identity.map Identity.maxFrame).getD 2048

/-- The length test fails (R11). -/
def badLength (maxFrame : Nat) (bytes : List Byte) : Bool :=
  let L := bytes.length
  let declared := 20 + framePayloadLength bytes + 4
  L < 64 || 2048 < L || maxFrame < L || (declared != L && !(L == 64 && declared < 64))

/-- The port's three tests in their order; the reason of the first that fails (R11). -/
def portTest (s : State) (p : Slot) (truncated : Bool) (bytes : List Byte) : Option DropReason :=
  if truncated then some .noBuffer
  else if !checkPasses bytes then some .badCheck
  else if badLength (s.cardMaxFrame p) bytes then some .badLength
  else none

/-- The cells of an assembly and the bytes of the frame agree: a whole frame holds all its cells, and a truncated one
lacks at least one (R10, R44; LOG 20). -/
def Assembly.agrees (a : Assembly) (bytes : List Byte) : Bool :=
  if a.truncated then a.cells < cellsOf bytes.length else a.cells == cellsOf bytes.length

/-! ### Counters -/

/-- Which forwarded and dropped counters a frame counts in: those of no flow, of the default path, or of a flow. -/
inductive FlowRef where
  | none
  | default
  | flow (f : Fin 255)
deriving DecidableEq, Repr

/-- A drop against a slot and the flow the frame was matched to (R35). -/
def countDrop (n : Slot) (reason : DropReason) (f : FlowRef) (s : State) : State :=
  let t := s.updDrops n fun d => { d with byReason := d.byReason.update reason.index count32 }
  match f with
  | .none => t
  | .default => { t with fwd := { t.fwd with defaultDropped := count32 t.fwd.defaultDropped } }
  | .flow i => t.updFlow i fun x => { x with dropped := count32 x.dropped }

/-- A forwarded frame (R34). -/
def countForwarded (f : FlowRef) (s : State) : State :=
  match f with
  | .none => s
  | .default => { s with fwd := { s.fwd with defaultForwarded := count32 s.fwd.defaultForwarded } }
  | .flow i => s.updFlow i fun x => { x with forwarded := count32 x.forwarded }

/-- A dropped frame: it is counted, and its cells are freed (R35, R45). -/
def dropFrame (n : Slot) (reason : DropReason) (f : FlowRef) (s : State) : State :=
  discardAssembly n (countDrop n reason f s)

/-! ### Dispatch -/

/-- A frame is dispatched to a block of the hub: it counts in the slot's frames to hub, its cells are freed, and the
block takes it (R30, R45). -/
def dispatchFrame (n : Slot) (block : State → State) (s : State) : State :=
  block (discardAssembly n (s.updDrops n fun d => { d with framesToHub := count32 d.framesToHub }))

/-- The MGMT request of a frame (R178). -/
def requestOf (n : Slot) (bytes : List Byte) : Request := ⟨n, frameSeq bytes, framePayload bytes⟩

/-- A frame addressed to the hub, by its kind (R29, R30). -/
def dispatchByKind (n : Slot) (bytes : List Byte) (arrival : Stamp) (s : State) : State :=
  match frameKindOf bytes with
  | some .mgmt => dispatchFrame n (acceptRequest (requestOf n bytes)) s
  | some .probeReply =>
    dispatchFrame n (takeReply n (frameSeq bytes) (framePayload bytes) (framePayloadLength bytes) arrival) s
  | some .refTime =>
    dispatchFrame n (takeRefTime n (framePayload bytes) (framePayloadLength bytes) arrival) s
  | some .mail => dispatchFrame n (takeMail n (frameSeq bytes) (framePayload bytes)) s
  | some .test => dispatchFrame n id s
  | some .data | some .mgmtResp | some .probe | some .timeMark | some .mailAck | none => dropFrame n .noPath .none s

/-! ### Admission -/

/-- A copy's verdict is counted at its port (R49). -/
def countVerdict (v : Verdict) (p : Slot) (s : State) : State :=
  match v with
  | .admitted => s
  | .refused => countRefusal p s
  | .discarded => countDiscard p s

/-- The frame leaves its ingress assembly (R45). -/
def clearAssembly (n : Slot) (s : State) : State := s.updPort n fun q => { q with assembly := none }

/-- A card's frame is offered for admission at its destination ports (R34, R45, R49): the admitted copies join their
queues, and each of their ports takes a decision (R72). -/
def admitCard (n : Slot) (bytes : List Byte) (c : FrameClass) (ports : List Slot) (f : FlowRef) (s : State) : State :=
  let cells := cellsOf bytes.length
  let verdict (p : Slot) : Verdict := cardVerdict s p c cells
  let admitted := ports.filter fun p => verdict p == .admitted
  let counted := forEach ports (fun p t => countVerdict (verdict p) p t) s
  if !admitted.isEmpty then
    let stored := storeFrame (.card n bytes) c cells admitted (clearAssembly n counted)
    let held := if c = .sample then reexaminePause n stored else stored
    forEach admitted arbitrate (countForwarded f held)
  else if ports.any fun p => verdict p == .discarded then discardAssembly n (countForwarded f counted)
  else dropFrame n .noBuffer f (markExhaustion counted)

/-! ### DATA frames -/

/-- The default path allows a frame between two slots (R31). -/
def defaultAllows (s : State) (n d : Slot) : Bool :=
  let reachable (m : Slot) : Bool := (s.slot m).state == .standby || (s.slot m).state == .active
  d != n && (isControllerSlot n || isControllerSlot d) && reachable n && reachable d

/-- The copy list of a LIVE flow (R33). -/
def copyList (s : State) (n : Slot) (r : FlowRecord) : List Slot :=
  match r.dest with
  | .slot d => [d]
  | .group g => (s.groupMembers g).filter fun m => s.isActive m && m != n

/-- DEST_DOWN stands alone in a suspension set (R32). -/
def Suspension.destDownAlone (x : Suspension) : Bool := x.destDown && !x.sourceDown && !x.timing && !x.fit

/-- The reason for which a flow that is not LIVE drops a frame (R32). -/
def notLiveReason (f : Flow) : DropReason :=
  if f.state = .suspended ∧ f.suspension.destDownAlone = true then .noPath else .flowNotLive

/-- A DATA frame on a written flow: source, live, length, copies, admission (R32, R33, R34). -/
def forwardOnFlow (n : Slot) (bytes : List Byte) (i : Fin 255) (f : Flow) (r : FlowRecord) (s : State) : State :=
  if r.source ≠ n then dropFrame n .wrongSource (.flow i) s
  else if f.state ≠ .live then dropFrame n (notLiveReason f) (.flow i) s
  else if r.maxFrame < bytes.length then dropFrame n .tooLong (.flow i) s
  else
    match copyList s n r with
    | [] => dropFrame n .noPath (.flow i) s
    | p :: ps => admitCard n bytes r.cls (p :: ps) (.flow i) s

/-- A DATA frame addressed to a slot, on the default path or on a flow (R31, R32). -/
def forwardData (n : Slot) (bytes : List Byte) (s : State) : State :=
  match flowOfByte (frameByte bytes 4) with
  | none =>
    match slotOfNat (frameDest bytes) with
    | some d =>
      if defaultAllows s n d then admitCard n bytes .control [d] .default s else dropFrame n .noPath .default s
    | none => dropFrame n .noPath .default s
  | some i =>
    match (s.flow i).fields with
    | some r => forwardOnFlow n bytes i (s.flow i) r s
    | none => dropFrame n .unknownFlow .none s

/-- A frame that passed the port's tests goes through the ingress checks (R28, R29). -/
def forwardFrame (n : Slot) (bytes : List Byte) (arrival : Stamp) (s : State) : State :=
  let kind := frameKindOf bytes
  if kind ≠ some .test ∧ ((s.slot n).state = .linking ∨ (s.port n).link ≠ .up) then dropFrame n .notReady .none s
  else if frameDest bytes = 0 then dispatchByKind n bytes arrival s
  else if kind = some .data then forwardData n bytes s
  else dropFrame n .noPath .none s

/-! ### Reception end -/

/-- One more on a port's error count (R18). -/
def countError (p : Slot) (s : State) : State := s.updPort p fun q => { q with errorCount := count16 q.errorCount }

/-- A frame is taken whole at its reception end (R10, R11): counted, tested, judged as a test return while the link is
in TESTING, before it is handed on (R7), and handed to the forwarding unit with its arrival time. -/
def receiveFrame (p : Slot) (bytes : List Byte) (a : Assembly) (s : State) : State :=
  let arrival := s.hubNow
  let counted := countLink p (fun c => { c with framesReceived := count32 c.framesReceived }) s
  let failure := portTest s p a.truncated bytes
  let erred := if failure = some .badCheck then countError p counted else counted
  let judged := if (s.port p).link = .testing then judgeReturn p a.truncated bytes erred else erred
  match failure with
  | some reason => dropFrame p reason .none judged
  | none => forwardFrame p bytes arrival judged

end Sys2Proof.Machine
end

