-- ==== Sys2Proof/Machine/ClockEvents.lean ====
section
/-! DEFINITION. The meanings of the events of the two clocks, the timing pulse and the tracker's timers. -/

namespace Sys2Proof.Machine

/-! ### The local second -/

/-- The SLOT_LINK sample of a slot (R18). -/
def linkSample (s : State) (n : Slot) : Bool :=
  s.degraded n || (s.port n).errorThreshold ≤ (s.port n).errorCount || (s.port n).stallSeen

/-- A port's part of a local second: its sample is given, and the error count and stall seen roll over (R18). -/
def portSecond (n : Slot) (s : State) : State :=
  (samplePoint (slotLinkPoint n) (linkSample s n) s).updPort n fun q =>
    { q with lastErrorCount := q.errorCount, errorCount := 0, stallSeen := false }

/-- The SLOT_TIMING sample of a slot: a timing client without a delay record (R116). -/
def timingSample (s : State) (n : Slot) : Bool := (s.slotDelay n).client && (s.slotDelay n).delays.isNone

def timingSecond (n : Slot) (s : State) : State := samplePoint (slotTimingPoint n) (timingSample s n) s

/-- The queue manager's part: the BUFFER_EXHAUSTED sample is given and the mark cleared (R61). -/
def bufferSecond (s : State) : State :=
  let t := samplePoint bufferPoint s.qm.exhaustion s
  { t with qm := { t.qm with exhaustion := false } }

/-- LOCAL_SECOND: the per-second samples, the monitor's trigger and the uptime (R18, R61, R116, R156, R178; LOG 29). -/
def execLocalSecond (s : State) : Result :=
  let sampled := bufferSecond (forSlots timingSecond (forSlots portSecond s.begin))
  .next ((sampled.updMon (·.triggered s.now .localSecond)).updAgent fun a => { a with uptime := a.uptime + 1 })

/-! ### Hub time -/

/-- CALENDAR_SWAP: an armed calendar swaps, every port takes a new decision, and a drain whose egress the flush
emptied ends (R69, R70). -/
def execCalendarSwap (s : State) : Result :=
  let t := s.begin
  .next (if t.cal.arming.isSome then checkDrains (arbitrateAll (swapBanks t)) else t)

/-- WINDOW_OPEN: the port takes a new decision (R72). -/
def execWindowOpen (p : Slot) (s : State) : Result := .next (arbitrate p s.begin)

/-- WINDOW_END: the port takes a new decision (R72). -/
def execWindowEnd (p : Slot) (s : State) : Result := .next (arbitrate p s.begin)

/-- HUB_SECOND: hub time counts onto a whole second, the monitor's HUB_SECOND trigger (R156). -/
def execHubSecond (s : State) : Result := .next (s.begin.updMon (·.triggered s.now .hubSecond))

/-! ### The tracker -/

/-- The error of a pulse edge: the announced second and the compensation, less the hub time at the edge (R83). -/
def pulseError (s : State) : Option Int :=
  s.trk.srcP.announced.map fun sec => Stamp.minus ⟨sec, s.trk.source.pulseComp⟩ s.hubNow

/-- TIMING_PULSE_EDGE: an event of source P; the announced second becomes absent (R83, R85, R87). -/
def pulseEdge (s : State) : State :=
  if s.trk.srcP.state = .unavailable then s
  else takeEvent .P (pulseError s) (s.updSource .P fun r => { r with announced := none })

def execTimingPulseEdge (s : State) : Result := .next (checkDrains (pulseEdge s.begin))

/-- SILENCE_TIMEOUT: a CANDIDATE or QUALIFIED source whose silence timer has reached three intervals fails (R86). -/
def silenceTimeout (src : Source) (s : State) : State := if silent s src then failSource src s else s

def execSilenceTimeout (src : Source) (s : State) : Result := .next (silenceTimeout src s.begin)

/-- HOLDOFF_EXPIRY: a FAILED source whose holdoff timer has reached 10 local seconds enters CANDIDATE again (R86,
R87). -/
def holdoffExpiry (src : Source) (s : State) : State :=
  if holdoffOver s src then
    examineSelection (setSource src ((s.source src).candidate s.now) s)
  else s

def execHoldoffExpiry (src : Source) (s : State) : Result := .next (holdoffExpiry src s.begin)

/-- HOLDOVER_LIMIT_REACHED: the holdover timer has reached the limit, and the tracker enters FREERUN (R89, R90). -/
def holdoverEnd (s : State) : State := if holdoverOver s then enterTiming .freerun s else s

def execHoldoverLimitReached (s : State) : Result := .next (holdoverEnd s.begin)

/-! ### The delay unit's clocks -/

/-- PROBE_TICK: each client's outstanding probe is abandoned as a miss and a new PROBE asked for; the next tick comes
one interval later (R104). -/
def execProbeTick (s : State) : Result :=
  let t := s.begin
  .next (forSlots probeClient
    { t with delay := { t.delay with nextProbe := t.now + t.delay.config.probePeriod } })

/-- MARK_TICK: a TIME_MARK is asked for for each client with a delay record; the next tick comes one interval later
(R114). -/
def execMarkTick (s : State) : Result :=
  let t := s.begin
  .next (forSlots markClient { t with delay := { t.delay with nextMark := t.now + t.delay.config.markPeriod } })

end Sys2Proof.Machine
end

