-- ==== Sys2Proof/Machine/LinkEvents.lean ====
section
/-! DEFINITION. The meanings of the events of the slot links, and of power-on. An event that finds nothing to act on
has no effect (LOG 1). -/

namespace Sys2Proof.Machine

/-- POWER_ON: every block takes its initial values over the levels the input lines then have, and the alarm unit makes
its first evaluation (R1, R164). The queue of commands and the count of free values are the model's own and stay
(LOG 7). -/
def execPowerOn (s : State) : Result :=
  .next
    { State.atPowerOn (s.slots.slot.mapAll SlotRecord.lines) (s.alarm.inputs.mapAll ExtInput.rawOpen) with
      pending := s.pending, free := s.free }

/-- LANE_TRAINED: a lane that was offered joins the trained lanes, and training ends at its target (R3). -/
def laneTrained (p : Slot) (l : Lane) (s : State) : State :=
  let q := s.port p
  if q.link = .training ∧ q.laneGood.read l = true ∧ q.trained.contains l = false then
    let t := s.updPort p fun r => { r with trained := r.trained ++ [l] }
    if targetReached t p then endTraining p t else t
  else s

def execLaneTrained (p : Slot) (l : Lane) (s : State) : Result := .next (laneTrained p l s.begin)

/-- TRAINING_DEADLINE_EXPIRY: training ends with the lanes trained so far (R3). -/
def trainingExpiry (p : Slot) (s : State) : State :=
  if (s.port p).link = .training ∧ (s.port p).trainingDeadline.isSome = true then endTraining p s else s

def execTrainingDeadlineExpiry (p : Slot) (s : State) : Result := .next (checkDrains (trainingExpiry p s.begin))

/-- TEST_DEADLINE_EXPIRY: the far loop test fails (R7). -/
def testExpiry (p : Slot) (s : State) : State :=
  if (s.port p).link = .testing ∧ (s.port p).testDeadline.isSome = true then attemptFails p s else s

def execTestDeadlineExpiry (p : Slot) (s : State) : Result := .next (checkDrains (testExpiry p s.begin))

/-- LANE_FAILURE: a lane loses its lock (R8). A transmission lost to it may end a drain (R48); where no GOOD lane is left
the link is given up first, and the slot faults (R131; LOG 58). -/
def execLaneFailure (p : Slot) (l : Lane) (s : State) : Result := .next (checkDrains (failLane p l s.begin))

/-- A port receives frames in TESTING and UP (R10). -/
def receives (q : Port) : Bool := q.link == .testing || q.link == .up

/-- A cell request is granted: the shared account has a free cell, and the slot's held cells are below its quota
(R44). -/
def cellGranted (s : State) (p : Slot) : Bool := 1 ≤ s.sharedFree && s.heldCells p < (s.queueConfig p).quota

/-- CELL_REQUEST: the port asks for a cell at the first byte of a frame and at each later 64-byte boundary; a refusal
truncates the frame and marks exhaustion seen (R10, R44, R51, R61). A truncated frame asks for no more. -/
def cellRequest (p : Slot) (s : State) : State :=
  let a := (s.port p).assembly.getD ⟨0, false⟩
  if !receives (s.port p) || a.truncated then s
  else if cellGranted s p then
    reexaminePause p (s.updPort p fun q => { q with assembly := some { a with cells := a.cells + 1 } })
  else markExhaustion (s.updPort p fun q => { q with assembly := some { a with truncated := true } })

def execCellRequest (p : Slot) (s : State) : Result := .next (cellRequest p s.begin)

/-- FRAME_RECEPTION_END: the frame is rebuilt from what its logical lanes brought (R187), which are as many as the
port's lanes in use; a frame whose cells agree with its bytes is taken whole (R10; LOG 20). -/
def receptionEnd (p : Slot) (lanes : List (List Byte)) (s : State) : State :=
  let bytes := frameOfLanes lanes
  match (s.port p).assembly with
  | some a =>
    if receives (s.port p) && lanes.length == (s.port p).lanesInUse.length && a.agrees bytes then
      receiveFrame p bytes a s
    else s
  | none => s

def execFrameReceptionEnd (p : Slot) (lanes : List (List Byte)) (s : State) : Result :=
  .next (checkDrains (receptionEnd p lanes s.begin))

/-- TRANSMISSION_END: a frame is given back as sent and its reference returned; the port becomes free and takes a
decision. A TEST frame's cell is freed, and the next is sent (R6, R13, R47, R48, R60, R72). -/
def transmissionEnd (p : Slot) (s : State) : State :=
  let t := s.updPort p fun q => { q with transmission := none }
  match (s.port p).transmission with
  | some (.frame id _) =>
    arbitrate p (release id
      (t.updSq p fun q => { q with egress := { q.egress with sent := count32 q.egress.sent } }))
  | some (.test _ _) => arbitrate p (startTest p t)
  | none => s

def execTransmissionEnd (p : Slot) (s : State) : Result := .next (checkDrains (transmissionEnd p s.begin))

/-- HOLD_ON: card hold becomes ON and the hold timer starts for the slot's hold limit (R16, R53). -/
def holdOn (p : Slot) (s : State) : State :=
  if (s.port p).link = .up ∧ (s.port p).cardHold = false then
    (s.updPort p fun q => { q with cardHold := true }).updSq p fun q =>
      { q with hold := .holding, holdTimer := some (s.now + (s.queueConfig p).holdLimit * Config.ticksPerUs) }
  else s

def execHoldOn (p : Slot) (s : State) : Result := .next (holdOn p s.begin)

/-- The queue manager takes a hold release: it ends the hold in time and clears the stall count, or ends a stalled
state (R54). -/
def SlotQueues.released (q : SlotQueues) : SlotQueues :=
  match q.hold with
  | .holding => { q with hold := .none, holdTimer := none, stallCount := 0 }
  | .stalled => { q with hold := .none }
  | .none => q

/-- HOLD_OFF: card hold becomes OFF, the hold is released, and the port becomes free (R16, R54, R72). -/
def holdOff (p : Slot) (s : State) : State :=
  if (s.port p).link = .up ∧ (s.port p).cardHold = true then
    arbitrate p ((s.updPort p fun q => { q with cardHold := false }).updSq p SlotQueues.released)
  else s

def execHoldOff (p : Slot) (s : State) : Result := .next (holdOff p s.begin)

/-- DAMAGED_SYMBOL: the symbol is discarded and adds one to the error count; a link that is DOWN receives none (R17,
R18; LOG 37). -/
def damagedSymbol (p : Slot) (s : State) : State := if (s.port p).link = .down then s else countError p s

def execDamagedSymbol (p : Slot) (s : State) : Result := .next (damagedSymbol p s.begin)

/-- HOLD_TIMER_EXPIRY while HOLDING: the queues are flushed, the stall counted and seen, the port is STALLED; a drain
whose egress the flush emptied ends; and at the stall limit the slot faults (R55, R131; LOG 24). -/
def holdExpiry (p : Slot) (s : State) : State :=
  if (s.sq p).hold = .holding ∧ (s.sq p).holdTimer.isSome = true then
    let t := (flushAll p s).updSq p fun q =>
      { q with hold := .stalled, holdTimer := none, stallCount := min 15 (q.stallCount + 1) }
    let drained := checkDrain p (t.updPort p fun q => { q with stallSeen := true })
    if (t.queueConfig p).stallLimit ≤ (t.sq p).stallCount ∧ drained.isUp p = true then
      faultSlot p .stall none drained
    else drained
  else s

def execHoldTimerExpiry (p : Slot) (s : State) : Result := .next (holdExpiry p s.begin)

/-- RESERVE_WAITING_GRANT: the head of the reserve waiting list is granted while it fits the free cells (R46). -/
def execReserveWaitingGrant (s : State) : Result := .next (serveReserve (grantBound s.begin) s.begin)

end Sys2Proof.Machine
end

