-- ==== Sys2Proof/Machine/SlotEvents.lean ====
section
/-! DEFINITION. The meanings of the events of the slot lines, the sideband, the monitor's converter, the external
inputs and the supply. -/

namespace Sys2Proof.Machine

/-! ### Presence and latch -/

/-- The debounce of a line after its raw level changed: it starts where the raw level differs from the debounced one,
and is cancelled where it does not (R120, R171). -/
def debounceAt (raw debounced : Bool) (deadline : Nat) : Option Nat := if raw = debounced then none else some deadline

/-- RAW_PRESENCE_CHANGE: the line takes a level. A line that repeats its level has not changed (R120). -/
def rawPresence (n : Slot) (present : Bool) (s : State) : State :=
  if (s.slot n).lines.rawPresent = present then s
  else
    s.updSlot n fun r =>
      { r with
        lines := { r.lines with rawPresent := present }
        presenceDebounce := debounceAt present r.present (s.now + Config.presenceTicks) }

def execRawPresenceChange (n : Slot) (present : Bool) (s : State) : Result := .next (rawPresence n present s.begin)

/-- A presence change to present seats the card: INSERTED, and with the latch CLOSED at once IDENTIFYING (R121). -/
def seatCard (n : Slot) (s : State) : State :=
  if (s.slot n).state = .empty then
    let t := enterInserted n (countSlot n (fun c => { c with insertions := count32 c.insertions }) s)
    if (t.slot n).closed then enterIdentifying n t else t
  else s

/-- PRESENCE_DEBOUNCED: the debounced presence takes the raw level (R120, R121, R134). -/
def presenceDebounced (n : Slot) (s : State) : State :=
  if (s.slot n).presenceDebounce.isSome then
    let present := (s.slot n).lines.rawPresent
    let t := s.updSlot n fun r => { r with present := present, presenceDebounce := none }
    if present then seatCard n t else if (t.slot n).state = .empty then t else toEmpty n t
  else s

def execPresenceDebounced (n : Slot) (s : State) : Result := .next (presenceDebounced n s.begin)

/-- RAW_LATCH_CHANGE: the line takes a level (R120). -/
def rawLatch (n : Slot) (closed : Bool) (s : State) : State :=
  if (s.slot n).lines.rawClosed = closed then s
  else
    s.updSlot n fun r =>
      { r with
        lines := { r.lines with rawClosed := closed }
        latchDebounce := debounceAt closed r.closed (s.now + Config.latchTicks) }

def execRawLatchChange (n : Slot) (closed : Bool) (s : State) : Result := .next (rawLatch n closed s.begin)

/-- A latch change to CLOSED: INSERTED, QUIESCED and FAULTED go to IDENTIFYING (R121, R129, R132). -/
def latchClosed (n : Slot) (s : State) : State :=
  match (s.slot n).state with
  | .inserted | .quiesced | .faulted => enterIdentifying n s
  | .empty | .identifying | .waitingPower | .powering | .linking | .standby | .active | .draining => s

/-- A latch change to OPEN: STANDBY and ACTIVE drain, the states before them go back to INSERTED (R128, R130). -/
def latchOpened (n : Slot) (s : State) : State :=
  match (s.slot n).state with
  | .standby | .active => enterDraining n s
  | .identifying | .waitingPower | .powering | .linking => backToInserted n s
  | .empty | .inserted | .draining | .quiesced | .faulted => s

/-- LATCH_DEBOUNCED: the debounced latch takes the raw level (R120, R121, R128, R130). -/
def latchDebounced (n : Slot) (s : State) : State :=
  if (s.slot n).latchDebounce.isSome then
    let closed := (s.slot n).lines.rawClosed
    let t := s.updSlot n fun r => { r with closed := closed, latchDebounce := none }
    if closed then latchClosed n t else latchOpened n t
  else s

def execLatchDebounced (n : Slot) (s : State) : Result := .next (latchDebounced n s.begin)

/-! ### Power lines and timers -/

/-- POWER_GOOD_TRUE: the line is true; a POWERING slot enters LINKING (R124). -/
def powerGood (n : Slot) (s : State) : State :=
  let t := s.updSlot n fun r => { r with lines := { r.lines with powerGood := true } }
  if (t.slot n).state = .powering then enterLinking n t else t

def execPowerGoodTrue (n : Slot) (s : State) : Result := .next (powerGood n s.begin)

/-- POWER_GOOD_LOST: the line is false; LINKING and the up states fault with NO_POWER_GOOD (R131). -/
def powerLost (n : Slot) (s : State) : State :=
  let t := s.updSlot n fun r => { r with lines := { r.lines with powerGood := false } }
  if (t.slot n).state = .linking ∨ (t.slot n).state.isUp = true then faultSlot n .noPowerGood none t else t

def execPowerGoodLost (n : Slot) (s : State) : Result := .next (powerLost n s.begin)

/-- FAST_FAULT: the line takes a level (LOG 6); as it becomes active a power-on state faults with OVERCURRENT (R131). -/
def fastFault (n : Slot) (active : Bool) (s : State) : State :=
  let t := s.updSlot n fun r => { r with lines := { r.lines with fastFault := active } }
  if active && !(s.slot n).lines.fastFault && (t.slot n).state.poweredOn then faultSlot n .overcurrent none t else t

def execFastFault (n : Slot) (active : Bool) (s : State) : Result := .next (fastFault n active s.begin)

/-- SOFT_START_EXPIRY: a POWERING slot without power good faults with NO_POWER_GOOD (R124). -/
def softStartExpiry (n : Slot) (s : State) : State :=
  if (s.slot n).state = .powering ∧ (s.slot n).softStart.isSome = true then faultSlot n .noPowerGood none s else s

def execSoftStartExpiry (n : Slot) (s : State) : Result := .next (softStartExpiry n s.begin)

/-- DRAIN_TIMEOUT: the port's queues are flushed and the slot enters QUIESCED (R129). -/
def drainExpiry (n : Slot) (s : State) : State :=
  if (s.slot n).state = .draining ∧ (s.slot n).drainTimer.isSome = true then timeOutDrain n s else s

def execDrainTimeout (n : Slot) (s : State) : Result := .next (drainExpiry n s.begin)

/-! ### The sideband -/

/-- The identity outcome of a settled entry is reported, and the next transaction starts (R122, R143). -/
def afterSettling (r : State × Option (Slot × IdentityOutcome)) : State :=
  startTransaction (match r.2 with
    | some (n, o) => takeIdentity n o r.1
    | none => r.1)

/-- SIDEBAND_TRANSACTION_END: the running transaction ends on the wire and its entry is settled (R143–R148, R150). An
end that the transaction has not come to is no end of it (LOG 1, 17). -/
def transactionEnd (e : SidebandEnd) (s : State) : State :=
  match s.side.current, s.side.queue with
  | some t, _ :: _ =>
    if !t.aborting && t.endsSo s.now e then
      afterSettling (settleEntry (endOutcome e) (endMap e) (endBytes e) s)
    else s
  | _, _ => s

def execSidebandTransactionEnd (e : SidebandEnd) (s : State) : Result := .next (transactionEnd e s.begin)

/-- HOLD_TIMEOUT: a card's clock hold in a phase of the current transaction reached 10 ms. The transaction ends with
its acknowledge map as it stands, as HOLD_TIMEOUT or with the failure that came before it, and its entry is settled; in
an abort, the abort ends (R145, R146, R149, R150). -/
def transactionHeld (phase : SidebandPhase) (s : State) : State :=
  match s.side.current with
  | some t =>
    if t.phase = phase ∧ t.holdOver s.now = true then
      if t.aborting then startTransaction (endTransaction s)
      else afterSettling (settleEntry (holdOutcome t.map) t.map [] s)
    else s
  | none => s

def execHoldTimeout (phase : SidebandPhase) (s : State) : Result := .next (transactionHeld phase s.begin)

/-! ### The converter -/

/-- A condition on a result: outside its thresholds, which a raised point moves inward by the hysteresis; a side whose
threshold is absent is left out (R159). -/
def condition (raised : Bool) (h : Nat) (low high : Option Nat) (r : Nat) : Bool :=
  let m : Int := if raised then h else 0
  (high.any fun t => (t : Int) - m < r) || (low.any fun t => (r : Int) < t + m)

/-- A slot current channel is judged only while its slot is powered (R160). -/
def channelJudged (s : State) (c : Channel) : Bool :=
  match channelSlot c with
  | some n => s.mon.powered.read n
  | none => true

/-- A channel's warning and critical conditions for a result (R159, R160). -/
def warningOf (s : State) (c : Channel) (r : Nat) : Bool :=
  let k := s.channel c
  channelJudged s c && condition (s.point (warnPoint c)).state.raised k.hysteresis k.warnLow k.warnHigh r

def criticalOf (s : State) (c : Channel) (r : Nat) : Bool :=
  let k := s.channel c
  channelJudged s c && condition (s.point (critPoint c)).state.raised k.hysteresis k.critLow k.critHigh r

/-- The alarm unit's reports on a critical point that moved (R170). -/
def criticalReports (id : PointId) (old : PointState) (s : State) : State :=
  criticalEntered id old (if id = rectifierPoint then updateBudget s else s)

/-- The pass goes on to its next channel, whose conversion begins at the completion of the one before, or ends
(R157). -/
def Monitor.advance (m : Monitor) (now : Nat) : Monitor :=
  match m.pass.drop 1 with
  | [] => m.passEnd now
  | c :: cs => m.scan now (c :: cs)

/-- A conversion of a channel completes: result, conditions, samples, counter; and the pass goes on (R157, R158). -/
def convert (c : Channel) (r : Nat) (s : State) : State :=
  let w := warningOf s c r
  let k := criticalOf s c r
  let kept := s.updChannel c fun ch => { ch with last := some r, warning := some w, critical := some k }
  let old := (s.point (critPoint c)).state
  let sampled := samplePoint (critPoint c) k (samplePoint (warnPoint c) w kept)
  let counted := sampled.updMon fun m =>
    let next := m.advance s.now
    { next with counters := { next.counters with conversions := count32 m.counters.conversions } }
  criticalReports (critPoint c) old counted

/-- A conversion is in progress and its 20 µs are over (R157). -/
def Monitor.conversionDue (m : Monitor) (now : Nat) : Bool := m.state == .scanning && m.conversionEnd.any (· ≤ now)

/-- CONVERSION_COMPLETE: the conversion in progress completes (R157, R158). -/
def conversionComplete (result : BitVec 10) (s : State) : State :=
  match s.mon.conversionDue s.now, s.mon.pass with
  | true, c :: _ => convert c result.toNat s
  | _, _ => s

def execConversionComplete (result : BitVec 10) (s : State) : Result := .next (conversionComplete result s.begin)

/-! ### External inputs and the supply -/

/-- The condition of an external input: its debounced level is the state its polarity names (R171). -/
def ExtInput.condition (i : ExtInput) : Bool := i.debouncedOpen == i.alarmWhenOpen

/-- RAW_EXT_INPUT_CHANGE: the line takes a level (R171). -/
def rawInput (i : Fin 4) (isOpen : Bool) (s : State) : State :=
  if (s.input i).rawOpen = isOpen then s
  else
    s.updInput i fun x =>
      { x with
        rawOpen := isOpen
        debounce := debounceAt isOpen x.debouncedOpen (s.now + Config.extInputTicks) }

def execRawExtInputChange (i : Fin 4) (isOpen : Bool) (s : State) : Result := .next (rawInput i isOpen s.begin)

/-- EXT_INPUT_DEBOUNCED: the debounced level takes the raw one, and the condition is reported (R171). -/
def inputDebounced (i : Fin 4) (s : State) : State :=
  if (s.input i).debounce.isSome then
    let t := s.updInput i fun x => { x with debouncedOpen := x.rawOpen, debounce := none }
    reportCondition (extInputPoint i) (t.input i).condition t
  else s

def execExtInputDebounced (i : Fin 4) (s : State) : Result := .next (inputDebounced i s.begin)

/-- SUPPLY_LOSS: both relays fall into their alarm position (R169; LOG 16). -/
def execSupplyLoss (s : State) : Result := .next (setRelays (s.begin.updAlarm fun a => { a with supplied := false }))

end Sys2Proof.Machine
end

