-- ==== Sys2Proof/Machine/Clock.lean ====
section
/-! DEFINITION. What the hub does by itself when no command waits: the events that come about at once, and the tick of
the oscillator with the events whose time it brings (LOG 2, 3). -/

namespace Sys2Proof.Machine

/-- The event that comes about at once: a grant where the head of the reserve waiting list fits, be it that cells were
freed or that the head before it was withdrawn (R46; LOG 48), and otherwise the taking of the request at the head of the
agent's queue (R179). The group that a WRITE_GROUP names is then a free value (LOG 35). -/
def State.immediate (s : State) : Option Instr :=
  if headFits s then some .reserveWaitingGrant
  else if s.mayTake then (s.agent.queue.head?).map fun r => decodeRequest s.freeByte r.payload
  else none

/-- Hub time counts onto an instant at a cycle offset `x` between two numbers of ns, the second one included (R63). -/
def countsOnto (cycle x before after : Nat) : Bool := (before + cycle - x) / cycle < (after + cycle - x) / cycle

/-- The whole nanoseconds that the next tick adds to hub time (R79). -/
def TimeBase.gain (t : TimeBase) : Nat := (t.frac + t.increment) / 2 ^ 32

/-- A deadline has come. -/
def dueAt (now : Nat) (deadline : Option Nat) : Bool := deadline.any (· ≤ now)

/-- A command for each slot for which something holds, in ascending order. -/
def slotsWhere (f : Slot → Bool) (c : Slot → Instr) : List Instr := (allSlots.filter f).map c

/-- A command where something holds. -/
def commandIf (b : Bool) (c : Instr) : List Instr := if b then [c] else []

/-- A port's transmission ends at or before a local time in ns. -/
def transmissionDue (nowNs : Nat) (p : Port) : Bool :=
  match p.transmission with
  | some (.frame _ endsAt) | some (.test _ endsAt) => endsAt ≤ nowNs
  | none => false

/-- The windows of a port that end or open as hub time counts on (R63, R72). -/
def windowEvents (b : Bank) (before after : Nat) (p : Slot) : List Instr :=
  let ws := b.windows.read p
  commandIf (ws.any fun w => countsOnto b.cycle w.finish before after) (.windowEnd p) ++
    commandIf (ws.any fun w => countsOnto b.cycle w.start before after) (.windowOpen p)

/-- The events of hub time that a tick brings: `before` and `after` are hub time in ns around it (R63, R69, R156). -/
def hubTimeEvents (s : State) (before after : Nat) : List Instr :=
  commandIf (s.cal.arming.isSome && reachesMultiple s.cal.pendingBank.cycle before after) .calendarSwap ++
    allSlots.flatMap (windowEvents s.cal.active before after) ++
    commandIf (reachesMultiple Config.nsPerSecond before after) .hubSecond

/-- The events of the ports and queues that local time brings. -/
def portEvents (s : State) : List Instr :=
  slotsWhere (fun p => transmissionDue s.nowNs (s.port p)) .transmissionEnd ++
    slotsWhere (fun p => (s.port p).link == .training && dueAt s.now (s.port p).trainingDeadline)
      .trainingDeadlineExpiry ++
    slotsWhere (fun p => (s.port p).link == .testing && dueAt s.now (s.port p).testDeadline) .testDeadlineExpiry ++
    slotsWhere (fun p => (s.sq p).hold == .holding && dueAt s.now (s.sq p).holdTimer) .holdTimerExpiry

/-- The events of the slot controller and the external inputs that local time brings. -/
def slotTimerEvents (s : State) : List Instr :=
  slotsWhere (fun n => dueAt s.now (s.slot n).presenceDebounce) .presenceDebounced ++
    slotsWhere (fun n => dueAt s.now (s.slot n).latchDebounce) .latchDebounced ++
    slotsWhere (fun n => (s.slot n).state == .powering && dueAt s.now (s.slot n).softStart) .softStartExpiry ++
    slotsWhere (fun n => (s.slot n).state == .draining && dueAt s.now (s.slot n).drainTimer) .drainTimeout ++
    ([0, 1, 2, 3] : List (Fin 4)).flatMap fun i =>
      commandIf (dueAt s.now (s.input i).debounce) (.extInputDebounced i)

/-- The events of the tracker's timers and of the probe and mark clocks that local time brings. -/
def timingTimerEvents (s : State) : List Instr :=
  [Source.P, Source.N].flatMap (fun src => commandIf (silent s src) (.silenceTimeout src)) ++
    [Source.P, Source.N].flatMap (fun src => commandIf (holdoffOver s src) (.holdoffExpiry src)) ++
    commandIf (holdoverOver s) .holdoverLimitReached ++ commandIf (s.delay.nextProbe ≤ s.now) .probeTick ++
    commandIf (s.delay.nextMark ≤ s.now) .markTick

/-- Whole local seconds fall on multiples of 125,000,000 oscillator periods (00 Conventions). -/
def localSecondDue (s : State) : Bool := s.now % Config.ticksPerSecond == 0

/-- One period of the oscillator passes for the monitor: a conversion whose 20 µs are over completes, with a result that
is a free value (R157; LOG 33). -/
def tickMonitor (s : State) : State × List Instr :=
  if s.mon.conversionDue s.now then (s.drawn, [.conversionComplete (Config.analogResult s.free)]) else (s, [])

/-- One tick of the oscillator: hub time advances by the increment, local time by one period, the sideband and the
monitor go on, and the events whose time has come wait to be taken, in an order the model fixes (R79; LOG 2, 3). -/
def State.tick (s : State) : State :=
  let before := s.hubNow.toNs
  let after := before + s.time.gain
  let t := { s.begin with time := s.time.advance }
  let side := tickSideband t
  let mon := tickMonitor side.1
  { mon.1 with
    pending := portEvents t ++ hubTimeEvents t before after ++ commandIf (localSecondDue t) .localSecond ++
      slotTimerEvents t ++ timingTimerEvents t ++ side.2 ++ mon.2 }

end Sys2Proof.Machine
end

