-- ==== Sys2Proof/Machine/HubRequests.lean ====
section
/-! DEFINITION. The meanings of the requests of chapter 11: unknown requests, READ_HUB, HUB_RESET and the counters;
and the forms that every request's effect is written in. -/

namespace Sys2Proof.Machine

/-! ### Forms of effects -/

/-- A request that is answered OK with results (R179). -/
def okWith (results : List Byte) (s : State) : Effect := (s, some (.ok, results))

/-- A request that names a slot or port: outside 1–12 it is refused BAD_INDEX. -/
def withSlot (b : Byte) (f : Slot → State → Effect) (s : State) : Effect :=
  match slotOfByte b with
  | some n => f n s
  | none => refusedWith .badIndex s

/-- A request whose flag or code is not in its table is refused BAD_VALUE (R188). -/
def withValue {α : Type} (o : Option α) (f : α → State → Effect) (s : State) : Effect :=
  match o with
  | some a => f a s
  | none => refusedWith .badValue s

/-- The meaning of a request: its taking by the agent (R179). -/
def request (i : Instr) (effect : Request → State → Effect) (s : State) : Result :=
  .next (takeRequest i effect s.begin)

/-! ### Unknown requests and READ_HUB -/

/-- UNKNOWN_REQUEST is answered BAD_REQUEST, and nothing changes (R179). -/
def execUnknownRequest (s : State) : Result := request .unknownRequest (fun _ => refusedWith .badRequest) s

/-- The agent counters (R185). -/
def AgentCounters.bytes (c : AgentCounters) : List Byte :=
  u32 c.accepted ++ u32 c.refused ++ u32 c.made ++ u32 c.withdrawn ++ u32 c.unsent

/-- The in-flight records of a kind. -/
def State.inflightOf (s : State) (k : InFlightKind) : Nat := (s.agent.inflight.filter (·.kind == k)).length

/-- What READ_HUB carries (R184; LOG 11). -/
def hubResults (s : State) : List Byte :=
  u16 Config.makerCode ++ u16 Config.partNumber ++ u8 Config.partRevision ++ u64 s.agent.uptime ++
    u8 s.agent.queue.length ++ u8 (s.inflightOf .commit) ++ u8 (s.inflightOf .rawRead) ++ u8 (s.inflightOf .wait) ++
    u8 s.agent.responses.length ++ s.agent.counters.bytes

/-- READ_HUB (R184). -/
def execReadHub (s : State) : Result := request .readHub (fun _ t => okWith (hubResults t) t) s

/-! ### Counters -/

/-- Every statistics counter of the blocks but the agent's is set to 0, the alarm raise counts included (R185 and the
counter rules of each chapter). -/
def clearBlockCounters (s : State) : State :=
  { s with
    ports := s.ports.mapAll fun p => { p with counters := ⟨0, 0, 0, 0⟩ }
    fwd := { s.fwd with
      flows := s.fwd.flows.mapAll fun f => { f with forwarded := 0, dropped := 0 }
      defaultForwarded := 0, defaultDropped := 0, drops := Table.fill .zero }
    qm := { s.qm with slot := s.qm.slot.mapAll fun q => { q with egress := .zero } }
    trk := { s.trk with counters := .zero }
    delay := { s.delay with slot := s.delay.slot.mapAll fun d => { d with counters := .zero } }
    slots := { s.slots with slot := s.slots.slot.mapAll fun r => { r with counters := .zero } }
    side := { s.side with counters := Table.fill ⟨0, 0, 0⟩ }
    mon := { s.mon with counters := ⟨0, 0, 0, 0⟩ }
    alarm := { s.alarm with
      points := s.alarm.points.mapAll fun p => { p with raiseCount := 0 }
      counters := ⟨0, 0, 0, 0, 0⟩ } }

/-- The agent's counters are set to 0 (R185). -/
def clearAgentCounters (s : State) : State := s.updAgent fun a => { a with counters := ⟨0, 0, 0, 0, 0⟩ }

/-- CLEAR_COUNTERS (R185). -/
def execClearCounters (s : State) : Result :=
  request .clearCounters (fun _ t => okWith [] (clearAgentCounters (clearBlockCounters t))) s

/-- The link counters (R19). -/
def LinkCounters.bytes (c : LinkCounters) : List Byte :=
  u32 c.framesReceived ++ u32 c.failedAttempts ++ u32 c.retrains ++ u32 c.laneFailures

/-- The drop counters by reason, and frames to hub (R35). -/
def DropCounters.bytes (d : DropCounters) : List Byte := d.byReason.toList.flatMap u32 ++ u32 d.framesToHub

/-- The egress counters (R60). -/
def EgressCounters.bytes (c : EgressCounters) : List Byte :=
  u32 c.sent ++ u32 c.discards ++ u32 c.stallDiscards ++ u32 c.sampleRefusals ++ u32 c.losses

/-- The levels of a slot: held cells, paused, hold state and stall count (R60). -/
def slotLevels (s : State) (n : Slot) : List Byte :=
  let q := s.sq n
  u16 (s.heldCells n) ++ flag q.paused ++ [q.hold.code] ++ u8 q.stallCount

/-- The levels of a port: the frames in each of the four queues, and the SAMPLE occupancy (R60). -/
def portLevels (s : State) (p : Slot) : List Byte :=
  let q := (s.sq p).queues
  u16 q.sample.length ++ u8 q.timing.length ++ u16 q.control.length ++ u16 q.bulk.length ++ u16 (s.sampleOccupancy p)

/-- The queue manager's levels: the pool, each slot, each port (R60; LOG 38). -/
def queueLevels (s : State) : List Byte :=
  u16 s.sharedFree ++ u16 s.reserveFree ++ allSlots.flatMap (slotLevels s) ++ allSlots.flatMap (portLevels s)

/-- What READ_COUNTERS carries (R185). -/
def counterResults (s : State) (n : Slot) : List Byte :=
  (s.port n).counters.bytes ++ (s.fwd.drops.read n).bytes ++ (s.sq n).egress.bytes ++ queueLevels s ++
    s.agent.counters.bytes

/-- READ_COUNTERS (R185). -/
def execReadCounters (slot : Byte) (s : State) : Result :=
  request (.readCounters slot) (fun _ => withSlot slot fun n t => okWith (counterResults t n) t) s

/-! ### HUB_RESET -/

/-- A port at a HUB_RESET: its assembly is discarded, card hold becomes OFF, and the error window and stall seen are
cleared (R20). -/
def resetPort (p : Slot) (s : State) : State :=
  (discardAssembly p s).updPort p fun q =>
    { q with cardHold := false, errorCount := 0, lastErrorCount := 0, stallSeen := false }

/-- A bring-up in progress starts again from TRAINING at attempt 1, lane health staying as it is (R20). -/
def restartBringUp (p : Slot) (s : State) : State :=
  match (s.port p).link with
  | .training | .testing =>
    beginTraining p ((dropTests p s).updPort p fun q => { q with attempt := 1, trainingDeadline := none })
  | .down | .up => s

/-- A port's part of the queue manager at a HUB_RESET: its queues are flushed, and its hold and stall count end (R59). -/
def resetQueues (p : Slot) (s : State) : State :=
  (flushAll p s).updSq p fun q => { q with hold := .none, holdTimer := none, stallCount := 0 }

/-- The queue manager and the ports at a HUB_RESET (R20, R59): flushes, discarded assemblies, the reserve waiting list
emptied, exhaustion cleared, every pause released, and the bring-ups in progress started again, each of these for the
ports in ascending order (LOG 60). -/
def resetTraffic (s : State) : State :=
  let flushed := forSlots resetPort (forSlots resetQueues s)
  let emptied := { flushed with qm := { flushed.qm with waiting := [], exhaustion := false } }
  forSlots restartBringUp (forSlots (fun n => setPaused n false) emptied)

/-- The alarm unit at a HUB_RESET: the waits go, then the pending notices, with the overflow mark set; the
acknowledgement queue is emptied, and with it goes the alarm unit's entry in the reserve waiting list (R46, R174,
R175). -/
def resetAlarms (s : State) : State :=
  withdrawMaker .alarm (s.updAlarm fun a => { a with waits := [], notices := [], overflow := true, acks := [] })

/-- The calendar at a HUB_RESET: the arming is cancelled (R71). -/
def resetCalendar (s : State) : State := s.updCal fun c => { c with arming := none }

/-- Every block but the agent applies its reset (R183; LOG 25). -/
def resetBlocks (s : State) : State :=
  let traffic := resetTraffic (s.updAgent fun a => { a with
    responses := [], counters := { a.counters with withdrawn := addCount32 a.counters.withdrawn a.responses.length } })
  checkDrains (clearBlockCounters (resetAlarms (resetSideband (abandonProbes (resetCalendar traffic)))))

/-- The agent's steps 2 to 4 of a HUB_RESET: RESET for each in-flight record and for each queued request, then the
counters to 0 (R183). -/
def resetAgent (s : State) : State :=
  let ended := forEach (s.agent.inflight.map InFlight.record) (fun r => complete r .reset []) s
  let queued := ended.agent.queue
  let emptied := ended.updAgent fun a => { a with queue := [] }
  clearAgentCounters (forEach queued (fun r => answer .taken r .reset []) emptied)

/-- HUB_RESET (R183). -/
def execHubReset (s : State) : Result := request .hubReset (fun _ t => okWith [] (resetAgent (resetBlocks t))) s

end Sys2Proof.Machine
end

