-- ==== Sys2Proof/Machine/AlarmRequests.lean ====
section
/-! DEFINITION. The meanings of the requests of chapters 9 and 10: the monitor, alarm points, waits and mail. -/

namespace Sys2Proof.Machine

/-! ### The monitor -/

/-- A channel's record, in the order of the table of 9.1 (R162). -/
def ChannelRecord.bytes (c : ChannelRecord) : List Byte :=
  optional 2 u16 c.last ++ flag c.inScan ++ optional 2 u16 c.critLow ++ optional 2 u16 c.warnLow ++
    optional 2 u16 c.warnHigh ++ optional 2 u16 c.critHigh ++ u8 c.hysteresis ++ optional 1 flag c.warning ++
    optional 1 flag c.critical

/-- A threshold above 1,023 is taken as 1,023 (R162). -/
def takenThreshold (o : Option Nat) : Option Nat := o.map (min 1023)

/-- The four thresholds, none where a presence byte is not in its table (R188). -/
def thresholdsOf (a b c d : RawOptional) : Option (Option Nat × Option Nat × Option Nat × Option Nat) := do
  let a ← optionalOf a
  let b ← optionalOf b
  let c ← optionalOf c
  let d ← optionalOf d
  return (a, b, c, d)

/-- SET_THRESHOLDS's effect: all five items of the channel's record are replaced (R162). -/
def setThresholds (c : Channel) (hysteresis : Byte) (v : Option Nat × Option Nat × Option Nat × Option Nat)
    (s : State) : Effect :=
  let t := s.updChannel c fun ch =>
    { ch with
      critLow := takenThreshold v.1, warnLow := takenThreshold v.2.1, warnHigh := takenThreshold v.2.2.1
      critHigh := takenThreshold v.2.2.2, hysteresis := min 63 hysteresis.toNat }
  okWith (t.channel c).bytes t

/-- SET_THRESHOLDS (R162). -/
def execSetThresholds (channel : Byte) (critLow warnLow warnHigh critHigh : RawOptional) (hysteresis : Byte)
    (s : State) : Result :=
  request (.setThresholds channel critLow warnLow warnHigh critHigh hysteresis)
    (fun _ t =>
      match channelOfByte channel with
      | some c => withValue (thresholdsOf critLow warnLow warnHigh critHigh) (setThresholds c hysteresis) t
      | none => refusedWith .badIndex t) s

/-- The in-scan flags as two bytes, bit c for channel c (R188). -/
def scanBits (m : Monitor) : Nat := (allChannels.map fun c => if (m.channel.read c).inScan then 2 ^ c.val else 0).sum

/-- What MONITOR_START carries: the values taken and the monitor state (R155). -/
def monitorResults (m : Monitor) : List Byte :=
  [m.mode.code, m.trigger.code] ++ u8 m.single.val ++ u16 (scanBits m) ++ [m.state.code]

/-- The monitor with the values of a MONITOR_START, started or waiting (R155). -/
def Monitor.start (m : Monitor) (mode : MonitorMode) (trigger : MonitorTrigger) (single : Channel)
    (scan : BitVec 16) (now : Nat) : Monitor :=
  let set : Monitor :=
    { m with
      mode := mode, trigger := trigger, single := single
      channel := Table.build fun c => { m.channel.read c with inScan := scan.getLsbD c.val } }
  match trigger with
  | .software => set.beginPass now
  | .localSecond | .hubSecond => { set with state := .waiting }

/-- The SINGLE channel taken: with SINGLE one outside 0–15 is refused; with another mode it is taken as 15 (R155,
R179; LOG 39). -/
def singleOf (mode : MonitorMode) (single : Byte) : Option Channel :=
  match channelOfByte single with
  | some c => some c
  | none => if mode = .single then none else some 15

/-- MONITOR_START's checks in their order, and its effect (R155). -/
def monitorStart (mode trigger single : Byte) (scan : BitVec 16) (s : State) : Effect :=
  if s.mon.state = .scanning then
    refusedWith .busy (s.updMon fun m => { m with counters := { m.counters with ignored := count32 m.counters.ignored } })
  else
    match MonitorMode.ofCode mode.toNat, MonitorTrigger.ofCode trigger.toNat with
    | some k, some t =>
      if k = .continuous ∧ t ≠ .software then refusedWith .badValue s
      else
        match singleOf k single with
        | some c =>
          let u := s.updMon fun m => m.start k t c scan s.now
          okWith (monitorResults u.mon) u
        | none => refusedWith .badIndex s
    | _, _ => refusedWith .badValue s

/-- MONITOR_START (R155). -/
def execMonitorStart (mode trigger single : Byte) (scan : BitVec 16) (s : State) : Result :=
  request (.monitorStart mode trigger single scan) (fun _ => monitorStart mode trigger single scan) s

/-- The channel whose conversion is in progress (R163). -/
def Monitor.converting (m : Monitor) : Option Channel := if m.state = .scanning then m.pass.head? else none

/-- MONITOR_STOP: the monitor stops, and a conversion in progress is abandoned (R161). -/
def monitorStop (s : State) : Effect :=
  let abandoned := s.mon.converting
  okWith (optional 1 (fun c : Channel => u8 c.val) abandoned)
    (s.updMon fun m =>
      { m with
        state := .stopped, pass := [], conversionEnd := none
        counters := if abandoned.isSome then { m.counters with abandoned := count32 m.counters.abandoned }
          else m.counters })

/-- MONITOR_STOP (R161). -/
def execMonitorStop (s : State) : Result := request .monitorStop (fun _ => monitorStop) s

/-- A channel as READ_MONITOR carries it, with the powered flag of a slot channel (R163). -/
def monitorChannelBytes (m : Monitor) (c : Channel) : List Byte :=
  (m.channel.read c).bytes ++
    match channelSlot c with
    | some n => flag (m.powered.read n)
    | none => []

/-- What READ_MONITOR carries (R163). -/
def readMonitorResults (m : Monitor) : List Byte :=
  [m.state.code, m.mode.code, m.trigger.code] ++ u8 m.single.val ++
    optional 1 (fun c : Channel => u8 c.val) m.converting ++ allChannels.flatMap (monitorChannelBytes m) ++
    u32 m.counters.conversions ++ u32 m.counters.passes ++ u32 m.counters.abandoned ++ u32 m.counters.ignored

/-- READ_MONITOR (R163). -/
def execReadMonitor (s : State) : Result := request .readMonitor (fun _ t => okWith (readMonitorResults t.mon) t) s

/-! ### Alarm points -/

/-- A point's record, in the order of the table of 10.1; its name is its id's (R168, R177; LOG 12). -/
def pointBytes (s : State) (id : PointId) : List Byte :=
  let p := s.point id
  u8 id.val ++ [(pointKind id).code, p.severity.code] ++ flag p.enabled ++ optional 1 u8 p.raisePers ++
    optional 1 u8 p.clearPers ++ flag p.latched ++ [p.state.code] ++ u8 p.count ++ flag p.acked ++
    flag p.condition ++ u16 p.raiseCount ++ u64 p.lastChange

/-- The values that a SET_ALARM_POINT gives for a point (R168). -/
structure PointValues where
  enabled : Bool
  severity : Severity
  raise : Nat
  clear : Nat
  latched : Bool
  extra : Nat
deriving DecidableEq, Repr

/-- The values of SET_ALARM_POINT, none where a code or flag is not in its table; a polarity is examined for ids 85–88
alone (R168, R188). -/
def pointValuesOf (id : PointId) (enabled severity raisePers clearPers latched : Byte) (extra : BitVec 16) :
    Option PointValues := do
  let e ← flagOfByte enabled
  let v ← Severity.ofCode severity.toNat
  let l ← flagOfByte latched
  if (inputOfPoint id).isSome && 1 < extra.toNat then none
  else some ⟨e, v, clamp 1 255 raisePers.toNat, clamp 1 255 clearPers.toNat, l, extra.toNat⟩

/-- A point with the values of a SET_ALARM_POINT: persistences for a SAMPLED point alone, latched always for an EVENT
point (R168). -/
def Point.configured (p : Point) (kind : PointKind) (v : PointValues) : Point :=
  { p with
    enabled := v.enabled, severity := v.severity
    raisePers := if kind = .sampled then some v.raise else p.raisePers
    clearPers := if kind = .sampled then some v.clear else p.clearPers
    latched := v.latched || kind == .event }

/-- A HELD point that is no longer latched goes to CLEAR (R168), its persistence count to 0 (LOG 56). -/
def Point.unlatched (p : Point) : Point := if p.state = .held ∧ p.latched = false then p.enterClear else p

/-- The extra value: an error threshold for the point's port, or a polarity for the point's input, whose condition is
then formed again (R18, R168, R171). -/
def applyExtra (id : PointId) (extra : Nat) (s : State) : State :=
  match slotOfLinkPoint id, inputOfPoint id with
  | some n, _ => s.updPort n fun q => { q with errorThreshold := clamp 1 65535 extra }
  | none, some i =>
    let t := s.updInput i fun x => { x with alarmWhenOpen := extra == 0 }
    reportCondition id (t.input i).condition t
  | none, none => s

/-- The polarity of an external input, OPEN 0 or CLOSED 1, in the size of the argument that sets it (R168, R188). -/
def polarityBytes (i : ExtInput) : List Byte := u16 (if i.alarmWhenOpen then 0 else 1)

/-- What SET_ALARM_POINT carries: the point's record, and the threshold or polarity taken (R168). -/
def setPointResults (s : State) (id : PointId) : List Byte :=
  pointBytes s id ++
    match slotOfLinkPoint id, inputOfPoint id with
    | some n, _ => u16 (s.port n).errorThreshold
    | none, some i => polarityBytes (s.input i)
    | none, none => []

/-- SET_ALARM_POINT's effect: the values, with the relays set again; an unlatched HELD point clears; then the
threshold or polarity; and the budget in force follows the rectifier's point (R168, R169, R170). The order of the three
is the model's (LOG 56). -/
def setPoint (id : PointId) (v : PointValues) (s : State) : Effect :=
  let set := setRelays (s.updAlarm fun a =>
    { a with points := a.points.write id ((a.points.read id).configured (pointKind id) v) })
  let unlatched := changePoint id (set.point id).unlatched set
  let extra := applyExtra id v.extra unlatched
  let t := if id = rectifierPoint then updateBudget extra else extra
  okWith (setPointResults t id) t

/-- A request that names an alarm point: outside 0–92 it is refused BAD_INDEX. -/
def withPoint (b : Byte) (f : PointId → State → Effect) (s : State) : Effect :=
  match pointOfByte b with
  | some id => f id s
  | none => refusedWith .badIndex s

/-- SET_ALARM_POINT (R168). -/
def execSetAlarmPoint (point enabled severity raisePers clearPers latched : Byte) (extra : BitVec 16) (s : State) :
    Result :=
  request (.setAlarmPoint point enabled severity raisePers clearPers latched extra)
    (fun _ => withPoint point fun id =>
      withValue (pointValuesOf id enabled severity raisePers clearPers latched extra) (setPoint id)) s

/-- An external input as READ_ALARMS carries it: its level, OPEN 0 or CLOSED 1, and its polarity (R177; LOG 12). -/
def inputBytes (i : ExtInput) : List Byte := flag (!i.debouncedOpen) ++ polarityBytes i

/-- What every READ_ALARMS response carries; a relay is 1 in its alarm position (R177; LOG 12). -/
def alarmResults (s : State) : List Byte :=
  let a := s.alarm
  flag a.majorAlarm ++ flag a.minorAlarm ++ a.inputs.toList.flatMap inputBytes ++ u8 a.notices.length ++
    flag a.overflow ++ u8 a.waits.length ++ u32 a.counters.produced ++ u32 a.counters.discarded ++
    u32 a.counters.accepted ++ u32 a.counters.refused ++ u32 a.counters.unanswered

/-- A point of the active list as READ_ALARMS carries it (R177). -/
def listedBytes (s : State) (id : PointId) : List Byte :=
  let p := s.point id
  u8 id.val ++ [p.state.code, p.severity.code] ++ flag p.enabled ++ flag p.acked

/-- READ_ALARMS of the list (0xFF) or of one point (R177). -/
def readAlarms (point : Byte) (s : State) : Effect :=
  if point = 0xFF then okWith (alarmResults s ++ counted (listedBytes s) s.alarm.active) s
  else withPoint point (fun id t => okWith (alarmResults t ++ pointBytes t id) t) s

/-- READ_ALARMS (R177). -/
def execReadAlarms (point : Byte) (s : State) : Result := request (.readAlarms point) (fun _ => readAlarms point) s

/-- ACK_ALARM's effect (R167), with the report of the rectifier's point (R170). -/
def ackPoint (id : PointId) (s : State) : Effect :=
  let t := changePoint id (s.point id).acknowledge s
  let u := if id = rectifierPoint then updateBudget t else t
  okWith ([(u.point id).state.code] ++ flag (u.point id).acked) u

/-- ACK_ALARM (R167). -/
def execAckAlarm (point : Byte) (s : State) : Result := request (.ackAlarm point) (fun _ => withPoint point ackPoint) s

/-! ### Waits and mail -/

/-- ALARM_WAIT: completed at once with up to 8 pending notices, kept outstanding, or refused (R174, R180). -/
def alarmWait (r : Request) (s : State) : Effect :=
  let ns := s.alarm.notices
  if !ns.isEmpty then
    okWith (waitResults s.alarm.overflow (ns.take Config.maxNoticesPerWait))
      (s.updAlarm fun a => { a with notices := ns.drop Config.maxNoticesPerWait, overflow := false })
  else if s.alarm.waits.length < Config.maxWaits then
    ((addInFlight .wait r s).updAlarm fun a =>
      { a with waits := a.waits ++ [⟨r.requester, requestTag r.payload, s.agent.nextRecord⟩] }, none)
  else refusedWith .waitLimit s

/-- ALARM_WAIT (R174). -/
def execAlarmWait (s : State) : Result := request .alarmWait alarmWait s

/-- A message as READ_MAIL carries it: payload, length, seconds (R176; LOG 12). -/
def Mail.bytes (m : Mail) : List Byte := u8 m.payload.length ++ m.payload ++ u8 m.payload.length ++ u64 m.seconds

/-- READ_MAIL: the message, or absent, which is sent as a presence byte and ten zero bytes (LOG 12); the mailbox becomes
empty (R176). -/
def readMail (n : Slot) (s : State) : Effect :=
  okWith (optional 10 Mail.bytes (s.alarm.mailbox.read n))
    (s.updAlarm fun a => { a with mailbox := a.mailbox.write n none })

/-- READ_MAIL (R176). -/
def execReadMail (slot : Byte) (s : State) : Result := request (.readMail slot) (fun _ => withSlot slot readMail) s

end Sys2Proof.Machine
end

