-- ==== Sys2Proof/Machine/FlowRequests.lean ====
section
/-! DEFINITION. The meanings of the requests of chapters 2 and 3: flows, groups, quotas, limits and holds. -/

namespace Sys2Proof.Machine

/-! ### Results -/

/-- A flow's state and suspension set (R37). -/
def flowStateBytes (f : Flow) : List Byte := [f.state.code] ++ f.suspension.bytes

/-- A flow's state, record fields, suspension set and counters, in the order of the table of 2.1 (R36, R40, R188). One
presence byte stands before all the bytes of the record fields, which a FREE flow has none of (LOG 47). -/
def flowBytes (f : Flow) : List Byte :=
  [f.state.code] ++ optional 7 FlowRecord.bytes f.fields ++ f.suspension.bytes ++ u32 f.forwarded ++ u32 f.dropped

/-- The record as WRITE_FLOW wrote it: flow number, state, fields, suspension set and counters (R36). No presence byte
stands before the fields, which a written flow always has (LOG 47). -/
def writtenBytes (i : Fin 255) (r : FlowRecord) (f : Flow) : List Byte :=
  flowByte i ++ [f.state.code] ++ r.bytes ++ f.suspension.bytes ++ u32 f.forwarded ++ u32 f.dropped

/-- A request that names a flow: outside 1–255 it is refused BAD_INDEX. -/
def withFlow (b : Byte) (f : Fin 255 → State → Effect) (s : State) : Effect :=
  match flowOfByte b with
  | some i => f i s
  | none => refusedWith .badIndex s

/-- A request that names a group: outside 1–16 it is refused BAD_INDEX. -/
def withGroup (b : Byte) (f : Fin 16 → State → Effect) (s : State) : Effect :=
  match groupOfNat b.toNat with
  | some g => f g s
  | none => refusedWith .badIndex s

/-! ### WRITE_FLOW -/

/-- The fields of WRITE_FLOW, none where one is refused BAD_VALUE: a source or destination out of its range, a
destination equal to the source, a class that is no flow class, a code not in its table (R36, R188). -/
def flowFields (source destKind dest cls : Byte) (maxFrame : BitVec 16) (needsLock : Byte) : Option FlowRecord := do
  let n ← slotOfByte source
  let d ← flowDestOf destKind dest
  let c ← flowClassOfByte cls
  let l ← flagOfByte needsLock
  if d = .slot n then none else some ⟨n, d, c, clamp 64 2048 maxFrame.toNat, l⟩

/-- A record that passed the checks is written: DISABLED, counters 0, its suspension set from the hub's present state
(R36). For a SAMPLE flow FIT is evaluated (R25). -/
def putFlow (i : Fin 255) (r : FlowRecord) (s : State) : Effect :=
  let t := s.updFlow i fun _ => ⟨.disabled, some r, freshSuspension s r, 0, 0⟩
  let u := if r.cls = .sample then evaluateFit t else t
  okWith (writtenBytes i r (u.flow i)) u

/-- WRITE_FLOW's checks in their order: index, state, values (R36). -/
def writeFlow (fields : Option FlowRecord) (i : Fin 255) (s : State) : Effect :=
  if (s.flow i).enabled then refusedWith .wrongState s else withValue fields (putFlow i) s

/-- WRITE_FLOW (R36). -/
def execWriteFlow (flow source destKind dest cls : Byte) (maxFrame : BitVec 16) (needsLock : Byte) (s : State) :
    Result :=
  request (.writeFlow flow source destKind dest cls maxFrame needsLock)
    (fun _ => withFlow flow (writeFlow (flowFields source destKind dest cls maxFrame needsLock))) s

/-! ### ENABLE_FLOW, DISABLE_FLOW, DELETE_FLOW, READ_FLOW -/

/-- A DISABLED flow becomes enabled: LIVE if its suspension set is empty and SUSPENDED otherwise (R37). -/
def Flow.enable (f : Flow) : Flow := { f with state := if f.suspension.isEmpty then .live else .suspended }

/-- ENABLE_FLOW according to the flow's state; a SAMPLE flow first has FIT evaluated (R37). -/
def enableFlow (i : Fin 255) (s : State) : Effect :=
  match (s.flow i).state with
  | .free => refusedWith .wrongState s
  | .disabled =>
    let t := if (s.flow i).fields.any (·.cls == .sample) then evaluateFit s else s
    let u := reexamineFlows (t.updFlow i Flow.enable)
    okWith (flowStateBytes (u.flow i)) u
  | .live | .suspended => okWith (flowStateBytes (s.flow i)) s

/-- ENABLE_FLOW (R37). -/
def execEnableFlow (flow : Byte) (s : State) : Result := request (.enableFlow flow) (fun _ => withFlow flow enableFlow) s

/-- DISABLE_FLOW according to the flow's state (R38). -/
def disableFlow (i : Fin 255) (s : State) : Effect :=
  match (s.flow i).state with
  | .free => refusedWith .wrongState s
  | .disabled => okWith [] s
  | .live | .suspended => okWith [] (reexamineFlows (s.updFlow i fun f => { f with state := .disabled }))

/-- DISABLE_FLOW (R38). -/
def execDisableFlow (flow : Byte) (s : State) : Result :=
  request (.disableFlow flow) (fun _ => withFlow flow disableFlow) s

/-- DELETE_FLOW: a DISABLED flow becomes FREE (R39). -/
def deleteFlow (i : Fin 255) (s : State) : Effect :=
  if (s.flow i).state = .disabled then okWith [] (s.updFlow i fun _ => .free) else refusedWith .wrongState s

/-- DELETE_FLOW (R39). -/
def execDeleteFlow (flow : Byte) (s : State) : Result := request (.deleteFlow flow) (fun _ => withFlow flow deleteFlow) s

/-- READ_FLOW: the default path's counters for flow 0, the flow's record for the others (R40). -/
def readFlow (flow : Byte) (s : State) : Effect :=
  match flowOfByte flow with
  | some i => okWith (flowBytes (s.flow i)) s
  | none => okWith (u32 s.fwd.defaultForwarded ++ u32 s.fwd.defaultDropped) s

/-- READ_FLOW (R40). -/
def execReadFlow (flow : Byte) (s : State) : Result := request (.readFlow flow) (fun _ => readFlow flow) s

/-! ### Groups -/

/-- The slots of a list of numbers, none where one lies outside 1–12 (R41). -/
def slotsOf : List Byte → Option (List Slot)
  | [] => some []
  | b :: bs =>
    match slotOfByte b, slotsOf bs with
    | some n, some ns => some (n :: ns)
    | _, _ => none

/-- A written SAMPLE flow names the group (R41). -/
def sampleFlowNames (s : State) (g : Fin 16) : Bool :=
  s.fwd.flows.toList.any fun f => f.fields.any fun r => r.cls == .sample && r.dest == .group g

/-- The members of a group as a set in ascending order (R41, R42). -/
def groupBytes (s : State) (g : Fin 16) : List Byte := counted slotByte (s.groupMembers g)

/-- WRITE_GROUP's effect: the group becomes the set of the slots named (R41). -/
def writeGroup (g : Fin 16) (ns : List Slot) (s : State) : Effect :=
  let t := { s with fwd := { s.fwd with groups := s.fwd.groups.write g (Table.build fun n => ns.contains n) } }
  let u := if sampleFlowNames t g then evaluateFit t else t
  okWith (groupBytes u g) u

/-- WRITE_GROUP (R41). The group that the agent's next one names by itself is another free value (LOG 35). -/
def execWriteGroup (group : Byte) (members : List Byte) (s : State) : Result :=
  request (.writeGroup group members)
    (fun _ t => withGroup group (fun g => withValue (slotsOf members) (writeGroup g)) t.drawn) s

/-- READ_GROUP (R42). -/
def execReadGroup (group : Byte) (s : State) : Result :=
  request (.readGroup group) (fun _ => withGroup group fun g t => okWith (groupBytes t g) t) s

/-! ### The queue manager's settings -/

/-- SET_QUOTA's effect: quota, Y and X clamped in order, and the pause examined against them (R52). -/
def setQuota (quota y x : BitVec 16) (n : Slot) (s : State) : Effect :=
  let q := clamp 64 3840 quota.toNat
  let b := clamp 1 (q - 1) y.toNat
  let a := clamp 0 (q - b - 1) x.toNat
  okWith (u16 q ++ u16 b ++ u16 a)
    (reexaminePause n (s.updQueueConfig n fun c => { c with quota := q, y := b, x := a }))

/-- SET_QUOTA (R52). -/
def execSetQuota (slot : Byte) (quota y x : BitVec 16) (s : State) : Result :=
  request (.setQuota slot quota y x) (fun _ => withSlot slot (setQuota quota y x)) s

/-- SET_SAMPLE_LIMIT's effect (R50). -/
def setSampleLimit (limit : BitVec 16) (n : Slot) (s : State) : Effect :=
  let l := clamp 16 1024 limit.toNat
  okWith (u16 l) (s.updQueueConfig n fun c => { c with sampleLimit := l })

/-- SET_SAMPLE_LIMIT (R50). -/
def execSetSampleLimit (port : Byte) (limit : BitVec 16) (s : State) : Result :=
  request (.setSampleLimit port limit) (fun _ => withSlot port (setSampleLimit limit)) s

/-- SET_HOLD's effect (R56). -/
def setHold (holdLimit : BitVec 16) (stallLimit : Byte) (n : Slot) (s : State) : Effect :=
  let h := clamp 1 10000 holdLimit.toNat
  let l := clamp 1 15 stallLimit.toNat
  okWith (u16 h ++ u8 l) (s.updQueueConfig n fun c => { c with holdLimit := h, stallLimit := l })

/-- SET_HOLD (R56). -/
def execSetHold (slot : Byte) (holdLimit : BitVec 16) (stallLimit : Byte) (s : State) : Result :=
  request (.setHold slot holdLimit stallLimit) (fun _ => withSlot slot (setHold holdLimit stallLimit)) s

end Sys2Proof.Machine
end

