-- ==== Sys2Proof/Machine/CalendarRequests.lean ====
section
/-! DEFINITION. The meanings of the requests of chapter 4: the pending bank and the commit. -/

namespace Sys2Proof.Machine

/-- The calendar is armed (04, 4.1). -/
def State.armed (s : State) : Bool := s.cal.arming.isSome

/-- SET_CYCLE: refused BUSY while armed; otherwise the value taken becomes the pending bank's cycle length (R64). -/
def setCycle (cycle : BitVec 32) (s : State) : Effect :=
  if s.armed then refusedWith .busy s
  else
    let c := clamp 10000 1000000 cycle.toNat
    okWith (u32 c) (s.updCal fun k => { k with pendingBank := { k.pendingBank with cycle := c } })

/-- SET_CYCLE (R64). -/
def execSetCycle (cycle : BitVec 32) (s : State) : Result := request (.setCycle cycle) (fun _ => setCycle cycle) s

/-- A window as the arguments give it. -/
def RawWindow.window (w : RawWindow) : Window := ⟨w.start.toNat, w.length.toNat⟩

/-- A window list: a count, and each window's start and length (R188). -/
def windowBytes (ws : List Window) : List Byte := counted (fun w : Window => u32 w.start ++ u32 w.length) ws

/-- WRITE_WINDOWS past its first check: more than 8 windows are refused BAD_VALUE, and otherwise the port's pending
list becomes the list given (R65). -/
def putWindows (windows : List RawWindow) (p : Slot) (s : State) : Effect :=
  if 8 < windows.length then refusedWith .badValue s
  else
    let ws := windows.map RawWindow.window
    okWith (slotByte p ++ windowBytes ws)
      (s.updCal fun k => { k with pendingBank := { k.pendingBank with windows := k.pendingBank.windows.write p ws } })

/-- WRITE_WINDOWS's checks in their order: armed, port, count (R65). -/
def writeWindows (port : Byte) (windows : List RawWindow) (s : State) : Effect :=
  if s.armed then refusedWith .busy s else withSlot port (putWindows windows) s

/-- WRITE_WINDOWS (R65). -/
def execWriteWindows (port : Byte) (windows : List RawWindow) (s : State) : Result :=
  request (.writeWindows port windows) (fun _ => writeWindows port windows) s

/-- What READ_WINDOWS carries of a bank: the cycle length, the port's list, and whether the calendar is armed (R66). -/
def bankResults (s : State) (p : Slot) (pendingBank : Bool) : List Byte :=
  let b := if pendingBank then s.cal.pendingBank else s.cal.active
  u32 b.cycle ++ windowBytes (b.windows.read p) ++ flag s.armed

/-- READ_WINDOWS; a bank code is 0x00 active or 0x01 pending (R66, R188). -/
def execReadWindows (bank port : Byte) (s : State) : Result :=
  request (.readWindows bank port)
    (fun _ => withSlot port fun p => withValue (flagOfByte bank) fun b t => okWith (bankResults t p b) t) s

/-- What a commit's checks find, in their order (R67). -/
inductive CommitCheck where
  | badCycle
  | badWindows (p : Slot)
  | noFit (f : Fin 255) (p : Slot)
  | passes
deriving DecidableEq, Repr

/-- The checks of a commit on the pending bank: cycle, windows, fit (R67). -/
def checkCommit (s : State) : CommitCheck :=
  if !cycleDivides s.cal.pendingBank.cycle then .badCycle
  else
    match firstDisordered s.cal.pendingBank, firstMisfit s with
    | some p, _ => .badWindows p
    | none, some (f, p) => .noFit f p
    | none, none => .passes

/-- The calendar is armed with the requester, the tag and the in-flight record (R68). -/
def armCalendar (r : Request) (s : State) : State :=
  (addInFlight .commit r s).updCal fun k =>
    { k with arming := some ⟨r.requester, requestTag r.payload, s.agent.nextRecord⟩ }

/-- COMMIT_CALENDAR: refused BUSY while armed, refused by the first check that fails, and otherwise armed and answered
at the swap (R67, R68, R180). -/
def commitCalendar (r : Request) (s : State) : Effect :=
  if s.armed then refusedWith .busy s
  else
    match checkCommit s with
    | .badCycle => (s, some (.badValue, [0]))
    | .badWindows p => (s, some (.badValue, slotByte p))
    | .noFit f p => (s, some (.noFit, flowByte f ++ slotByte p))
    | .passes => (armCalendar r s, none)

/-- COMMIT_CALENDAR (R67). -/
def execCommitCalendar (s : State) : Result := request .commitCalendar commitCalendar s

end Sys2Proof.Machine
end

