-- ==== Sys2Proof/Machine/SlotRequests.lean ====
section
/-! DEFINITION. The meanings of the requests of chapters 7 and 8: slots, power, identity and raw reads. -/

namespace Sys2Proof.Machine

/-! ### READ_SLOT -/

/-- The place of a slot in a list, counted from 1 (LOG 12). -/
def positionIn (n : Slot) (xs : List Slot) : Option Nat := (xs.findIdx? (· == n)).map (· + 1)

/-- The slot controller's counters (R139). -/
def SlotCounters.bytes (c : SlotCounters) : List Byte :=
  u32 c.insertions ++ u32 c.grants ++ u32 c.faults ++ u32 c.drainsCompleted ++ u32 c.drainTimeouts ++ u32 c.removals

/-- A budget in force: MAINS, BATTERY (07, 7.1). -/
def Budget.code : Budget → Byte
  | .mains => 0
  | .battery => 1

/-- The record of a slot, as READ_SLOT carries it; presence is absent 0 or present 1, a latch CLOSED 0 or OPEN 1, the
pull guard clear 0 or set 1, and a card kind is coded from 0 in the order of its table, CONTROL 0 to AUXILIARY 5 (R139,
R188; LOG 12). -/
def slotRecordBytes (r : SlotRecord) : List Byte :=
  flag r.present ++ flag (!r.closed) ++ [r.state.code] ++ flag r.admitted ++
    optional 1 (fun f => [FaultReason.code f]) r.fault ++ optional 1 (fun k => [SidebandOutcome.kindCode k]) r.failureKind ++
    flag r.pullGuard ++ optional 2 (fun i : Identity => u8 i.kind.index.val ++ u8 i.powerClass) r.identity

/-- What READ_SLOT carries (R139). -/
def slotResults (s : State) (n : Slot) : List Byte :=
  let r := s.slot n
  slotRecordBytes r ++ optional 1 widthByte r.width ++ flag (s.degraded n) ++ u16 (s.port n).lastErrorCount ++
    u8 (s.sq n).stallCount ++ flag (s.slotDelay n).delays.isSome ++ flag (s.alarm.mailbox.read n).isSome ++
    flag r.lines.powerEnable ++ flag r.lines.removeLamp ++ optional 1 u8 (positionIn n s.slots.waitingList) ++
    u16 s.slots.committed ++ [s.slots.inForce.code] ++ u16 s.slots.mainsBudget ++ u16 s.slots.batteryBudget ++
    counted slotByte s.slots.waitingList ++ r.counters.bytes

/-- READ_SLOT (R139). -/
def execReadSlot (slot : Byte) (s : State) : Result :=
  request (.readSlot slot) (fun _ => withSlot slot fun n t => okWith (slotResults t n) t) s

/-! ### READ_IDENTITY and SIDEBAND_READ -/

/-- The whole identity record, in the order of the table that defines it (12.5, R188): the spare bytes before the
checksum, where the prose of R153 names the checksum first (LOG 62). -/
def Identity.bytes (i : Identity) : List Byte :=
  u8 i.format ++ u8 i.kind.code ++ u16 i.maker ++ i.model ++ i.serial ++ u8 i.powerClass ++ u8 i.lanes ++
    u8 i.maxExponent ++ [i.flags] ++ u8 i.softStart ++ u16 i.currentLimit ++ i.spare ++ [i.checksum]

/-- An acknowledge map as its three items (R144). -/
def AckMap.bytes (m : AckMap) : List Byte := [m.addressWrite.code, m.offset.code, m.addressRead.code]

/-- A slot's IDENTIFY entry: attempt, position from 1, and whether its transaction is running (R153). -/
def identifyEntry (m : Sideband) (n : Slot) : Option (Nat × Nat × Bool) :=
  match m.queue.findIdx? (SidebandEntry.identifies n) with
  | some i =>
    match m.queue[i]? with
    | some (.identify _ attempt) => some (attempt, i + 1, i == 0 && m.running)
    | some (.raw _ _ _ _ _ _) | none => none
  | none => none

/-- The master's counters (R153). -/
def SidebandCounters.bytes (c : SidebandCounters) : List Byte := u32 c.attempts ++ u32 c.failures ++ u32 c.rawReads

/-- What READ_IDENTITY carries (R153; the order inside the identity record: LOG 62). -/
def identityResults (s : State) (n : Slot) : List Byte :=
  optional 64 Identity.bytes (s.slot n).identity ++
    optional 4 (fun a : LastAttempt => a.outcome.code :: a.map.bytes) (s.side.lastAttempt.read n) ++
    optional 3 (fun e : Nat × Nat × Bool => u8 e.1 ++ u8 e.2.1 ++ flag e.2.2) (identifyEntry s.side n) ++
    (s.side.counters.read n).bytes

/-- READ_IDENTITY (R153). -/
def execReadIdentity (slot : Byte) (s : State) : Result :=
  request (.readIdentity slot) (fun _ => withSlot slot fun n t => okWith (identityResults t n) t) s

/-- SIDEBAND_READ's checks and its RAW entry; it is answered when its transaction ends (R142, R150, R180). -/
def rawRead (r : Request) (offset length : Byte) (n : Slot) (s : State) : Effect :=
  if length.toNat < 1 ∨ 64 < length.toNat then refusedWith .badValue s
  else if (s.slot n).state = .empty then refusedWith .wrongState s
  else if Config.maxRawReads ≤ (s.side.queue.filter SidebandEntry.isRaw).length then refusedWith .busy s
  else
    (joinSideband (.raw n offset.toNat length.toNat r.requester (requestTag r.payload) s.agent.nextRecord)
      (addInFlight .rawRead r s), none)

/-- SIDEBAND_READ (R150). -/
def execSidebandRead (slot offset length : Byte) (s : State) : Result :=
  request (.sidebandRead slot offset length) (fun r => withSlot slot (rawRead r offset length)) s

/-! ### SLOT_ADMIT, SLOT_DRAIN, SLOT_RETRY, PORT_RESET -/

/-- The state and the admitted flag of a slot after SLOT_ADMIT (R127). -/
def admitResults (s : State) (n : Slot) : List Byte := [(s.slot n).state.code] ++ flag (s.slot n).admitted

/-- SLOT_ADMIT according to the slot's state (R127). -/
def slotAdmit (n : Slot) (s : State) : Effect :=
  match (s.slot n).state with
  | .standby =>
    let t := changeSlot n .active none (s.updSlot n fun r => { r with admitted := true })
    okWith (admitResults t n) t
  | .identifying | .waitingPower | .powering | .linking =>
    let t := s.updSlot n fun r => { r with admitted := true }
    okWith (admitResults t n) t
  | .active => okWith (admitResults s n) s
  | .empty | .inserted | .draining | .quiesced | .faulted => (s, some (.wrongState, admitResults s n))

/-- SLOT_ADMIT (R127). -/
def execSlotAdmit (slot : Byte) (s : State) : Result := request (.slotAdmit slot) (fun _ => withSlot slot slotAdmit) s

/-- SLOT_DRAIN according to the slot's state (R128). A controller that drains its own slot with an empty egress is
QUIESCED by then, and its answer is discarded at admission (R179; LOG 54). -/
def slotDrain (n : Slot) (s : State) : Effect :=
  match (s.slot n).state with
  | .standby | .active => okWith [] (enterDraining n s)
  | .draining => okWith [] s
  | .empty | .inserted | .identifying | .waitingPower | .powering | .linking | .quiesced | .faulted =>
    refusedWith .wrongState s

/-- SLOT_DRAIN (R128). -/
def execSlotDrain (slot : Byte) (s : State) : Result := request (.slotDrain slot) (fun _ => withSlot slot slotDrain) s

/-- SLOT_RETRY: FAULTED or QUIESCED with the latch CLOSED enters IDENTIFYING (R132). -/
def slotRetry (n : Slot) (s : State) : Effect :=
  if ((s.slot n).state = .faulted ∨ (s.slot n).state = .quiesced) ∧ (s.slot n).closed = true then
    let t := enterIdentifying n s
    okWith [(t.slot n).state.code] t
  else refusedWith .wrongState s

/-- SLOT_RETRY (R132). -/
def execSlotRetry (slot : Byte) (s : State) : Result := request (.slotRetry slot) (fun _ => withSlot slot slotRetry) s

/-- PORT_RESET: STANDBY or ACTIVE enters LINKING with its power kept (R133). -/
def portReset (n : Slot) (s : State) : Effect :=
  if (s.slot n).state = .standby ∨ (s.slot n).state = .active then
    okWith [SlotState.linking.code] (enterLinking n s)
  else refusedWith .wrongState s

/-- PORT_RESET (R133). -/
def execPortReset (slot : Byte) (s : State) : Result := request (.portReset slot) (fun _ => withSlot slot portReset) s

/-! ### SET_ADMISSION and SET_BUDGET -/

/-- Six policy codes as MANUAL flags, in the order of the kinds; none where one is neither AUTO nor MANUAL (R126). -/
def policiesOf (a b c d e f : Byte) : Option (Table 6 Bool) := do
  let a ← flagOfByte a
  let b ← flagOfByte b
  let c ← flagOfByte c
  let d ← flagOfByte d
  let e ← flagOfByte e
  let f ← flagOfByte f
  return #v[a, b, c, d, e, f]

/-- SET_ADMISSION's effect: the policies and the drain timeout taken (R126). -/
def setAdmission (drain : BitVec 16) (manual : Table 6 Bool) (s : State) : Effect :=
  let d := clamp 1 1000 drain.toNat
  okWith (manual.toList.map flagByte ++ u16 d) { s with slots := { s.slots with manual := manual, drainTimeout := d } }

/-- SET_ADMISSION (R126). -/
def execSetAdmission (control baseband radio transport reference auxiliary : Byte) (drain : BitVec 16) (s : State) :
    Result :=
  request (.setAdmission control baseband radio transport reference auxiliary drain)
    (fun _ => withValue (policiesOf control baseband radio transport reference auxiliary) (setAdmission drain)) s

/-- What SET_BUDGET carries (R137). -/
def budgetResults (s : State) : List Byte :=
  u16 s.slots.mainsBudget ++ u16 s.slots.batteryBudget ++ [s.slots.inForce.code] ++ u16 s.slots.committed ++
    counted slotByte s.slots.waitingList

/-- SET_BUDGET's effect: both budgets taken, then the waiting list examined (R137). -/
def setBudget (mains battery : BitVec 16) (s : State) : Effect :=
  let t := servePower
    { s with slots := { s.slots with
        mainsBudget := clamp 50 2000 mains.toNat, batteryBudget := clamp 0 2000 battery.toNat } }
  okWith (budgetResults t) t

/-- SET_BUDGET (R137). -/
def execSetBudget (mains battery : BitVec 16) (s : State) : Result :=
  request (.setBudget mains battery) (fun _ => setBudget mains battery) s

end Sys2Proof.Machine
end

