-- ==== Sys2Proof/Machine/TimingRequests.lean ====
section
/-! DEFINITION. The meanings of the requests of chapters 5 and 6: sources, servo, timing, probes and delays. -/

namespace Sys2Proof.Machine

/-! ### SET_SOURCE -/

/-- The values of SET_SOURCE, with their sizes as arguments (R97, R188). -/
def SourceConfig.bytes (c : SourceConfig) : List Byte :=
  flag c.nFirst ++ flag c.revertive ++ u8 ((c.nSlot.map slotNumber).getD 0) ++ u8 c.nRate ++ u16 c.pulseComp ++
    u32 c.jumpLimit

/-- What SET_SOURCE carries (R97). -/
def sourceResults (s : State) : List Byte :=
  s.trk.source.bytes ++ [s.trk.srcP.state.code, s.trk.srcN.state.code, selectedCode s.trk.selected]

/-- The values taken apply: a changed N slot has N's provider worked out again, a changed rate has N's silence timer
compared at once, and the selection is examined (R97). -/
def applySource (c : SourceConfig) (s : State) : State :=
  let set := s.updTrk fun k => { k with source := c }
  let provided := if c.nSlot = s.trk.source.nSlot then set else reworkProvider .N set
  examineSelection
    (if c.nRate ≠ s.trk.source.nRate ∧ silent provided .N = true then failSource .N provided else provided)

/-- The source N slot of SET_SOURCE: 0 none, 1–12, and above 12 out of range (R97). -/
def nSlotOf (b : Byte) : Option (Option Slot) :=
  if b.toNat = 0 then some none else (slotOfByte b).map some

/-- SET_SOURCE's checks in their order: the priority code and with it the revertive flag, at the step at which R97
refuses codes (R188), then the N slot; then its effect. -/
def setSourceValues (order revertive nSlot nRate : Byte) (comp : BitVec 16) (jumpLimit : BitVec 32) (s : State) :
    Effect :=
  withValue (flagOfByte order) (fun nFirst => withValue (flagOfByte revertive) fun rev t =>
    match nSlotOf nSlot with
    | none => refusedWith .badIndex t
    | some slot =>
      let u := applySource
        ⟨nFirst, rev, slot, lowerRate nRate.toNat, clamp 0 10000 comp.toNat, clamp 100 1000000 jumpLimit.toNat⟩ t
      okWith (sourceResults u) u) s

/-- SET_SOURCE (R97). -/
def execSetSource (order revertive nSlot nRate : Byte) (comp : BitVec 16) (jumpLimit : BitVec 32) (s : State) :
    Result :=
  request (.setSource order revertive nSlot nRate comp jumpLimit)
    (fun _ => setSourceValues order revertive nSlot nRate comp jumpLimit) s

/-! ### SET_SERVO -/

/-- The values of SET_SERVO, with their sizes as arguments (R98, R188). -/
def ServoConfig.bytes (c : ServoConfig) : List Byte :=
  u8 c.kp ++ u8 c.ki ++ u32 c.fLimit ++ u32 c.stepThreshold ++ u32 c.lockWindow ++ u8 c.lockCount ++
    u32 c.holdoverLimit

/-- What SET_SERVO carries: the values taken, F, I and the timing state (R98). -/
def servoResults (s : State) : List Byte :=
  s.trk.servo.bytes ++ i32 s.time.freq ++ i32 s.trk.integral ++ [s.trk.timing.code]

/-- The values taken apply: I and F are clamped to F_limit, and a running holdover timer is compared at once (R95, R90,
R98). -/
def applyServo (c : ServoConfig) (s : State) : State :=
  let set := s.updTrk fun k => { k with servo := c, integral := clampFreq c.fLimit k.integral }
  let f := clampFreq c.fLimit s.time.freq
  let clamped := if f = s.time.freq then set else set.setFreq f
  if holdoverOver clamped then enterTiming .freerun clamped else clamped

/-- The values that SET_SERVO takes (R98). -/
def servoConfigOf (kp ki : Byte) (fLimit stepThreshold lockWindow : BitVec 32) (lockCount : Byte)
    (holdover : BitVec 32) : ServoConfig :=
  ⟨kp.toNat, ki.toNat, clamp 1 100000 fLimit.toNat, clamp 100 1000000000 stepThreshold.toNat,
    clamp 10 100000 lockWindow.toNat, clamp 1 64 lockCount.toNat, clamp 60 604800 holdover.toNat⟩

/-- SET_SERVO's effect (R98). -/
def setServoValues (c : ServoConfig) (s : State) : Effect :=
  let t := applyServo c s
  okWith (servoResults t) t

/-- SET_SERVO (R98). -/
def execSetServo (kp ki : Byte) (fLimit stepThreshold lockWindow : BitVec 32) (lockCount : Byte)
    (holdover : BitVec 32) (s : State) : Result :=
  request (.setServo kp ki fLimit stepThreshold lockWindow lockCount holdover)
    (fun _ => setServoValues (servoConfigOf kp ki fLimit stepThreshold lockWindow lockCount holdover)) s

/-! ### READ_TIMING -/

/-- The holdoff timer of a source in FAILED, in whole local seconds up to 10, the fraction dropped, and absent in every
other state (R99; a choice of the model, LOG 59). -/
def holdoffSeconds (s : State) (r : SourceRecord) : Option Nat :=
  if r.state = .failed then r.holdoffStart.map fun start => min 10 ((s.now - start) / Config.ticksPerSecond) else none

/-- A source as READ_TIMING carries it (R99; LOG 32). The holdoff timer is sent as an optional value of one byte, a
presence byte before it; R99 does not say what stands there outside FAILED (a choice of the model, LOG 59). -/
def sourceBytes (s : State) (r : SourceRecord) : List Byte :=
  [r.state.code] ++ optional 1 slotByte r.provider ++ u8 r.good ++ u8 r.jumps ++ optional 8 i64 r.ePrev ++
    flag r.announced.isSome ++ optional 1 u8 (holdoffSeconds s r)

/-- The tracker's counters, P then N where there is one per source (R100). -/
def TrackerCounters.bytes (c : TrackerCounters) : List Byte :=
  u32 c.srcP.good ++ u32 c.srcN.good ++ u32 c.srcP.jumps ++ u32 c.srcN.jumps ++ u32 c.srcP.unusable ++
    u32 c.srcN.unusable ++ u32 c.srcP.failures ++ u32 c.srcN.failures ++ u32 c.steps ++ u32 c.discarded

/-- What READ_TIMING carries (R99). -/
def timingResults (s : State) : List Byte :=
  let k := s.trk
  s.hubNow.bytes ++ [k.timing.code] ++ u8 k.timing.quality ++ [selectedCode k.selected] ++ flag k.holdoverReady ++
    u32 s.holdoverTimer ++ i32 s.time.freq ++ i32 k.integral ++ u64 s.time.increment ++ u8 k.lockRun ++
    u8 k.unlockRun ++ sourceBytes s k.srcP ++ sourceBytes s k.srcN ++ k.source.bytes ++ k.servo.bytes ++
    k.counters.bytes

/-- READ_TIMING (R99). -/
def execReadTiming (s : State) : Result := request .readTiming (fun _ t => okWith (timingResults t) t) s

/-! ### SET_PROBE, SET_ASYMMETRY, READ_DELAY -/

/-- The values of SET_PROBE (R117). -/
def ProbeConfig.bytes (c : ProbeConfig) : List Byte := u8 c.probeRate ++ u16 c.rmax ++ u16 c.stepLimit ++ u8 c.markRate

/-- The values taken apply; a new rate restarts its clock (R104, R114, R117), and a rate equal to the present one is not
a new one (LOG 44). -/
def setProbeValues (c : ProbeConfig) (s : State) : Effect :=
  let d := s.delay
  okWith c.bytes
    { s with delay := { d with
        config := c
        nextProbe := if c.probeRate = d.config.probeRate then d.nextProbe else s.now + c.probePeriod
        nextMark := if c.markRate = d.config.markRate then d.nextMark else s.now + c.markPeriod } }

/-- SET_PROBE (R117). -/
def execSetProbe (probeRate : Byte) (rmax stepLimit : BitVec 16) (markRate : Byte) (s : State) : Result :=
  request (.setProbe probeRate rmax stepLimit markRate)
    (fun _ => setProbeValues
      ⟨clamp 1 64 probeRate.toNat, clamp 100 20000 rmax.toNat, clamp 10 10000 stepLimit.toNat,
        lowerRate markRate.toNat⟩) s

/-- A delay record: toward card, toward hub (06, 6.1). -/
def delayBytes (r : DelayRecord) : List Byte := u16 r.towardCard ++ u16 r.towardHub

/-- SET_ASYMMETRY's effect: the asymmetry taken, and the delay record formed again (R113). -/
def setAsymmetry (asymmetry : BitVec 16) (n : Slot) (s : State) : Effect :=
  let a := clampInt (-500) 500 asymmetry.toInt
  let t := s.updDelay n fun d => SlotDelay.reform { d with asymmetry := a }
  okWith (slotByte n ++ i16 a ++ optional 4 delayBytes (t.slotDelay n).delays) t

/-- SET_ASYMMETRY (R113). -/
def execSetAsymmetry (slot : Byte) (asymmetry : BitVec 16) (s : State) : Result :=
  request (.setAsymmetry slot asymmetry) (fun _ => withSlot slot (setAsymmetry asymmetry)) s

/-- The delay unit's counters of a slot (R118). -/
def DelayCounters.bytes (c : DelayCounters) : List Byte :=
  u32 c.probesMade ++ u32 c.probesSkipped ++ u32 c.accepted ++ u32 c.rejected ++ u32 c.stale ++ u32 c.misses ++
    u32 c.abandoned ++ u32 c.resets ++ u32 c.losses ++ u32 c.marksMade ++ u32 c.marksSkipped ++ u32 c.marksWithdrawn

/-- What READ_DELAY carries (R118). -/
def delayResults (s : State) (n : Slot) : List Byte :=
  let d := s.slotDelay n
  flag d.client ++ u8 d.nextSeq ++
    optional 12 (fun p : Probe => u8 p.seq ++ optional 10 Stamp.bytes p.t1) d.outstanding ++
    counted u16 d.window ++ optional 2 u16 d.base ++ u8 d.missRun ++ u8 d.highRun ++ i16 d.asymmetry ++
    optional 4 delayBytes d.delays ++ u8 s.delay.quality ++ s.delay.config.bytes ++ d.counters.bytes

/-- READ_DELAY (R118). -/
def execReadDelay (slot : Byte) (s : State) : Result :=
  request (.readDelay slot) (fun _ => withSlot slot fun n t => okWith (delayResults t n) t) s

end Sys2Proof.Machine
end

