-- ==== Sys2Proof/Machine/Dispatch.lean ====
section
/-! DEFINITION. The meaning of each command, one arm per constructor of Instr. -/

namespace Sys2Proof.Machine

/-- The effect of a command on everything but the queue of commands. -/
def exec (i : Instr) (s : State) : Host.Outcome State Fault Refusal :=
  match i with
  | .powerOn => Sys2Proof.Machine.execPowerOn s
  | .laneTrained p l => Sys2Proof.Machine.execLaneTrained p l s
  | .trainingDeadlineExpiry p => Sys2Proof.Machine.execTrainingDeadlineExpiry p s
  | .testDeadlineExpiry p => Sys2Proof.Machine.execTestDeadlineExpiry p s
  | .laneFailure p l => Sys2Proof.Machine.execLaneFailure p l s
  | .cellRequest p => Sys2Proof.Machine.execCellRequest p s
  | .frameReceptionEnd p lanes => Sys2Proof.Machine.execFrameReceptionEnd p lanes s
  | .transmissionEnd p => Sys2Proof.Machine.execTransmissionEnd p s
  | .holdOn p => Sys2Proof.Machine.execHoldOn p s
  | .holdOff p => Sys2Proof.Machine.execHoldOff p s
  | .damagedSymbol p => Sys2Proof.Machine.execDamagedSymbol p s
  | .holdTimerExpiry p => Sys2Proof.Machine.execHoldTimerExpiry p s
  | .reserveWaitingGrant => Sys2Proof.Machine.execReserveWaitingGrant s
  | .localSecond => Sys2Proof.Machine.execLocalSecond s
  | .calendarSwap => Sys2Proof.Machine.execCalendarSwap s
  | .windowOpen p => Sys2Proof.Machine.execWindowOpen p s
  | .windowEnd p => Sys2Proof.Machine.execWindowEnd p s
  | .hubSecond => Sys2Proof.Machine.execHubSecond s
  | .timingPulseEdge => Sys2Proof.Machine.execTimingPulseEdge s
  | .silenceTimeout src => Sys2Proof.Machine.execSilenceTimeout src s
  | .holdoffExpiry src => Sys2Proof.Machine.execHoldoffExpiry src s
  | .holdoverLimitReached => Sys2Proof.Machine.execHoldoverLimitReached s
  | .probeTick => Sys2Proof.Machine.execProbeTick s
  | .markTick => Sys2Proof.Machine.execMarkTick s
  | .rawPresenceChange n present => Sys2Proof.Machine.execRawPresenceChange n present s
  | .presenceDebounced n => Sys2Proof.Machine.execPresenceDebounced n s
  | .rawLatchChange n closed => Sys2Proof.Machine.execRawLatchChange n closed s
  | .latchDebounced n => Sys2Proof.Machine.execLatchDebounced n s
  | .powerGoodTrue n => Sys2Proof.Machine.execPowerGoodTrue n s
  | .powerGoodLost n => Sys2Proof.Machine.execPowerGoodLost n s
  | .fastFault n active => Sys2Proof.Machine.execFastFault n active s
  | .softStartExpiry n => Sys2Proof.Machine.execSoftStartExpiry n s
  | .drainTimeout n => Sys2Proof.Machine.execDrainTimeout n s
  | .sidebandTransactionEnd e => Sys2Proof.Machine.execSidebandTransactionEnd e s
  | .holdTimeout phase => Sys2Proof.Machine.execHoldTimeout phase s
  | .conversionComplete result => Sys2Proof.Machine.execConversionComplete result s
  | .rawExtInputChange x isOpen => Sys2Proof.Machine.execRawExtInputChange x isOpen s
  | .extInputDebounced x => Sys2Proof.Machine.execExtInputDebounced x s
  | .unknownRequest => Sys2Proof.Machine.execUnknownRequest s
  | .readHub => Sys2Proof.Machine.execReadHub s
  | .hubReset => Sys2Proof.Machine.execHubReset s
  | .readSlot slot => Sys2Proof.Machine.execReadSlot slot s
  | .readIdentity slot => Sys2Proof.Machine.execReadIdentity slot s
  | .sidebandRead slot offset length => Sys2Proof.Machine.execSidebandRead slot offset length s
  | .slotAdmit slot => Sys2Proof.Machine.execSlotAdmit slot s
  | .slotDrain slot => Sys2Proof.Machine.execSlotDrain slot s
  | .slotRetry slot => Sys2Proof.Machine.execSlotRetry slot s
  | .portReset slot => Sys2Proof.Machine.execPortReset slot s
  | .setAdmission control baseband radio transport reference auxiliary drain => Sys2Proof.Machine.execSetAdmission control baseband radio transport reference auxiliary drain s
  | .setBudget mains battery => Sys2Proof.Machine.execSetBudget mains battery s
  | .writeFlow flow source destKind dest cls maxFrame needsLock => Sys2Proof.Machine.execWriteFlow flow source destKind dest cls maxFrame needsLock s
  | .enableFlow flow => Sys2Proof.Machine.execEnableFlow flow s
  | .disableFlow flow => Sys2Proof.Machine.execDisableFlow flow s
  | .deleteFlow flow => Sys2Proof.Machine.execDeleteFlow flow s
  | .readFlow flow => Sys2Proof.Machine.execReadFlow flow s
  | .writeGroup group members => Sys2Proof.Machine.execWriteGroup group members s
  | .readGroup group => Sys2Proof.Machine.execReadGroup group s
  | .setQuota slot quota y x => Sys2Proof.Machine.execSetQuota slot quota y x s
  | .setSampleLimit port limit => Sys2Proof.Machine.execSetSampleLimit port limit s
  | .setHold slot holdLimit stallLimit => Sys2Proof.Machine.execSetHold slot holdLimit stallLimit s
  | .readCounters slot => Sys2Proof.Machine.execReadCounters slot s
  | .clearCounters => Sys2Proof.Machine.execClearCounters s
  | .setCycle cycle => Sys2Proof.Machine.execSetCycle cycle s
  | .writeWindows port windows => Sys2Proof.Machine.execWriteWindows port windows s
  | .readWindows bank port => Sys2Proof.Machine.execReadWindows bank port s
  | .commitCalendar => Sys2Proof.Machine.execCommitCalendar s
  | .setSource order revertive nSlot nRate comp jumpLimit => Sys2Proof.Machine.execSetSource order revertive nSlot nRate comp jumpLimit s
  | .setServo kp ki fLimit stepThreshold lockWindow lockCount holdover => Sys2Proof.Machine.execSetServo kp ki fLimit stepThreshold lockWindow lockCount holdover s
  | .readTiming => Sys2Proof.Machine.execReadTiming s
  | .setProbe probeRate rmax stepLimit markRate => Sys2Proof.Machine.execSetProbe probeRate rmax stepLimit markRate s
  | .setAsymmetry slot asymmetry => Sys2Proof.Machine.execSetAsymmetry slot asymmetry s
  | .readDelay slot => Sys2Proof.Machine.execReadDelay slot s
  | .setThresholds channel critLow warnLow warnHigh critHigh hysteresis => Sys2Proof.Machine.execSetThresholds channel critLow warnLow warnHigh critHigh hysteresis s
  | .monitorStart mode trigger single scan => Sys2Proof.Machine.execMonitorStart mode trigger single scan s
  | .monitorStop => Sys2Proof.Machine.execMonitorStop s
  | .readMonitor => Sys2Proof.Machine.execReadMonitor s
  | .setAlarmPoint point enabled severity raisePers clearPers latched extra => Sys2Proof.Machine.execSetAlarmPoint point enabled severity raisePers clearPers latched extra s
  | .readAlarms point => Sys2Proof.Machine.execReadAlarms point s
  | .ackAlarm point => Sys2Proof.Machine.execAckAlarm point s
  | .alarmWait => Sys2Proof.Machine.execAlarmWait s
  | .readMail slot => Sys2Proof.Machine.execReadMail slot s
  | .supplyLoss => Sys2Proof.Machine.execSupplyLoss s

end Sys2Proof.Machine
end

