-- ==== Sys2Proof/Safety.lean ====
section
/-! DEFINITION. What the statements about the hub are said in: which blocks of the state a command leaves alone, the
taking of a request, and the invariants that every step keeps. -/

namespace Sys2Proof.Machine

/-! ### Frames -/

/-- The parts of the state: the hub's blocks, and the model's own fields. -/
inductive Part where
  | pending
  | ports
  | fwd
  | qcfg
  | qm
  | cal
  | time
  | trk
  | delay
  | slots
  | side
  | mon
  | alarm
  | agent
  | out
  | free
deriving DecidableEq, Repr

/-- Two states agree on a part. -/
def Part.Same : Part → State → State → Prop
  | .pending, s, t => t.pending = s.pending
  | .ports, s, t => t.ports = s.ports
  | .fwd, s, t => t.fwd = s.fwd
  | .qcfg, s, t => t.qcfg = s.qcfg
  | .qm, s, t => t.qm = s.qm
  | .cal, s, t => t.cal = s.cal
  | .time, s, t => t.time = s.time
  | .trk, s, t => t.trk = s.trk
  | .delay, s, t => t.delay = s.delay
  | .slots, s, t => t.slots = s.slots
  | .side, s, t => t.side = s.side
  | .mon, s, t => t.mon = s.mon
  | .alarm, s, t => t.alarm = s.alarm
  | .agent, s, t => t.agent = s.agent
  | .out, s, t => t.out = s.out
  | .free, s, t => t.free = s.free

/-- From one state to another nothing changes outside the parts listed. -/
def OnlyChanges (ps : List Part) (s t : State) : Prop := ∀ p : Part, p ∈ ps ∨ p.Same s t

/-- The parts that the sending of a frame may change: the port that sends it, its queues and the reference counts,
the send time of a PROBE, and what goes out on the links. -/
def sendingParts : List Part := [.ports, .qm, .delay, .out]

/-! ### The taking of a request -/

/-- The agent takes a request, and it is the command `i`: the request stands at the head of the agent's queue, no
response of a taken request waits, and its payload spells the command (R179), but for the group of a WRITE_GROUP, which
no payload spells (LOG 35). -/
def Takes (s : State) (i : Instr) (r : Request) : Prop :=
  s.agent.queue.head? = some r ∧ s.mayTake = true ∧ decodeRequest i.groupWritten r.payload = i

/-- The state as a request is taken: what the last command put on the links is past, and the request has left the
queue (R179). -/
def State.taking (s : State) : State := { s with out := [], agent := { s.agent with queue := s.agent.queue.tail } }

/-- The command is taken, brings the hub to a state, and is then answered with a status and results (R179). -/
def Answered (i : Instr) (s : State) (r : Request) (status : Status) (results : List Byte) (t : State) : Prop :=
  exec i s = .next (answer .taken r status results t)

/-- The command is refused with a status, without results and without any effect but the answer (R179). -/
def Refuses (i : Instr) (s : State) (r : Request) (status : Status) : Prop := Answered i s r status [] s.taking

/-! ### What the statements speak of -/

/-- No slot is draining. -/
def State.NoneDraining (s : State) : Prop := ∀ n : Slot, (s.slot n).state ≠ .draining

/-- The paused decision of a slot, examined against a number of held cells and the settings that stand: paused while
above X, and not paused while below quota − Y (R51). -/
def State.pausedAt (s : State) (n : Slot) (held : Nat) : Bool :=
  if (s.sq n).paused then decide ((s.queueConfig n).x < held)
  else decide ((s.queueConfig n).quota - (s.queueConfig n).y ≤ held)

/-- Between two states the paused decision of a slot has been examined against the held cells and the settings of the
second (R51). -/
def PauseFollows (n : Slot) (s t : State) : Prop :=
  (t.sq n).paused =
    if (s.sq n).paused then decide ((t.queueConfig n).x < t.heldCells n)
    else decide ((t.queueConfig n).quota - (t.queueConfig n).y ≤ t.heldCells n)

/-- A paused decision is told to the port: the port's record, and the symbols that go out, where the decision was
another before (R15, R51). -/
def State.portTold (s : State) (n : Slot) (b : Bool) : Port :=
  if b = (s.sq n).paused then s.port n else { s.port n with pauseAsserted := b }

def State.symbolsTold (s : State) (n : Slot) (b : Bool) : List Output :=
  if b = (s.sq n).paused ∨ b = (s.port n).pauseAsserted ∨ (s.port n).link ≠ .up then []
  else [.symbol n (if b then .pauseOn else .pauseOff)]

/-- The arbiter may start the head `id` of the queue of class `c` on a free port of reported width `w`: without
windows the head of the first of TIMING, CONTROL and BULK that is not empty; inside a window the SAMPLE head, if its
wire time fits the time left; outside every window the head of the first of the other three, if its wire time fits the
time to the next window (R73, R74, R75). -/
def Permitted (s : State) (p : Slot) (w : Width) (c : FrameClass) (id : Nat) : Prop :=
  let q := (s.sq p).queues
  let ws := s.cal.active.windows.read p
  (ws = [] ∧ q.firstOutside = some (c, id)) ∨
    (∃ win, windowAt ws s.cycleOffset = some win ∧ c = .sample ∧ q.sample.head? = some id ∧
      wireTime (s.frameLength id) w ≤ win.finish - s.cycleOffset) ∨
    (ws ≠ [] ∧ windowAt ws s.cycleOffset = none ∧ q.firstOutside = some (c, id) ∧
      wireTime (s.frameLength id) w ≤ timeToWindow ws s.cal.active.cycle s.cycleOffset)

/-- From one state to another a frame starts on a port: the head of its class queue leaves the queue and becomes the
port's transmission for its wire time at the working width, its bytes go out on the lanes in use, and the start of a
PROBE becomes the send time of the outstanding probe of that sequence (R13, R14, R48, R105). -/
def Starts (p : Slot) (c : FrameClass) (id : Nat) (f : StoredFrame) (s t : State) : Prop :=
  let wire := ((s.port p).workingWidth.map (wireTime f.body.length)).getD 0
  t.port p = { s.port p with transmission := some (.frame id (s.nowNs + wire)) } ∧
    (∀ q : Slot, q ≠ p → t.port q = s.port q) ∧
    t.qm = { s.qm with slot := s.qm.slot.write p { s.sq p with
      queues := (s.sq p).queues.setClass c ((s.sq p).queues.ofClass c).tail } } ∧
    t.out = s.out ++ [frameOutput p (s.port p).lanesInUse (egressBytes f.body s.hubNow)] ∧
    ((∀ h : HubFrame, f.body = .hub h → h.kind = .probe →
        (s.slotDelay h.dest).outstanding ≠ some ⟨h.seq.toNat, none⟩) → t.delay = s.delay) ∧
    (∀ h : HubFrame, f.body = .hub h → h.kind = .probe →
      (s.slotDelay h.dest).outstanding = some ⟨h.seq.toNat, none⟩ →
      t.delay = { s.delay with slot := s.delay.slot.write h.dest { s.slotDelay h.dest with
        outstanding := some ⟨h.seq.toNat, some s.hubNow⟩ } }) ∧
    OnlyChanges sendingParts s t

/-- From one state to another a reference to a stored frame is given back: the frame is freed at the last one, and
every other stored frame is as it was (R47). -/
def GivesBack (id : Nat) (f : StoredFrame) (s t : State) : Prop :=
  (f.refs ≤ 1 → t.frame? id = none) ∧ (1 < f.refs → t.frame? id = some { f with refs := f.refs - 1 }) ∧
    ∀ j : Nat, j ≠ id → t.frame? j = s.frame? j

/-- Outside one port nothing of the ports changes but what a released or a newly asserted pause changes. -/
def PausesOnly (p : Slot) (s t : State) : Prop :=
  ∀ q : Slot, q ≠ p → ∃ b : Bool, t.port q = { s.port q with pauseAsserted := b }

/-- One more on a 32-bit counter, which stops at 2^32 − 1 (R19, R35, R60 and the other counter rules). -/
def oneMore (n : Nat) : Nat := min (n + 1) (2 ^ 32 - 1)

/-- A whole frame stands in the assembly of a port whose link is UP, and passes the port's tests: its lanes are as many as
the lanes in use, its cells are those of its bytes, its check is right, and its length is allowed and the one it declares
(R10, R11, R187). -/
def Arrives (s : State) (p : Slot) (lanes : List (List Byte)) : Prop :=
  let bytes := frameOfLanes lanes
  let declared := 20 + framePayloadLength bytes + 4
  (s.port p).link = .up ∧ lanes.length = (s.port p).lanesInUse.length ∧
    (s.port p).assembly = some ⟨(bytes.length + 63) / 64, false⟩ ∧ checkPasses bytes = true ∧
    64 ≤ bytes.length ∧ bytes.length ≤ 2048 ∧ bytes.length ≤ s.cardMaxFrame p ∧
    (declared = bytes.length ∨ bytes.length = 64 ∧ declared < 64)

/-- The paused decision of a slot once the ingress assembly of its port has left with its cells: examined where the
assembly held any, and as it was otherwise (R51). -/
def State.pausedWithout (s : State) (p : Slot) : Bool :=
  let cells := (s.port p).assemblyCells
  if cells = 0 then (s.sq p).paused else s.pausedAt p (s.heldCells p - cells)

/-- The state once a bring-up attempt has failed that another follows: the frame being received is discarded, the TEST
frames and the entry in the reserve waiting list go, the failed attempt is counted, and the port enters TRAINING with the
next one (R3, R5; LOG 36, 40). No symbol goes out, the link not being UP. -/
def State.trainsAgain (p : Slot) (s : State) : State :=
  let b := s.pausedWithout p
  { s with
    ports := s.ports.write p { s.portTold p b with
      link := .training, attempt := (s.port p).attempt + 1, trained := [], workingWidth := none, lanesInUse := []
      trainingDeadline := some (s.time.localTicks + 250000), testDeadline := none, testUnsent := [], testNext := 16
      testProgress := 0, assembly := none
      transmission := match (s.port p).transmission with
        | some (.test _ _) => none
        | x => x
      counters := { (s.port p).counters with failedAttempts := oneMore (s.port p).counters.failedAttempts } }
    qm := { s.qm with
      waiting := s.qm.waiting.filter (· ≠ .test p), slot := s.qm.slot.write p { s.sq p with paused := b } }
    out := [] }

/-- From a state with trained lanes a port without TEST frames enters TESTING: the working width is the largest of 4, 2
and 1 no greater than the card's lane capability and the trained lanes, the lanes in use are the lowest trained ones, and
the deadline starts. The sixteen TEST frames are built as far as the reserve allows, a port that lacks any joins the
reserve waiting list, and frame 0 starts at once if it was built (R3, R4, R6, R46; LOG 18). -/
def EntersTesting (p : Slot) (trained : List Lane) (s u : State) : Prop :=
  let lanes := allLanes.filter fun m => trained.contains m
  ∀ w : Width, w.lanes ≤ min (s.laneCapability p) lanes.length →
    (∀ v : Width, v.lanes ≤ min (s.laneCapability p) lanes.length → v.lanes ≤ w.lanes) →
    let port := { s.port p with
      link := .testing, trained := trained, trainingDeadline := none, workingWidth := some w
      lanesInUse := lanes.take w.lanes, testProgress := 0, testDeadline := some (s.time.localTicks + 125000) }
    let first : Transmission := .test 0 (s.time.localTicks * 8 + wireTime 64 w)
    let sent : List Output := [frameOutput p (lanes.take w.lanes) (testBytes p (s.port p).attempt 0)]
    (s.qm.waiting = [] → 16 ≤ s.reserveFree → u = { s with
      ports := s.ports.write p { port with
        testUnsent := [1, 2, 3, 4, 5, 6, 7, 8, 9, 10, 11, 12, 13, 14, 15], testNext := 16, transmission := some first }
      out := sent }) ∧
    (s.qm.waiting = [] → 1 ≤ s.reserveFree → s.reserveFree < 16 → u = { s with
      ports := s.ports.write p { port with
        testUnsent := (List.range (s.reserveFree - 1)).map (· + 1), testNext := s.reserveFree
        transmission := some first }
      qm := { s.qm with waiting := [.test p] }
      out := sent }) ∧
    (s.qm.waiting ≠ [] ∨ s.reserveFree = 0 → .test p ∉ s.qm.waiting → u = { s with
      ports := s.ports.write p { port with testUnsent := [], testNext := 0 }
      qm := { s.qm with waiting := s.qm.waiting ++ [.test p] }, out := [] })

/-- What the agent loses between two states in which a slot goes to a new state: a controller that leaves ACTIVE its
queued requests and its in-flight records, and a slot that leaves the up states its waiting responses, which are counted
as withdrawn; where the head of the response list was among them, the agent's entry in the reserve waiting list stands
for the new head, if any. With no alarm wait to complete, no raw read of the slot and no other slot's change, nothing else
of the agent changes (R181, R182). -/
def AgentFollows (n : Slot) (new : SlotState) (s t : State) : Prop :=
  let a := s.agent
  let leaves : Bool := (s.slot n).state == .active && new != .active && s.holdsController n
  let falls : Bool := (s.slot n).state.isUp && !new.isUp
  let kept := a.responses.filter fun r => r.dest != n
  (leaves = true → t.agent.queue = a.queue.filter (fun r => r.requester != n) ∧
      ∀ f ∈ t.agent.inflight, f.requester ≠ n) ∧
    (falls = true → (leaves = true ∨ ∀ f ∈ a.inflight, f.requester ≠ n) → ∀ r ∈ t.agent.responses, r.dest ≠ n) ∧
    (s.alarm.waits = [] → (∀ e ∈ s.side.queue, e.isRaw = true → e.slot ≠ n) →
      (∀ m : Slot, m ≠ n → (t.slot m).state = (s.slot m).state) →
      t.agent = { a with
        queue := if leaves then a.queue.filter fun r => r.requester != n else a.queue
        inflight := if leaves then a.inflight.filter fun f => f.requester != n else a.inflight
        responses := if falls then kept else a.responses
        counters := if falls then { a.counters with
          withdrawn := min (a.counters.withdrawn + (a.responses.length - kept.length)) (2 ^ 32 - 1) } else a.counters } ∧
      (falls = true → (∃ r : Response, a.responses.head? = some r ∧ r.dest = n) →
        (.agent ∈ t.qm.waiting ↔ kept ≠ [])))

/-- Between two states a port gave its link up at a slot in LINKING or up: the link is DOWN without a reported width and a
frame being received, the failed attempts rose by a number, the slot is FAULTED with LINK, its power off, and the agent
loses what it held for it (R5, R131, R132, R181, R182). -/
def GivesUp (p : Slot) (failures : Nat) (s t : State) : Prop :=
  (t.port p).link = .down ∧ (t.port p).reportedWidth = none ∧ (t.port p).assembly = none ∧
    (t.port p).laneGood = (s.port p).laneGood ∧
    (t.port p).counters = { (s.port p).counters with
      failedAttempts := min ((s.port p).counters.failedAttempts + failures) (2 ^ 32 - 1) } ∧
    (t.slot p).state = .faulted ∧ (t.slot p).fault = some .link ∧
    ((s.slot p).width = (s.port p).reportedWidth → (t.slot p).width = none) ∧
    (t.slot p).lines.powerEnable = false ∧ (t.slot p).counters.faults = oneMore (s.slot p).counters.faults ∧
    ((s.slot p).state.isUp = true → (t.sq p).queues = ⟨[], [], [], []⟩) ∧ AgentFollows p .faulted s t

/-- A received frame has been counted and has left the assembly of its port, whose error count is then `errors` (R10,
R19). -/
def portAfterFrame (q : Port) (errors : Nat) : Port :=
  { q with
    assembly := none, errorCount := errors
    counters := { q.counters with framesReceived := oneMore q.counters.framesReceived } }

/-- Between two states the cells of a port's ingress assembly were freed: where it held any, the pause of its slot is
examined, and where it held none, the pause stays as it was (R51). -/
def PauseFreed (p : Slot) (s u : State) : Prop :=
  if (s.port p).assemblyCells = 0 then
    (u.sq p).paused = (s.sq p).paused ∧ (u.port p).pauseAsserted = (s.port p).pauseAsserted
  else PauseFollows p s u

/-- Between two states a received frame has left the assembly of its port with its cells freed: the pause of its slot
follows, and no other port, queue or stored frame changes (R45, R51). -/
def FrameFreed (p : Slot) (errors : Nat) (s u : State) : Prop :=
  u.port p = { portAfterFrame (s.port p) errors with pauseAsserted := (u.port p).pauseAsserted } ∧
    (∀ q : Slot, q ≠ p → u.port q = s.port q) ∧ PauseFreed p s u ∧
    u.qm = { s.qm with slot := s.qm.slot.write p { s.sq p with paused := (u.sq p).paused } }

/-- The drop counters after a drop of a slot's frame for a reason (R35). -/
def State.dropsAfter (s : State) (p : Slot) (reason : DropReason) : PerSlot DropCounters :=
  let d := s.fwd.drops.read p
  s.fwd.drops.write p { d with byReason := d.byReason.write reason.index (oneMore (d.byReason.read reason.index)) }

/-- The drop counters after a slot's frame was dispatched to a block of the hub (R30). -/
def State.dropsAfterDispatch (s : State) (p : Slot) : PerSlot DropCounters :=
  s.fwd.drops.write p { s.fwd.drops.read p with framesToHub := oneMore (s.fwd.drops.read p).framesToHub }

/-- Between two states a slot's frame was dropped for a reason, counted against no flow (R35). -/
def Dropped (p : Slot) (reason : DropReason) (errors : Nat) (s u : State) : Prop :=
  FrameFreed p errors s u ∧ u.fwd = { s.fwd with drops := s.dropsAfter p reason } ∧
    OnlyChanges [.ports, .fwd, .qm, .out] s u

/-- Between two states a slot's frame was dropped for a reason, counted against a written flow (R35). -/
def DroppedOnFlow (p : Slot) (reason : DropReason) (f : Fin 255) (s u : State) : Prop :=
  FrameFreed p (s.port p).errorCount s u ∧
    u.fwd = { s.fwd with
      drops := s.dropsAfter p reason
      flows := s.fwd.flows.write f { s.flow f with dropped := oneMore (s.flow f).dropped } } ∧
    OnlyChanges [.ports, .fwd, .qm, .out] s u

/-- Between two states a slot's frame was stored as a new frame of a class with one reference for each port of a list,
and stands at the tail of the queue of its class at each of them (R45, R47, R48). -/
def Stored (p : Slot) (bytes : List Byte) (c : FrameClass) (ports : List Slot) (s u : State) : Prop :=
  u.qm.frames = s.qm.frames ++ [⟨s.qm.nextFrame, .card p bytes, c, (bytes.length + 63) / 64, ports.length⟩] ∧
    u.qm.nextFrame = s.qm.nextFrame + 1 ∧ u.qm.waiting = s.qm.waiting ∧ u.qm.exhaustion = s.qm.exhaustion ∧
    (∀ q : Slot, u.sq q = { s.sq q with
      paused := (u.sq q).paused
      queues := if q ∈ ports then (s.sq q).queues.setClass c ((s.sq q).queues.ofClass c ++ [s.qm.nextFrame])
        else (s.sq q).queues }) ∧
    (∀ q : Slot, q ≠ p → u.port q = s.port q ∧ (u.sq q).paused = (s.sq q).paused) ∧
    u.port p = { portAfterFrame (s.port p) (s.port p).errorCount with pauseAsserted := (u.port p).pauseAsserted } ∧
    (if c = .sample then PauseFollows p s u
      else (u.sq p).paused = (s.sq p).paused ∧ (u.port p).pauseAsserted = (s.port p).pauseAsserted) ∧
    OnlyChanges [.ports, .fwd, .qm, .out] s u

/-- A copy of a card's frame is discarded at a port whose slot is not up or that is stalled (R49). -/
def State.discardsCopy (s : State) (d : Slot) : Bool := !(s.slot d).state.isUp || (s.sq d).hold == .stalled

/-- A copy of a class and a number of cells is admitted at a port: it is not discarded, and a SAMPLE copy fits the port's
sample limit on top of its SAMPLE occupancy (R49, R50). -/
def State.admitsCopy (s : State) (c : FrameClass) (cells : Nat) (d : Slot) : Bool :=
  !s.discardsCopy d &&
    (c != .sample || decide (s.sampleOccupancy d + cells ≤ (s.queueConfig d).sampleLimit))

/-- The state once the copies that the ports of a list do not admit are counted: a discard at its port, and as a stall
discard where the slot is up; a SAMPLE refusal at its port, with exhaustion marked seen (R49, R60, R61). -/
def State.copiesJudged (s : State) (c : FrameClass) (cells : Nat) (ports : List Slot) : State :=
  let refuses (d : Slot) : Bool := !s.discardsCopy d && !s.admitsCopy c cells d
  let counted (d : Slot) : EgressCounters :=
    let k := (s.sq d).egress
    if s.discardsCopy d then { k with
      discards := oneMore k.discards
      stallDiscards := if (s.slot d).state.isUp then oneMore k.stallDiscards else k.stallDiscards }
    else if refuses d then { k with sampleRefusals := oneMore k.sampleRefusals }
    else k
  { s with qm := { s.qm with
    slot := Vector.ofFn fun d => if d ∈ ports then { s.sq d with egress := counted d } else s.sq d
    exhaustion := s.qm.exhaustion || ports.any refuses } }

/-- Every frame of the hub that stands in a port's queues is for that port's slot, as each is queued (R45, R104, R114). -/
def State.HubFramesAtHome (s : State) (p : Slot) : Prop :=
  let q := (s.sq p).queues
  ∀ id ∈ q.sample ++ q.timing ++ q.control ++ q.bulk, ∀ (f : StoredFrame) (h : HubFrame),
    s.frame? id = some f → f.body = .hub h → h.dest = p

/-- The state once a CONTROL frame of the hub, with its reserve cells, has been offered to its port: stored for the
CONTROL queue of an up slot, whose arbiter decides, and counted as a discard at a slot that is not up or is stalled (R46,
R48, R49, R60, R72). -/
def State.offered (h : HubFrame) (s : State) : State :=
  let q := s.sq h.dest
  let k := q.egress
  if (s.slot h.dest).state.isUp = true ∧ q.hold ≠ .stalled then
    arbitrate h.dest { s with qm := { s.qm with
      nextFrame := s.qm.nextFrame + 1
      frames := s.qm.frames ++ [⟨s.qm.nextFrame, .hub h, .control, (max 64 (24 + h.payload.length) + 63) / 64, 1⟩]
      slot := s.qm.slot.write h.dest { q with queues := { q.queues with
        control := q.queues.control ++ [s.qm.nextFrame] } } } }
  else { s with qm := { s.qm with slot := s.qm.slot.write h.dest { q with egress := { k with
    discards := oneMore k.discards
    stallDiscards := if (s.slot h.dest).state.isUp = true then oneMore k.stallDiscards else k.stallDiscards } } } }

/-- Between two states the agent's entry, the others of the reserve waiting list being as listed, was granted: the head of
the response list, which fits the reserve, is sent and counts as made where its port takes it, and the entry joins the
tail again for the next head, if any (R46, R181, R185; LOG 28). -/
def AgentGranted (others : List Maker) (s t : State) : Prop :=
  ∃ (r : Response) (more : List Response), s.agent.responses = r :: more ∧
    (max 64 (24 + r.payload.length) + 63) / 64 ≤ s.reserveFree ∧
    let c := s.agent.counters
    let takes : Prop := (s.slot r.dest).state.isUp = true ∧ (s.sq r.dest).hold ≠ .stalled
    let u := State.offered ⟨.mgmtResp, r.dest, r.seq, r.payload, r.made, 0⟩ { s with
      agent := { s.agent with
        responses := more, counters := if takes then { c with made := oneMore c.made } else c } }
    t = { u with qm := { u.qm with waiting := others ++ if more = [] then [] else [.agent] } }

/-- The same of the alarm unit's entry and the head of the acknowledgement queue, whose frame takes one cell (R46, R175;
LOG 28). -/
def AlarmGranted (others : List Maker) (s t : State) : Prop :=
  ∃ (a : MailAck) (more : List MailAck), s.alarm.acks = a :: more ∧ 1 ≤ s.reserveFree ∧
    let u := State.offered ⟨.mailAck, a.dest, a.seq, [a.result.code, a.answers], a.made, 0⟩ { s with
      alarm := { s.alarm with acks := more } }
    t = { u with qm := { u.qm with waiting := others ++ if more = [] then [] else [.alarm] } }

/-- The same of a port's TEST entry: its next TEST frame is built from a free cell, and where no other maker waits the
frames after it as far as the reserve goes, in sequence order up to 15; a port that still lacks frames joins the tail
again. A port in TESTING that sends nothing starts the first of its frames unsent, on its lanes in use and for its wire
time (R6, R46; LOG 18, 28). -/
def TestGranted (p : Slot) (others : List Maker) (s t : State) : Prop :=
  let q := s.port p
  let n := min (16 - q.testNext) (if others = [] then s.reserveFree else 1)
  let unsent := q.testUnsent ++ List.range' q.testNext n
  let built := { q with testUnsent := unsent, testNext := q.testNext + n }
  let waiting := others ++ if q.testNext + n < 16 then [.test p] else []
  let wire := (q.workingWidth.map (wireTime 64)).getD 0
  1 ≤ s.reserveFree ∧
    (q.link ≠ .testing ∨ q.transmission ≠ none ∨ unsent = [] →
      t = { s with ports := s.ports.write p built, qm := { s.qm with waiting := waiting } }) ∧
    (q.link = .testing → q.transmission = none → ∀ (k : Nat) (later : List Nat), unsent = k :: later →
      t = { s with
        ports := s.ports.write p { built with
          testUnsent := later, transmission := some (.test k (s.time.localTicks * 8 + wire)) }
        qm := { s.qm with waiting := waiting }
        out := s.out ++ [frameOutput p q.lanesInUse (testBytes p q.attempt k)] })

/-- From one state to the next the head of the reserve waiting list, which fits the free reserve cells, was granted
(R46). -/
def HeadGranted (s t : State) : Prop :=
  ∃ (m : Maker) (rest : List Maker), s.qm.waiting = m :: rest ∧
    let others := rest.filter fun x => x != m
    match m with
    | .agent => AgentGranted others s t
    | .alarm => AlarmGranted others s t
    | .test p => TestGranted p others s t

/-- A point that enters ACTIVE: its count becomes 0 and its raise count rises (R165, R166). -/
def risen (p : Point) : Point := { p with state := .active, count := 0, raiseCount := min (p.raiseCount + 1) 65535 }

/-- A point that ends: HELD if it is latched and not acknowledged, and CLEAR without acknowledgement otherwise, its
count 0 in either case (R165, R167). -/
def ended (p : Point) : Point :=
  if p.latched = true ∧ p.acked = false then { p with state := .held, count := 0 }
  else { p with state := .clear, count := 0, acked := false }

/-- Between two states a point has taken a new record, its last change time aside, which is the present second of hub
time exactly where the point's state has changed (R166). -/
def PointBecomes (id : PointId) (new : Point) (s t : State) : Prop :=
  t.point id = { new with lastChange := if (s.point id).state = new.state then new.lastChange else s.time.sec }

/-- Between two states a SAMPLED point has taken a sample, by the table of R165. -/
def PointSampled (id : PointId) (b : Bool) (s t : State) : Prop :=
  let p := s.point id
  let raise := p.raisePers.getD 1
  let clear := p.clearPers.getD 1
  (p.state = .clear → b = true → PointBecomes id
      (if raise ≤ 1 then risen p else { p with state := .raising, count := 1 }) s t) ∧
    (p.state = .clear → b = false → PointBecomes id p s t) ∧
    (p.state = .raising ∨ p.state = .held → b = true → PointBecomes id
      (if raise ≤ p.count + 1 then risen p else { p with count := p.count + 1 }) s t) ∧
    (p.state = .raising → b = false → PointBecomes id { p with state := .clear, count := 0, acked := false } s t) ∧
    (p.state = .active → b = true → PointBecomes id p s t) ∧
    (p.state = .active → b = false → PointBecomes id
      (if clear ≤ 1 then ended p else { p with state := .clearing, count := 1 }) s t) ∧
    (p.state = .clearing → b = true → PointBecomes id { p with state := .active, count := 0 } s t) ∧
    (p.state = .clearing → b = false → PointBecomes id
      (if clear ≤ p.count + 1 then ended p else { p with count := p.count + 1 }) s t) ∧
    (p.state = .held → b = false → PointBecomes id { p with count := 0 } s t)

/-- Between two states a STATE point has taken a report of its condition (R166). -/
def PointReported (id : PointId) (b : Bool) (s t : State) : Prop :=
  let p := s.point id
  (p.condition = b → PointBecomes id p s t) ∧
    (p.condition = false → b = true → PointBecomes id
      (if p.state = .active ∨ p.state = .clearing then { p with condition := true }
        else { risen p with condition := true }) s t) ∧
    (p.condition = true → b = false → PointBecomes id
      (if p.state = .active ∨ p.state = .clearing then { ended p with condition := false }
        else { p with condition := false }) s t)

/-- A window list is in order within a cycle: no window is empty, each starts at or after the end of the one before
it, and the last ends within the cycle (R67). -/
def InOrder (cycle : Nat) (ws : List Window) : Prop :=
  (∀ w ∈ ws, 1 ≤ w.length) ∧ ws.Pairwise (fun a b => a.finish ≤ b.start) ∧
    ∀ w : Window, ws.getLast? = some w → w.finish ≤ cycle

/-- A flow fits a bank: each of its destination ports (its destination slot, if ACTIVE, or the ACTIVE members of its
group but its source) has a window in it and a reported width, at which the wire time of its max frame is no greater than
any of the port's windows (R77). -/
def State.FlowFits (s : State) (b : Bank) (r : FlowRecord) : Prop :=
  ∀ d : Slot, (s.slot d).state = .active →
    (r.dest = .slot d ∨ ∃ g : Fin 16, r.dest = .group g ∧ (s.fwd.groups.read g).read d = true ∧ d ≠ r.source) →
    b.windows.read d ≠ [] ∧ ∃ w, (s.port d).reportedWidth = some w ∧
      ∀ win ∈ b.windows.read d, wireTime r.maxFrame w ≤ win.length

/-- The FIT reasons of the written SAMPLE flows have been evaluated against a bank: a flow holds FIT exactly when it does
not fit it, and each enabled flow is LIVE exactly when its set is empty (R22, R25, R78). -/
def FitEvaluated (b : Bank) (s u : State) : Prop :=
  ∀ f : Fin 255, (u.flow f).fields = (s.flow f).fields ∧
    ∀ r : FlowRecord, (s.flow f).fields = some r →
      (r.cls ≠ .sample → (u.flow f).suspension = (s.flow f).suspension) ∧
      (r.cls = .sample → ((u.flow f).suspension.fit = false ↔ s.FlowFits b r)) ∧
      ((s.flow f).enabled = true → ((u.flow f).state = .live ↔ (u.flow f).suspension.isEmpty = true)) ∧
      ((s.flow f).enabled = false → (u.flow f).state = (s.flow f).state)

/-- Between two states the in-flight record of a commit was completed OK with a hub time and a cycle length. Where the
record still stands it goes, and its response, 18 bytes of payload in one cell, joins the tail of the response list where
a response or a maker waits. Where none waits and the reserve has a cell, it is sent: stored for the CONTROL queue of the
requester, where it stands or has started, and counted as made; at a slot that is not up, or a stalled one, it is lost.
Where the record no longer stands, nothing is answered (R46, R49, R70, R180, R181). -/
def CommitAnswered (record : Nat) (time : Stamp) (cycle : Nat) (s u : State) : Prop :=
  let a := s.agent
  (a.inflight.find? (·.record == record) = none → u.agent = a) ∧
    ∀ f : InFlight, a.inflight.find? (·.record == record) = some f →
      let left := a.inflight.filter (·.record != record)
      let payload := f.kind.code :: (beBytes 2 f.tag.toNat ++
        0 :: (beBytes 6 time.sec ++ beBytes 4 time.ns ++ beBytes 4 cycle))
      let sends : Prop := a.responses = [] ∧ s.qm.waiting = [] ∧ 1 ≤ s.reserveFree
      let takes : Prop := (s.slot f.requester).state.isUp = true ∧ (s.sq f.requester).hold ≠ .stalled
      (a.responses ≠ [] ∨ s.qm.waiting ≠ [] → .agent ∈ u.qm.waiting ∧
        u.agent = { a with
          inflight := left, responses := a.responses ++ [⟨.completion, f.requester, f.seq, payload, time⟩] }) ∧
      (sends → takes →
        u.agent = { a with inflight := left, counters := { a.counters with made := oneMore a.counters.made } } ∧
        ⟨s.qm.nextFrame, .hub ⟨.mgmtResp, f.requester, f.seq, payload, time, 0⟩, .control, 1, 1⟩ ∈ u.qm.frames ∧
        (s.qm.nextFrame ∈ (u.sq f.requester).queues.control ∨
          ∃ ends : Nat, (u.port f.requester).transmission = some (.frame s.qm.nextFrame ends))) ∧
      (sends → ¬ takes → u.agent = { a with inflight := left })

/-- The channels that a pass of a monitor converts, and the monitor as a pass begins at a local time, one without a channel
ending at its start (R157). -/
def scanned (m : Monitor) : List Channel :=
  if m.mode = .single then [m.single] else allChannels.filter fun x => (m.channel.read x).inScan

def passBegun (now : Nat) (m : Monitor) (pass : List Channel) : Monitor :=
  if pass = [] then { m with
    pass := [], conversionEnd := none, counters := { m.counters with passes := oneMore m.counters.passes }
    state := if m.mode = .continuous ∨ m.trigger = .software then .stopped else .waiting }
  else { m with state := .scanning, pass := pass, conversionEnd := some (now + 2500) }

/-- The monitor once the trigger HUB_SECOND has come: it begins a pass in WAITING and is counted as ignored in SCANNING,
where HUB_SECOND is the trigger configured (R156). -/
def hubSecondSeen (now : Nat) (m : Monitor) : Monitor :=
  if m.trigger ≠ .hubSecond then m
  else if m.state = .waiting then passBegun now m (scanned m)
  else if m.state = .scanning then { m with counters := { m.counters with ignored := oneMore m.counters.ignored } }
  else m

/-! #### Probes and marks -/

/-- The number of TIME_MARK frames that wait in a slot's TIMING queue (R115). -/
def State.waitingMarks (s : State) (n : Slot) : Nat := ((s.sq n).queues.timing.filter s.isMark).length

/-- A slot's record in the delay unit after a miss, with as many TIME_MARK frames waiting as a number says. The third miss in
a row loses the window, the base delay, the high run and the delay record, which is counted, and withdraws the marks, each
of which is counted (R111, R115, R118). -/
def SlotDelay.afterMiss (d : SlotDelay) (marks : Nat) : SlotDelay :=
  let c := { d.counters with misses := oneMore d.counters.misses }
  if d.missRun = 2 then { d with
    missRun := 3, window := [], base := none, highRun := 0, delays := none
    counters := { c with losses := oneMore c.losses, marksWithdrawn := Nat.iterate oneMore marks c.marksWithdrawn } }
  else { d with missRun := if d.missRun < 3 then d.missRun + 1 else d.missRun, counters := c }

/-- A slot's record in the delay unit as a probe tick finds it, its outstanding probe given up as a miss (R104). -/
def State.probeGivenUp (s : State) (n : Slot) : SlotDelay :=
  let d := s.slotDelay n
  if d.outstanding.isSome then { d with outstanding := none }.afterMiss (s.waitingMarks n) else d

/-- Between two states a slot's port and its queues are as they were but for one frame that may have started, the TIMING
queue being a list with it taken off, if it stood there. -/
def StartsAtMost (n : Slot) (timing : List Nat) (s t : State) : Prop :=
  (t.port n = s.port n ∨ ∃ id ends : Nat, t.port n = { s.port n with transmission := some (.frame id ends) }) ∧
    t.sq n = { s.sq n with queues := (t.sq n).queues } ∧
    ((t.sq n).queues.timing = timing ∨ (t.sq n).queues.timing = timing.tail)

/-! #### The events of a source -/

/-- The other source, a source's interval in oscillator periods, and its counters (R81, R85, R100). -/
def otherSource (src : Source) : Source := if src = .P then .N else .P

def State.sourceInterval (s : State) (src : Source) : Nat :=
  if src = .P then 125000000 else 125000000 / s.trk.source.nRate

def Tracker.counted (k : Tracker) (src : Source) : SourceCounters :=
  if src = .P then k.counters.srcP else k.counters.srcN

/-- The tracker with the record and the counters of one source replaced. -/
def Tracker.withSource (k : Tracker) (src : Source) (r : SourceRecord) (c : SourceCounters) : Tracker :=
  match src with
  | .P => { k with srcP := r, counters := { k.counters with srcP := c } }
  | .N => { k with srcN := r, counters := { k.counters with srcN := c } }

/-- An event of a source is timely: the local time since the previous arrival, if there is one, lies within an eighth of
the source's interval of one interval (R85). -/
def EventTimely (s : State) (src : Source) : Prop :=
  ∀ a : Nat, (s.source src).prevArrival = some a →
    7 * s.sourceInterval src ≤ 8 * (s.time.localTicks - a) ∧ 8 * (s.time.localTicks - a) ≤ 9 * s.sourceInterval src

/-- An event of an error is a jump: too far from the last good error, or, of the selected source in LOCKED, above the step
threshold (R85). -/
def EventJump (s : State) (src : Source) (e : Int) : Prop :=
  (∃ q : Int, (s.source src).ePrev = some q ∧ s.trk.source.jumpLimit < (e - q).natAbs) ∨
    (s.trk.selected = some src ∧ s.trk.timing = .locked ∧ s.trk.servo.stepThreshold < e.natAbs)

/-- A source's record once an event has come: the event is its previous arrival, and a pulse edge uses the announced
second up (R83, R85). -/
def State.sourceSeen (s : State) (src : Source) : SourceRecord :=
  { s.source src with
    prevArrival := some s.time.localTicks
    announced := if src = .P then none else (s.source src).announced }

/-- The tracker once a good event of an error has been noted: its good count rises up to 4, no jump stands, the error is
the last good one, silence restarts, and it is counted (R85, R100). -/
def State.goodNoted (s : State) (src : Source) (e : Int) : Tracker :=
  let c := s.trk.counted src
  s.trk.withSource src
    { s.sourceSeen src with
      good := min 4 ((s.source src).good + 1), jumps := 0, ePrev := some e, silenceStart := s.time.localTicks }
    { c with good := oneMore c.good }

/-- Between two states a source that can no longer be selected is not selected. If it was, the other source is selected in
ACQUIRING where it is QUALIFIED, and otherwise from ACQUIRING or LOCKED the tracker enters HOLDOVER with F at I and the
holdover timer started where holdover is ready, and FREERUN at the present F where not (R88, R89, R90). -/
def Unselected (src : Source) (s t : State) : Prop :=
  let other := otherSource src
  t.trk.selected ≠ some src ∧
    (s.trk.selected = some src → (s.source other).state = .qualified →
      t.trk.selected = some other ∧ t.trk.timing = .acquiring) ∧
    (s.trk.selected = some src → (s.trk.timing = .acquiring ∨ s.trk.timing = .locked) →
      (s.source other).state ≠ .qualified →
      t.trk.selected = none ∧
      (s.trk.holdoverReady = true → t.trk.timing = .holdover ∧
        t.time = { s.time with freq := s.trk.integral, increment := incrementOf s.trk.integral } ∧
        t.trk.holdoverStart = some s.time.localTicks ∧ t.delay.quality = 2) ∧
      (s.trk.holdoverReady = false → t.trk.timing = .freerun ∧ t.time = s.time ∧ t.delay.quality = 4))

/-- Between two states a source has failed: FAILED with the holdoff timer started and the failure counted, its condition
raised, and no longer selected (R86, R87). -/
def SourceFails (src : Source) (s t : State) : Prop :=
  let r := s.source src
  let c := s.trk.counted src
  t.source src = { r with
      state := .failed, ePrev := none, good := 0, jumps := 0, holdoffStart := some s.time.localTicks } ∧
    t.source (otherSource src) = s.source (otherSource src) ∧
    t.trk.counters = (s.trk.withSource src r { c with failures := oneMore c.failures }).counters ∧
    PointReported (sourceFailedPoint src) true s t ∧ Unselected src s t ∧
    OnlyChanges [.ports, .fwd, .qm, .time, .trk, .delay, .alarm, .agent, .out] s t

/-- Between two states a source has qualified, with a tracker in which its event is noted: with no source selected and the
other not QUALIFIED it is selected in ACQUIRING; where the other is selected and QUALIFIED, it is selected in its place
where the selection is revertive and prefers it, and the selection stays where not (R86, R88, R89). -/
def SourceQualifies (src : Source) (noted : Tracker) (s u : State) : Prop :=
  let other := otherSource src
  let preferred : Prop := s.trk.source.nFirst = decide (src = .N)
  u.source src = { ({ s with trk := noted } : State).source src with state := .qualified } ∧
    u.source other = s.source other ∧ u.trk.counters = noted.counters ∧ u.trk.integral = s.trk.integral ∧
    u.time = s.time ∧ PointReported (sourceFailedPoint src) false s u ∧
    (s.trk.selected = none → (s.source other).state ≠ .qualified →
      u.trk.selected = some src ∧ u.trk.timing = .acquiring) ∧
    (s.trk.selected = some other → (s.source other).state = .qualified →
      (s.trk.source.revertive = true → preferred → u.trk.selected = some src ∧ u.trk.timing = .acquiring) ∧
      (s.trk.source.revertive = false ∨ ¬ preferred →
        u.trk.selected = some other ∧ u.trk.timing = s.trk.timing)) ∧
    OnlyChanges [.ports, .fwd, .qm, .trk, .delay, .alarm, .agent, .out] s u

/-- Between two states an event of a source was taken that the servo does not use: noted alone in FAILED; unusable in
CANDIDATE and QUALIFIED without an error or not timely; a jump, the second without a good one between failing the source;
or good, the fourth in a row of a CANDIDATE qualifying it (R85, R86, R87). -/
def EventTaken (src : Source) (error : Option Int) (s u : State) : Prop :=
  let r := s.source src
  let seen := s.sourceSeen src
  let c := s.trk.counted src
  let becomes (r' : SourceRecord) (c' : SourceCounters) : Prop := u = { s with trk := s.trk.withSource src r' c' }
  (r.state = .unavailable → u = s) ∧
    (r.state = .failed → becomes seen c) ∧
    (r.state = .candidate ∨ r.state = .qualified →
      (error = none ∨ ¬ EventTimely s src →
        becomes { seen with good := 0 } { c with unusable := oneMore c.unusable }) ∧
      (EventTimely s src → ∀ e : Int, error = some e →
        let jumped := { seen with good := 0, jumps := r.jumps + 1, silenceStart := s.time.localTicks }
        let counted := { c with jumps := oneMore c.jumps }
        (EventJump s src e → r.jumps = 0 → becomes jumped counted) ∧
        (EventJump s src e → 1 ≤ r.jumps →
          SourceFails src { s with trk := s.trk.withSource src jumped counted } u) ∧
        (¬ EventJump s src e →
          (r.state = .candidate ∧ r.good < 3 ∨ r.state = .qualified ∧ ¬ (s.trk.selected = some src ∧
            (s.trk.timing = .acquiring ∨ s.trk.timing = .locked)) → u = { s with trk := s.goodNoted src e }) ∧
          (r.state = .candidate → 3 ≤ r.good → SourceQualifies src (s.goodNoted src e) s u))))

/-- Between two states hub time was stepped by the error of an applied event: it moves by the error exactly, its seconds
modulo 2^48 and the fraction kept; I, F and the increment are kept, the last good errors of both sources are reduced by the
error, the lock run is 0, the step is counted, every outstanding probe is given up, and PHASE_STEP takes an occurrence. An
armed calendar swaps where the step is forward and reaches or passes a boundary of the pending cycle, and with no alarm
wait outstanding its commit is answered OK with the hub time after the step and the new cycle; the monitor sees a
HUB_SECOND where the seconds grow (R69, R70, R92, R93, R94, R107, R156, R180; LOG 43). -/
def TimeStepped (noted : Tracker) (e : Int) (s u : State) : Prop :=
  let total (t : State) : Nat := t.time.sec * 1000000000 + t.time.ns
  let moved (r : SourceRecord) : SourceRecord := { r with ePrev := r.ePrev.map fun x => x - e }
  let pending := s.cal.pendingBank
  let swaps : Prop := s.cal.arming ≠ none ∧ total s < total u ∧ total s / pending.cycle < total u / pending.cycle
  (total u : Int) = ((total s : Int) + e) % (2 ^ 48 * 1000000000) ∧ u.time.ns < 1000000000 ∧
    u.time = { s.time with sec := u.time.sec, ns := u.time.ns } ∧
    u.trk = { noted with
      srcP := moved noted.srcP, srcN := moved noted.srcN, lockRun := 0
      counters := { noted.counters with steps := oneMore noted.counters.steps } } ∧
    (∀ n : Slot, (u.slotDelay n).outstanding = none) ∧
    (u.point phaseStepPoint).raiseCount = min ((s.point phaseStepPoint).raiseCount + 1) 65535 ∧
    ((s.point phaseStepPoint).state = .clear → (u.point phaseStepPoint).state = .held) ∧
    (¬ swaps → u.cal = s.cal ∧ u.fwd = s.fwd) ∧
    (swaps → u.cal = ⟨pending, s.cal.active, none⟩ ∧ FitEvaluated pending s u ∧
      (∀ p : Slot, pending.windows.read p = [] → (u.sq p).queues.sample = []) ∧
      ∀ a : Arming, s.cal.arming = some a → (∀ x ∈ u.agent.inflight, x.record ≠ a.record) ∧
        (s.alarm.waits = [] → CommitAnswered a.record ⟨u.time.sec, u.time.ns⟩ pending.cycle s u)) ∧
    u.mon = (if s.time.sec < u.time.sec then hubSecondSeen s.time.localTicks s.mon else s.mon) ∧
    OnlyChanges [.ports, .fwd, .qm, .cal, .time, .trk, .delay, .mon, .alarm, .agent, .out] s u

/-- Between two states the servo steered by the error of an applied event: I gains e * Ki / 256 and F becomes
e * Kp / 256 plus I, truncated toward zero and clamped to F_limit, the increment is formed again, and the lock accounting is
done (R80, R92, R95, R96). -/
def TimeSteered (noted : Tracker) (e : Int) (s u : State) : Prop :=
  let k := s.trk
  let limit : Int := k.servo.fLimit
  let bound (x : Int) : Int := max (-limit) (min limit x)
  let inside : Prop := e.natAbs ≤ k.servo.lockWindow
  let integral := bound (k.integral + (e * k.servo.ki).tdiv 256)
  let freq := bound ((e * k.servo.kp).tdiv 256 + integral)
  let steered := { noted with integral := integral }
  u.time = { s.time with freq := freq, increment := incrementOf freq } ∧
    u.trk.integral = integral ∧ u.trk.srcP = noted.srcP ∧ u.trk.srcN = noted.srcN ∧
    u.trk.counters = noted.counters ∧ u.trk.selected = k.selected ∧
    (k.timing = .acquiring → inside → k.servo.lockCount ≤ min 64 (k.lockRun + 1) →
      u.trk.timing = .locked ∧ u.trk.holdoverReady = true ∧ u.trk.unlockRun = 0 ∧ u.delay.quality = 1) ∧
    (k.timing = .acquiring → inside → min 64 (k.lockRun + 1) < k.servo.lockCount →
      u.trk = { steered with lockRun := min 64 (k.lockRun + 1) }) ∧
    (k.timing = .acquiring → ¬ inside → u.trk = { steered with lockRun := 0 }) ∧
    (k.timing = .locked → inside → u.trk = { steered with unlockRun := 0 }) ∧
    (k.timing = .locked → ¬ inside → k.unlockRun < 2 → u.trk = { steered with unlockRun := k.unlockRun + 1 }) ∧
    (k.timing = .locked → ¬ inside → 2 ≤ k.unlockRun →
      u.trk.timing = .acquiring ∧ u.trk.lockRun = 0 ∧ u.trk.unlockRun = 0 ∧ u.delay.quality = 3) ∧
    OnlyChanges [.ports, .fwd, .qm, .time, .trk, .delay, .alarm, .agent, .out] s u

/-- The error of a pulse edge against hub time: the announced second and the compensation, less the hub time (R83). -/
def State.edgeError (s : State) : Option Int := s.trk.srcP.announced.map fun sec =>
  ((sec : Int) - s.time.sec) * 1000000000 + ((s.trk.source.pulseComp : Int) - s.time.ns)

/-- The error of a STAMP: the sent time plus the toward-hub delay, less the arrival time; none without a delay record of
the slot that sent it (R84). -/
def State.stampError (s : State) (p : Slot) (payload : List Byte) : Option Int := (s.slotDelay p).delays.map fun d =>
  ((payloadField payload 1 6 : Int) - s.time.sec) * 1000000000 + ((payloadField payload 7 4 : Int) - s.time.ns) +
    d.towardHub

/-- A whole REF_TIME frame addressed to the hub, of a payload length and a subtype, arrives from a slot that is not in
LINKING (R28, R30, R82). -/
def RefTimeArrives (s : State) (p : Slot) (lanes : List (List Byte)) : Prop :=
  let bytes := frameOfLanes lanes
  Arrives s p lanes ∧ (s.slot p).state ≠ .linking ∧ frameDest bytes = 0 ∧ frameKindOf bytes = some .refTime

/-- Such a frame is a STAMP of the provider of source N (R82). -/
def StampArrives (s : State) (p : Slot) (lanes : List (List Byte)) : Prop :=
  let bytes := frameOfLanes lanes
  RefTimeArrives s p lanes ∧ framePayloadLength bytes = 11 ∧ payloadField (framePayload bytes) 0 1 = 2 ∧
    s.trk.srcN.provider = some p

/-- Between two states a slot's frame was counted as received and as dispatched to the hub, and its cells were freed
(R30, R45). -/
def Dispatched (p : Slot) (s b : State) : Prop :=
  FrameFreed p (s.port p).errorCount s b ∧ b.fwd = { s.fwd with drops := s.dropsAfterDispatch p } ∧
    OnlyChanges [.ports, .fwd, .qm, .out] s b

/-- The condition of a channel on one pair of thresholds: the result lies outside, a raised point moving each
threshold inward by the hysteresis (R159). -/
def Outside (raised : Bool) (h : Nat) (low high : Option Nat) (r : Nat) : Prop :=
  let m := if raised then h else 0
  (∃ x : Nat, high = some x ∧ (x : Int) - m < r) ∨ ∃ x : Nat, low = some x ∧ (r : Int) < x + m

/-- The head of a waiting list does not fit the budget in force on top of a committed power, or the list is empty
(R123). -/
def State.HeadBlocked (s : State) (list : List Slot) (committed : Nat) : Prop :=
  ∀ m : Slot, list.head? = some m → s.budget < committed + s.classOf m

/-- A port has something to send that the reports of its slot's departure leave it: a frame in transmission, or one in its
queues other than the TIME_MARK frames, which a client that leaves ACTIVE loses (R48, R103). -/
def State.EgressStays (s : State) (n : Slot) : Prop :=
  let q := (s.sq n).queues
  (s.port n).transmission ≠ none ∨ q.sample ++ q.control ++ q.bulk ≠ [] ∨ ∃ id ∈ q.timing, s.isMark id = false

/-- No alarm wait that a notice could complete answers to a slot: none is outstanding, no in-flight record is the slot's,
or they are those of an ACTIVE controller, which lose them as it leaves ACTIVE (R174, R182). -/
def State.NoWaitStays (s : State) (n : Slot) : Prop :=
  s.alarm.waits = [] ∨ (∀ f ∈ s.agent.inflight, f.requester ≠ n) ∨
    ((s.slot n).state = .active ∧ n.val < 2 ∧ ∃ i : Identity, (s.slot n).identity = some i ∧ i.kind = .control)

/-- Between two states a slot entered FAULTED with a reason: its guard stays set only where it was powered and its raw
presence line reads absent, its power is off and its port is down, no other slot changes, SLOT_FAULT follows, and the
agent loses what it held for a slot that was up (R132, R134, R181, R182). -/
def Faults (n : Slot) (reason : FaultReason) (kind : Option SidebandOutcome) (s t : State) : Prop :=
  let r := s.slot n
  (t.slot n).state = .faulted ∧ (t.slot n).fault = some reason ∧ (t.slot n).failureKind = kind ∧
    (t.slot n).pullGuard = (r.state.poweredOn && r.pullGuard && !r.lines.rawPresent) ∧
    (t.slot n).lines.powerEnable = false ∧ (t.slot n).lines.removeLamp = true ∧
    (t.slot n).counters = { r.counters with faults := oneMore r.counters.faults } ∧
    (t.slot n).admitted = r.admitted ∧
    (r.state.poweredOn = true → (t.slot n).softStart = none ∧ (t.slot n).drainTimer = none ∧
      t.slots.committed = s.slots.committed - r.powerClass.getD 0) ∧
    (r.state.poweredOn = false → t.slots.committed = s.slots.committed) ∧
    (r.state = .linking ∨ r.state.isUp = true → (t.port n).link = .down ∧ (t.port n).transmission = none) ∧
    t.slots.waitingList = s.slots.waitingList ∧ (∀ m : Slot, m ≠ n → t.slot m = s.slot m) ∧
    t.mon.powered = s.mon.powered.write n false ∧ PointReported (slotFaultPoint n) true s t ∧
    AgentFollows n .faulted s t

/-- The 64 bytes of an identity record that passes the tests of R147, at the offsets of 12.5. -/
def ValidRecord (bytes : List Byte) : Prop :=
  let b (i : Nat) : Nat := (bytes.getD i 0).toNat
  let limit := b 37 * 256 + b 38
  bytes.length = 64 ∧ b 0 = 1 ∧ (bytes.map BitVec.toNat).sum % 256 = 0 ∧ (1 ≤ b 1 ∧ b 1 ≤ 6) ∧
    (1 ≤ b 32 ∧ b 32 ≤ 250) ∧ (b 33 = 1 ∨ b 33 = 2 ∨ b 33 = 4) ∧ (6 ≤ b 34 ∧ b 34 ≤ 11) ∧
    (1 ≤ b 36 ∧ b 36 ≤ 50) ∧ (1 ≤ limit ∧ limit ≤ 500)

/-! ### Invariants -/

/-- Hub time and the servo: the fields of hub time lie in their ranges, the increment is the one formed from F, and
the magnitudes of F and I are within F_limit (R79, R80, R95). -/
def State.TimeInv (s : State) : Prop :=
  s.time.ns < Config.nsPerSecond ∧ s.time.frac < 2 ^ 32 ∧ s.time.sec < Config.secModulus ∧
    s.time.increment = incrementOf s.time.freq ∧ 1 ≤ s.trk.servo.fLimit ∧ s.trk.servo.fLimit ≤ 100000 ∧
    s.time.freq.natAbs ≤ s.trk.servo.fLimit ∧ s.trk.integral.natAbs ≤ s.trk.servo.fLimit

/-- The slots in power-on states. -/
def State.poweredSlots (s : State) : List Slot := allSlots.filter fun n => (s.slot n).state.poweredOn

/-- Power: the power enable, the lamp and the monitor's powered flag of each slot follow its state, committed power is
the sum of the classes of the slots in power-on states, and the waiting list holds exactly the slots in
WAITING_POWER, each once (R123, R136, R160). -/
def State.PowerInv (s : State) : Prop :=
  (∀ n : Slot, (s.slot n).lines.powerEnable = (s.slot n).state.poweredOn ∧
      (s.slot n).lines.removeLamp = (s.slot n).state.lampLit ∧
      s.mon.powered.read n = (s.slot n).state.poweredOn) ∧
    s.slots.committed = (s.poweredSlots.map s.classOf).sum ∧
    s.slots.waitingList.Nodup ∧ ∀ n : Slot, n ∈ s.slots.waitingList ↔ (s.slot n).state = .waitingPower

/-- Alarms: the active list holds exactly the points in ACTIVE, CLEARING or HELD, each once, and while the part has
its supply each relay is in its alarm position exactly when the list holds an enabled point of its severities
(R169). Without supply both are in it (LOG 16). -/
def State.AlarmInv (s : State) : Prop :=
  s.alarm.active.Nodup ∧ (∀ id : PointId, id ∈ s.alarm.active ↔ (s.point id).state.inList = true) ∧
    (s.alarm.majorAlarm = true ↔ s.alarm.supplied = false ∨ ∃ id ∈ s.alarm.active,
      (s.point id).enabled = true ∧ ((s.point id).severity = .critical ∨ (s.point id).severity = .major)) ∧
    (s.alarm.minorAlarm = true ↔ s.alarm.supplied = false ∨ ∃ id ∈ s.alarm.active,
      (s.point id).enabled = true ∧ (s.point id).severity = .minor)

/-- The acknowledge map and the bytes received of a transaction follow its phase (R144, R145). -/
def Transaction.FollowsPhase (t : Transaction) : Prop :=
  match t.phase with
  | .select | .start | .addressWrite => t.map = ⟨.notReached, .notReached, .notReached⟩ ∧ t.bytes = []
  | .offset => t.map = ⟨.ack, .notReached, .notReached⟩ ∧ t.bytes = []
  | .restart | .addressRead => t.map = ⟨.ack, .ack, .notReached⟩ ∧ t.bytes = []
  | .data => t.map = ⟨.ack, .ack, .ack⟩
  | .stop => t.aborting = false →
      t.map = ⟨.nack, .notReached, .notReached⟩ ∨ t.map = ⟨.ack, .nack, .notReached⟩ ∨ t.map = ⟨.ack, .ack, .nack⟩ ∨
        t.map = ⟨.ack, .ack, .ack⟩

/-- The sideband: each slot has one IDENTIFY entry while it is IDENTIFYING and none otherwise, at most two RAW entries
stand in the queue; without a transaction the queue is empty and the selector connects no slot; and a transaction
serves the entry at the head, whose slot the selector connects, unless it is being aborted (R142, R143, R149). -/
def State.SidebandInv (s : State) : Prop :=
  (∀ n : Slot, (s.side.queue.filter (SidebandEntry.identifies n)).length =
      if (s.slot n).state = .identifying then 1 else 0) ∧
    (s.side.queue.filter SidebandEntry.isRaw).length ≤ Config.maxRawReads ∧
    (s.side.current = none → s.side.queue = [] ∧ s.side.selector = none) ∧
    ∀ t : Transaction, s.side.current = some t → t.FollowsPhase ∧ s.side.selector.isSome = true ∧
      (t.aborting = false → s.side.queue ≠ [] ∧ s.side.selector = s.side.queue.head?.map SidebandEntry.slot)

/-- A transaction is not being aborted, and its stop is over, with an acknowledge map (R144). -/
def Transaction.Stopped (t : Transaction) (now : Nat) (map : AckMap) : Prop :=
  t.aborting = false ∧ t.phase = .stop ∧ t.due ≤ now ∧ t.map = map

/-- The failure kind of a transaction that a clock hold of 10 ms ends: that of the byte that was not acknowledged before
it, after which the hold stands in the stop, and HOLD_TIMEOUT otherwise (R145). -/
def heldKind (map : AckMap) : SidebandOutcome :=
  if map.addressWrite = .nack ∨ map.addressRead = .nack then .addrNack
  else if map.offset = .nack then .offsetNack
  else .holdTimeout

/-- The current transaction fails by a command with a kind and an acknowledge map: found stuck in SELECT; after its stop,
at the byte that was not acknowledged; or at 10 ms of a clock hold, with the map as it stands (R145; LOG 17). -/
def State.ReadFails (s : State) (i : Instr) (kind : SidebandOutcome) (map : AckMap) : Prop :=
  ∃ t : Transaction, s.side.current = some t ∧ t.aborting = false ∧
    ((i = .sidebandTransactionEnd .busStuck ∧ kind = .busStuck ∧ map = ⟨.notReached, .notReached, .notReached⟩ ∧
        t.phase = .select ∧ t.stuck = true) ∨
      (t.Stopped s.time.localTicks map ∧
        ((i = .sidebandTransactionEnd .addressWriteNack ∧ kind = .addrNack ∧ map = ⟨.nack, .notReached, .notReached⟩) ∨
          (i = .sidebandTransactionEnd .offsetNack ∧ kind = .offsetNack ∧ map = ⟨.ack, .nack, .notReached⟩) ∨
          (i = .sidebandTransactionEnd .addressReadNack ∧ kind = .addrNack ∧ map = ⟨.ack, .ack, .nack⟩))) ∨
      (i = .holdTimeout t.phase ∧ kind = heldKind t.map ∧ map = t.map ∧
        ∃ since : Nat, t.held = some since ∧ since + 1250000 ≤ s.time.localTicks))

/-- Flows: a written flow holds each reason exactly while its condition is true (the table of 2.2), a flow that is not
FREE is written, and an enabled flow is LIVE exactly when its suspension set is empty (R22). -/
def State.FlowInv (s : State) : Prop :=
  ∀ f : Fin 255,
    ((s.flow f).fields = none ↔ (s.flow f).state = .free) ∧
      (∀ r : FlowRecord, (s.flow f).fields = some r →
        ((s.flow f).suspension.sourceDown = true ↔ (s.slot r.source).state ≠ .active) ∧
        ((s.flow f).suspension.destDown = true ↔ ∃ n : Slot, r.dest = .slot n ∧ (s.slot n).state ≠ .active) ∧
        ((s.flow f).suspension.timing = true ↔ r.needsLock = true ∧ s.trk.timing = .freerun) ∧
        ((s.flow f).suspension.fit = true ↔ r.cls = .sample ∧ fits s s.cal.active r = false)) ∧
      ((s.flow f).enabled = true → ((s.flow f).state = .live ↔ (s.flow f).suspension.isEmpty = true))

/-- Limits: the request queue holds at most 8 requests, at most 4 alarm waits are outstanding and at most 32 notices
are pending, and a wait is outstanding only while no notice is pending (R173, R174, R178). -/
def State.LimitInv (s : State) : Prop :=
  s.agent.queue.length ≤ Config.maxRequests ∧ s.alarm.waits.length ≤ Config.maxWaits ∧
    s.alarm.notices.length ≤ Config.maxNotices ∧ (s.alarm.waits ≠ [] → s.alarm.notices = [])

/-- Stored frames: their references are distinct, and below the next one with every reference that stands in a queue; and
a frame of the hub stands in the queues of its own port alone (R45, R47, R48; LOG 23). -/
def State.FrameInv (s : State) : Prop :=
  (s.qm.frames.map StoredFrame.id).Nodup ∧ (∀ f ∈ s.qm.frames, f.id < s.qm.nextFrame) ∧
    ∀ p : Slot, s.HubFramesAtHome p ∧
      ∀ id ∈ (s.sq p).queues.sample ++ (s.sq p).queues.timing ++ (s.sq p).queues.control ++ (s.sq p).queues.bulk,
        id < s.qm.nextFrame

/-! ### What a tick brings -/

/-- Counting on from one number of ns to a later one comes onto an instant at an offset into a cycle, the later number
included; a cycle of 0, which no run reaches, has no such instant (R63). -/
def ComesOnto (cycle offset before after : Nat) : Prop :=
  0 < cycle ∧ ∃ k : Nat, before < k * cycle + offset ∧ k * cycle + offset ≤ after

/-- A deadline stands and has come. -/
def HasCome (deadline : Option Nat) (now : Nat) : Prop := ∃ d : Nat, deadline = some d ∧ d ≤ now

/-- The tick that takes local time to `now`, and hub time from `before` to `after` in ns, brings a command: the end of a
transmission, a deadline that stands, a clock or timer that has run its time, or an instant of hub time (R3, R7, R13, R55,
R69, R72, R86, R87, R90, R104, R114, R120, R124, R129, R156, R171; LOG 2, 26). The ends of a sideband transaction and of a
conversion are not spoken of here. -/
def State.ComesDue (s : State) (now before after : Nat) : Instr → Prop
  | .transmissionEnd p => ∃ ends : Nat, ends ≤ now * 8 ∧
      ((∃ id, (s.port p).transmission = some (.frame id ends)) ∨ ∃ k, (s.port p).transmission = some (.test k ends))
  | .trainingDeadlineExpiry p => (s.port p).link = .training ∧ HasCome (s.port p).trainingDeadline now
  | .testDeadlineExpiry p => (s.port p).link = .testing ∧ HasCome (s.port p).testDeadline now
  | .holdTimerExpiry p => (s.sq p).hold = .holding ∧ HasCome (s.sq p).holdTimer now
  | .presenceDebounced n => HasCome (s.slot n).presenceDebounce now
  | .latchDebounced n => HasCome (s.slot n).latchDebounce now
  | .softStartExpiry n => (s.slot n).state = .powering ∧ HasCome (s.slot n).softStart now
  | .drainTimeout n => (s.slot n).state = .draining ∧ HasCome (s.slot n).drainTimer now
  | .extInputDebounced i => HasCome (s.input i).debounce now
  | .silenceTimeout src => ((s.source src).state = .candidate ∨ (s.source src).state = .qualified) ∧
      3 * s.sourceInterval src ≤ now - (s.source src).silenceStart
  | .holdoffExpiry src => (s.source src).state = .failed ∧
      ∃ start : Nat, (s.source src).holdoffStart = some start ∧ 1250000000 ≤ now - start
  | .holdoverLimitReached => s.trk.timing = .holdover ∧
      (∀ start : Nat, s.trk.holdoverStart = some start → s.trk.servo.holdoverLimit ≤ (now - start) / 125000000) ∧
      (s.trk.holdoverStart = none → s.trk.servo.holdoverLimit ≤ s.trk.holdoverLast)
  | .probeTick => s.delay.nextProbe ≤ now
  | .markTick => s.delay.nextMark ≤ now
  | .localSecond => 125000000 ∣ now
  | .windowOpen p => ∃ w ∈ s.cal.active.windows.read p, ComesOnto s.cal.active.cycle w.start before after
  | .windowEnd p => ∃ w ∈ s.cal.active.windows.read p,
      ComesOnto s.cal.active.cycle (w.start + w.length) before after
  | .calendarSwap => s.cal.arming ≠ none ∧ ComesOnto s.cal.pendingBank.cycle 0 before after
  | .hubSecond => ComesOnto 1000000000 0 before after
  | _ => False

end Sys2Proof.Machine
end

