-- ==== Sys2Proof/Certificates/Slice0/Obligations.lean ====
section
/-! DEFINITION. The statements about the hub, for the provers. Each says which rules of spec/ it rests on; where a
statement rests on a choice of the model, its text names the entry of the assumption log. -/

open Sys2Proof Sys2Proof.Machine

/-- A step runs the command at the front of the queue. For every command and state, one step of the state with that
command at the front of its queue is the command's effect on the state with the rest of the queue. The queue of
commands is the model's own (LOG 2). Rests on: spec/00_scope.md: How the blocks work together. -/
def Obligations.StepRunsFrontCommand : Prop :=
  ∀ (c : Instr) (rest : List Instr) (s : State), step { s with pending := c :: rest } = exec c { s with pending := rest }

/-- Every command completes, whatever the state, and leaves the waiting commands alone. For every command and every
state exec answers a next state, in which the queue of waiting commands is as it was: no command ends in a fault or a
refusal (LOG 1). Rests on: spec/00_scope.md: Events between blocks; spec/11_management_requests.md: R179. -/
def Obligations.EveryCommandAnswersNext : Prop :=
  ∀ (i : Instr) (s : State), ∃ t : State, exec i s = .next t ∧ t.pending = s.pending

/-- POWER_ON gives every block its initial values over the levels the input lines have. For every state, POWER_ON
answers the power-on state over the raw presence, latch, power good and fast fault lines and the raw external inputs
as they are; the queue of commands and the count of free values, which are the model's own, are kept (LOG 7). In it
every port has the values of R1 (attempt 1 is the model's choice, LOG 8), every flow is FREE, every group empty, every
queue empty, both banks have a cycle of 250,000 ns and no windows, hub time and F are 0 with the nominal increment,
both sources are UNAVAILABLE in FREERUN with quality 4, the probe and mark clocks tick first one interval later, every
slot is EMPTY with presence absent and latch OPEN and every other item absent, budgets of 600 and 200 W with MAINS in
force, the sideband queue is empty with no last attempts, the channels have the thresholds of R154 and the monitor
scans its first pass of all sixteen, whose first conversion ends after 20 microseconds, every point has the severity,
persistences and latch of the catalogue, TIMING_FREERUN alone stands in the active list with its notice pending, every
mailbox is empty, and the agent has no requests. Every counter is 0 but those of that first notice and raise. Rests
on: spec/01_backplane_links_and_cabinet_frames.md: R1; spec/02_flows_and_forwarding.md: R21, R27, R31, R35;
spec/03_cell_buffer_and_egress_queues.md: R48, R52, R56, R60; spec/04_the_window_calendar_and_egress_selection.md:
R62; spec/05_hub_time_and_reference_tracking.md: R79, R81, R89, R97, R98, R100; spec/06_slot_delay_and_time_marks.md:
R102, R104, R114; spec/07_slot_lifecycle_and_power.md: R119, R120, R139; spec/08_card_identity_over_the_sideband.md:
R141, R153; spec/09_cabinet_monitor.md: R154, R163; spec/10_alarms_notices_and_mailboxes.md: R164, R169, R171, R174,
R176, R177; spec/11_management_requests.md: R178, R185. -/
def Obligations.PowerOnInitialValues : Prop :=
  ∀ s : State, ∃ t : State, exec .powerOn s = .next t ∧ t.pending = s.pending ∧ t.free = s.free ∧ t.out = [] ∧
    (∀ p : Slot, t.port p =
      { link := .down, attempt := 1, laneGood := #v[true, true, true, true], trained := [], workingWidth := none,
        reportedWidth := none, lanesInUse := [], testProgress := 0, cardHold := false, pauseAsserted := false,
        transmission := none, assembly := none, errorCount := 0, lastErrorCount := 0, stallSeen := false,
        errorThreshold := 16, counters := ⟨0, 0, 0, 0⟩, trainingDeadline := none, testDeadline := none,
        testUnsent := [], testNext := 16 }) ∧
    (∀ f : Fin 255, t.flow f = ⟨.free, none, ⟨false, false, false, false⟩, 0, 0⟩) ∧
    (∀ g : Fin 16, t.groupMembers g = []) ∧ t.fwd.defaultForwarded = 0 ∧ t.fwd.defaultDropped = 0 ∧
    (∀ n : Slot, t.fwd.drops.read n = ⟨#v[0, 0, 0, 0, 0, 0, 0, 0, 0], 0⟩) ∧
    (∀ n : Slot, t.sq n = ⟨⟨[], [], [], []⟩, false, .none, none, 0, ⟨0, 0, 0, 0, 0⟩⟩ ∧
      t.queueConfig n = ⟨512, 64, 128, 128, 50, 3⟩) ∧
    t.qm.frames = [] ∧ t.qm.waiting = [] ∧ t.qm.exhaustion = false ∧
    (∀ p : Slot, t.cal.active.windows.read p = [] ∧ t.cal.pendingBank.windows.read p = []) ∧
    t.cal.active.cycle = 250000 ∧ t.cal.pendingBank.cycle = 250000 ∧ t.cal.arming = none ∧
    t.time = ⟨0, 0, 0, 0, 34359738368, 0⟩ ∧
    (let absent : SourceRecord :=
        { state := .unavailable, provider := none, ePrev := none, good := 0, jumps := 0, prevArrival := none
          silenceStart := 0, holdoffStart := none, announced := none };
      t.trk = {
        srcP := absent, srcN := absent, selected := none, timing := .freerun, holdoverReady := false
        holdoverStart := none, holdoverLast := 0, integral := 0, lockRun := 0, unlockRun := 0
        source := ⟨false, true, none, 1, 0, 5000⟩, servo := ⟨64, 8, 50000, 1000, 100, 8, 14400⟩
        counters := ⟨⟨0, 0, 0, 0⟩, ⟨0, 0, 0, 0⟩, 0, 0⟩ }) ∧
    (∀ n : Slot, t.slotDelay n = {
      client := false, nextSeq := 0, outstanding := none, window := [], base := none, missRun := 0, highRun := 0
      asymmetry := 0, delays := none, counters := ⟨0, 0, 0, 0, 0, 0, 0, 0, 0, 0, 0, 0⟩ }) ∧
    t.delay.quality = 4 ∧ t.delay.config = ⟨8, 4000, 100, 4⟩ ∧
    t.delay.nextProbe = 15625000 ∧ t.delay.nextMark = 31250000 ∧
    (∀ n : Slot, t.slot n = {
      state := .empty, present := false, closed := false, identity := none, powerClass := none, admitted := false
      width := none, fault := none, failureKind := none, pullGuard := false, softStart := none, drainTimer := none
      lines := { (s.slot n).lines with powerEnable := false, removeLamp := false }
      presenceDebounce := if (s.slot n).lines.rawPresent then some 12500000 else none
      latchDebounce := if (s.slot n).lines.rawClosed then some 2500000 else none
      counters := ⟨0, 0, 0, 0, 0, 0⟩ }) ∧
    t.slots.committed = 0 ∧ t.slots.waitingList = [] ∧ t.slots.mainsBudget = 600 ∧ t.slots.batteryBudget = 200 ∧
    t.slots.inForce = .mains ∧ t.slots.manual = #v[false, false, true, false, false, false] ∧
    t.slots.drainTimeout = 100 ∧
    t.side.queue = [] ∧ t.side.current = none ∧ t.side.selector = none ∧
    (∀ n : Slot, t.side.lastAttempt.read n = none ∧ t.side.counters.read n = ⟨0, 0, 0⟩) ∧
    t.mon.mode = .continuous ∧ t.mon.trigger = .software ∧ t.mon.single = 0 ∧ t.mon.state = .scanning ∧
    t.mon.pass = allChannels ∧ t.mon.conversionEnd = some 2500 ∧ t.mon.counters = ⟨0, 0, 0, 0⟩ ∧
    (∀ n : Slot, t.mon.powered.read n = false) ∧
    (∀ c : Channel, t.mon.channel.read c = {
      last := none, inScan := true, hysteresis := 4, warning := none, critical := none
      critLow := if c = 12 then some 420 else if c = 13 then some 430 else none
      warnLow := if c = 12 ∨ c = 13 then some 460 else none
      warnHigh := if c = 14 then some 460 else if c = 15 then some 540 else none
      critHigh := if c = 14 then some 520 else if c = 15 then some 600 else none }) ∧
    (∀ id : PointId,
      let k := id.val
      let sampled : Bool := (12 ≤ k && k < 36) || (48 ≤ k && k < 80) || k == 91
      let first : Bool := k == 81
      t.point id = {
        severity := if k < 12 ∨ (36 ≤ k ∧ k < 48) ∨ (64 ≤ k ∧ k < 80) ∨ k ∈ [81, 85, 86, 87, 88, 89, 92] then .major
          else if k = 84 ∨ k = 90 then .warning else .minor
        enabled := true
        raisePers := if sampled then some (if (12 ≤ k ∧ k < 24) ∨ k = 91 then 1 else 3) else none
        clearPers := if sampled then some (if 12 ≤ k ∧ k < 24 then 5 else if k = 91 then 10 else 3) else none
        latched := (36 ≤ k && k < 48) || k == 84
        state := if first then .active else .clear
        count := 0, acked := false, condition := first, raiseCount := if first then 1 else 0, lastChange := 0 }) ∧
    t.alarm.active = [freerunPoint] ∧ t.alarm.majorAlarm = true ∧ t.alarm.minorAlarm = false ∧
    t.alarm.notices = [⟨.alarm freerunPoint .active .major, 0⟩] ∧ t.alarm.overflow = false ∧ t.alarm.waits = [] ∧
    t.alarm.acks = [] ∧ (∀ n : Slot, t.alarm.mailbox.read n = none) ∧ t.alarm.counters = ⟨1, 0, 0, 0, 0⟩ ∧
    (∀ i : Fin 4, t.input i = ⟨(s.input i).rawOpen, false, true,
      if (s.input i).rawOpen then some 6250000 else none⟩) ∧
    t.agent = ⟨[], [], 0, [], 0, ⟨0, 0, 0, 0, 0⟩⟩

/-- With no command waiting, a step takes the reserve grant, then the request, then the tick. With no command waiting
(a choice of the model, LOG 2): where the head of the reserve waiting list fits the free reserve cells (LOG 48), the
step is RESERVE_WAITING_GRANT; otherwise, where the agent may take a request and one is queued, the step is the taking
of the request at its head, a WRITE_GROUP with a group that is a free value (LOG 35); otherwise it is one oscillator
tick. The tick adds one period to local time and the increment to hub time in units of 2^-32 ns, the seconds returning
to 0 past 2^48 - 1, and queues each command exactly where its time has come: the end of a transmission, each deadline,
timer and clock that has run its time, LOCAL_SECOND at the whole local seconds, WINDOW_OPEN, WINDOW_END, CALENDAR_SWAP
while armed and HUB_SECOND as hub time comes onto their instants, and CONVERSION_COMPLETE 20 microseconds into a
conversion. Without a transaction and a conversion due it changes nothing else. Of a transaction that is not being
aborted (what a seated card does on the line are free values; a card that was pulled holds neither wire, acknowledges
nothing and is read as all ones, LOG 17): while the card holds the clock wire the transaction waits, and HOLD_TIMEOUT
comes once the hold has lasted 10 ms; otherwise it waits for the end of its condition or byte. SELECT with the data
wire low finds it stuck and ends it, and with the wire free is followed by the start, a start by the byte 108, a
restart by 109, an acknowledged byte by the offset, the restart or the data, a byte not acknowledged and the last data
byte by the stop, 10 microseconds for a condition and 90 for a byte, and the stop by the end that its acknowledge map
shows, with the bytes received. In an abort the condition or byte in progress is the last before the stop, after which
the next transaction starts. Rests on: spec/00_scope.md: Conventions, Time;
spec/01_backplane_links_and_cabinet_frames.md: R3, R6, R13; spec/03_cell_buffer_and_egress_queues.md: R46, R55;
spec/04_the_window_calendar_and_egress_selection.md: R69, R72; spec/05_hub_time_and_reference_tracking.md: R79, R86,
R87, R90; spec/06_slot_delay_and_time_marks.md: R104, R114; spec/07_slot_lifecycle_and_power.md: R120, R124, R129;
spec/08_card_identity_over_the_sideband.md: R144, R145; spec/09_cabinet_monitor.md: R156, R157;
spec/10_alarms_notices_and_mailboxes.md: R171; spec/11_management_requests.md: R179. -/
def Obligations.IdleStepTakesWhatComesNext : Prop :=
  ∀ s : State, s.pending = [] →
    (headFits s = true → step s = exec .reserveWaitingGrant s) ∧
    (headFits s = false → s.mayTake = true → ∀ r : Request, s.agent.queue.head? = some r →
      step s = exec (decodeRequest (Config.freeByte s.free) r.payload) s) ∧
    (headFits s = false → (s.mayTake = false ∨ s.agent.queue = []) →
      let total (t : State) : Nat := (t.time.sec * 1000000000 + t.time.ns) * 2 ^ 32 + t.time.frac
      let now := s.time.localTicks + 1
      let due : Prop := s.mon.state = .scanning ∧ ∃ e : Nat, s.mon.conversionEnd = some e ∧ e ≤ now
      ∃ t : State, step s = .next t ∧ t.time.localTicks = now ∧
        total t = (total s + s.time.increment) % (2 ^ 48 * 1000000000 * 2 ^ 32) ∧
        t.time.ns < 1000000000 ∧ t.time.frac < 2 ^ 32 ∧
        t.time.increment = s.time.increment ∧ t.time.freq = s.time.freq ∧
        (let before := s.time.sec * 1000000000 + s.time.ns
          let after := before + (s.time.frac + s.time.increment) / 2 ^ 32
          ∀ i : Instr, (∀ e : SidebandEnd, i ≠ .sidebandTransactionEnd e) → (∀ p : SidebandPhase, i ≠ .holdTimeout p) →
            (∀ r : BitVec 10, i ≠ .conversionComplete r) → (i ∈ t.pending ↔ s.ComesDue now before after i)) ∧
        ((∃ r, .conversionComplete r ∈ t.pending) ↔ due) ∧
        (s.side.current = none → (∀ e : SidebandEnd, .sidebandTransactionEnd e ∉ t.pending) ∧
          ∀ p : SidebandPhase, .holdTimeout p ∉ t.pending) ∧
        (s.side.current = none → ¬ due → OnlyChanges [.time, .pending, .out] s t) ∧
        OnlyChanges [.time, .pending, .side, .out, .free] s t ∧
        (∀ (x : Transaction) (n : Slot) (e : SidebandEntry) (rest : List SidebandEntry), s.side.current = some x →
          x.aborting = false → s.side.selector = some n → s.side.queue = e :: rest →
          let stays : Prop := t.side = { s.side with current := some { x with held := none } } ∧ t.out = []
          let goes (p : SidebandPhase) (ticks : Nat) (map : AckMap) (bytes : List Byte) (signals : List SidebandSignal) :
              Prop :=
            t.side = { s.side with current := some ⟨p, bytes, map, x.due + ticks, none, false, x.stuck⟩ } ∧
              t.out = signals.map (Output.sideband n)
          let seated := (s.slot n).lines.rawPresent
          let refused := !seated || Config.cardRefusesByte (s.free + 1)
          let item : AckItem := if refused then .nack else .ack
          let answered (map : AckMap) (p : SidebandPhase) (ticks : Nat) (signal : List SidebandSignal) : Prop :=
            if refused then goes .stop 1250 map x.bytes [.stop] else goes p ticks map x.bytes signal
          let bytes := x.bytes ++ [if seated then Config.freeByte (s.free + 1) else 255]
          if seated && Config.cardHoldsClock s.free then
            t.side = { s.side with current := some { x with held := some (x.held.getD now), due := x.due + 1 } } ∧
              t.out = [] ∧ (.holdTimeout x.phase ∈ t.pending ↔ x.held.getD now + 1250000 ≤ now)
          else
            (now < x.due → stays) ∧
            (x.due ≤ now →
              (x.phase = .select → if seated && Config.cardHoldsData (s.free + 1) then
                  t.side = { s.side with current := some { x with held := none, stuck := true } } ∧ t.out = [] ∧
                    .sidebandTransactionEnd .busStuck ∈ t.pending
                else goes .start 1250 x.map x.bytes [.start]) ∧
              (x.phase = .start → goes .addressWrite 11250 x.map x.bytes [.bits (wireBits 108)]) ∧
              (x.phase = .addressWrite → answered { x.map with addressWrite := item } .offset 11250
                [.bits (wireBits (BitVec.ofNat 8 e.offset))]) ∧
              (x.phase = .offset → answered { x.map with offset := item } .restart 1250 [.restart]) ∧
              (x.phase = .restart → goes .addressRead 11250 x.map x.bytes [.bits (wireBits 109)]) ∧
              (x.phase = .addressRead → answered { x.map with addressRead := item } .data 11250 []) ∧
              (x.phase = .data → bytes.length < e.length → goes .data 11250 x.map bytes [.acknowledge true]) ∧
              (x.phase = .data → e.length ≤ bytes.length → goes .stop 1250 x.map bytes [.acknowledge false, .stop]) ∧
              (x.phase = .stop → stays ∧ .sidebandTransactionEnd
                (if x.map.addressWrite ≠ .ack then .addressWriteNack
                  else if x.map.offset ≠ .ack then .offsetNack
                  else if x.map.addressRead ≠ .ack then .addressReadNack else .done x.bytes) ∈ t.pending))) ∧
        (∀ (x : Transaction) (n : Slot), s.side.current = some x → x.aborting = true → s.side.selector = some n →
          x.phase ≠ .select → x.due ≤ now →
          ((s.slot n).lines.rawPresent = true ∧ Config.cardHoldsClock s.free = true) ∨
            (x.phase ≠ .stop → ∃ y : Transaction, t.side = { s.side with current := some y } ∧ y.phase = .stop ∧
              y.due = x.due + 1250 ∧ y.held = none ∧ y.aborting = true ∧ Output.sideband n .stop ∈ t.out) ∧
            (x.phase = .stop → t.out = [] ∧ t.side = { s.side with
              current := s.side.queue.head?.map fun _ =>
                ⟨.select, [], ⟨.notReached, .notReached, .notReached⟩, now, none, false, false⟩
              selector := s.side.queue.head?.map SidebandEntry.slot })))

/-- Every well-formed request is read back from its payload, and every frame from its lanes. For every command of the
request catalogue that is well formed and every tag, its MGMT payload in the layouts of the manual decodes to that
command with that tag and code; and every payload that decodes to a request of the catalogue is the payload of that
request with its tag, so no bit of a payload is dropped. A payload of fewer than 3 bytes, and one whose code is 0x00
or above 0x2A, is an unknown request. The layout of WRITE_GROUP has no place for the number of the group: it is read
with a group given from elsewhere, and a payload carries what it decodes to with any group (LOG 35). On 1, 2 or 4
lanes byte i of a stream goes on lane i mod w, and of a frame between any 12 bytes of overhead before it and any 12
after it the bytes are rebuilt from the lanes; the hub sends its frames so, with an overhead whose bytes are left open
(LOG 42). Rests on: spec/11_management_requests.md: R179; spec/12_frame_and_record_formats.md: 12.3;
spec/12_frame_and_record_formats.md: R187, R188. -/
def Obligations.RequestRoundTrip : Prop :=
  (∀ (i : Instr) (tag : BitVec 16) (code : Byte) (args : List Byte), i.wellFormed = true →
    encodeArguments i = some (code, args) →
      encodeRequest tag i = some (code :: (bytes16 tag ++ args)) ∧
      decodeRequest i.groupWritten (code :: (bytes16 tag ++ args)) = i ∧
      requestTag (code :: (bytes16 tag ++ args)) = tag) ∧
  (∀ (g : Byte) (p : List Byte), decodeRequest g p ≠ .unknownRequest →
    encodeRequest (requestTag p) (decodeRequest g p) = some p) ∧
  (∀ (g : Byte) (p : List Byte), decodeRequest (decodeRequest g p).groupWritten p = decodeRequest g p ∧
    ∀ h : Byte, decodeRequest h p = decodeRequest g p ∨
      ∃ ms : List Byte, decodeRequest g p = .writeGroup g ms ∧ decodeRequest h p = .writeGroup h ms) ∧
  (∀ (g : Byte) (p : List Byte), p.length < 3 → decodeRequest g p = .unknownRequest) ∧
  (∀ (g c : Byte) (p : List Byte), c = 0 ∨ 0x2A < c.toNat → decodeRequest g (c :: p) = .unknownRequest) ∧
  (∀ w : Nat, w = 1 ∨ w = 2 ∨ w = 4 →
    (∀ (stream : List Byte) (k j : Nat), k < w →
      ((stripe w stream).getD k [])[j]? = stream[j * w + k]?) ∧
    (∀ before bytes after : List Byte, before.length = 12 → after.length = 12 →
      frameOfLanes (stripe w (before ++ bytes ++ after)) = bytes)) ∧
  (∀ (p : Slot) (lanes : List Lane) (bytes : List Byte), frameOutput p lanes bytes =
    .frame p (lanes.zip (stripe lanes.length
      (List.replicate 12 none ++ bytes.map some ++ List.replicate 12 none))))

/-- Every step keeps: hub time and the servo stay in their ranges. From every state in which the nanoseconds of hub
time are below 10^9, the fraction below 2^32 and the seconds below 2^48, the increment is the one formed from F,
F_limit lies in 1-100,000 and the magnitudes of F and I are within it, every step that answers a next state answers
one in which the same holds. Rests on: spec/05_hub_time_and_reference_tracking.md: R79, R80, R95, R98. -/
def Obligations.StepKeepsTimeInv : Prop :=
  ∀ s t : State, s.TimeInv → step s = .next t → t.TimeInv

/-- Every step keeps: power follows the slot states. From every state in which the power enable, the remove lamp and
the monitor's powered flag of each slot follow its state, committed power is the sum of the classes of the slots in
the power-on states, and the waiting list holds exactly the slots in WAITING_POWER, each once, every step that answers
a next state answers one in which the same holds. Rests on: spec/07_slot_lifecycle_and_power.md: R123, R136;
spec/09_cabinet_monitor.md: R160. -/
def Obligations.StepKeepsPowerInv : Prop :=
  ∀ s t : State, s.PowerInv → step s = .next t → t.PowerInv

/-- Every step keeps: the active list and the relays follow the points. From every state in which the active alarm
list holds exactly the points in ACTIVE, CLEARING or HELD, each once, and each relay is in its alarm position exactly
when the list holds an enabled point of its severities or the part is without supply (LOG 16), every step that answers
a next state answers one in which the same holds. Rests on: spec/10_alarms_notices_and_mailboxes.md: R169. -/
def Obligations.StepKeepsAlarmInv : Prop :=
  ∀ s t : State, s.AlarmInv → step s = .next t → t.AlarmInv

/-- Every step keeps: each identity read has one entry, and a transaction serves the head. From every state in which
each slot has one IDENTIFY entry while it is IDENTIFYING and none otherwise, at most two RAW entries are queued;
without a transaction the queue is empty and the selector connects no slot; and a transaction follows its phase with
its acknowledge map and the bytes received and, unless it is being aborted (LOG 17), serves the head of the queue with
the selector on its slot, every step that answers a next state answers one in which the same holds. Rests on:
spec/08_card_identity_over_the_sideband.md: R142, R143, R144, R149. -/
def Obligations.StepKeepsSidebandInv : Prop :=
  ∀ s t : State, s.SidebandInv → step s = .next t → t.SidebandInv

/-- Every step keeps: suspension sets follow their conditions and LIVE follows the set. From every state in which a
flow has fields exactly unless it is FREE, a written flow holds each suspension reason exactly while its condition is
true, and an enabled flow is LIVE exactly when its set is empty, every step that answers a next state answers one in
which the same holds. Rests on: spec/02_flows_and_forwarding.md: R22, R23, R24, R25;
spec/04_the_window_calendar_and_egress_selection.md: R77, R78. -/
def Obligations.StepKeepsFlowInv : Prop :=
  ∀ s t : State, s.FlowInv → step s = .next t → t.FlowInv

/-- Every step keeps: the queues of requests, waits and notices stay within their limits, and stored frames in theirs.
From every state in which at most 8 requests are queued, at most 4 alarm waits are outstanding, at most 32 notices are
pending, and a wait is outstanding only while no notice is pending (and likewise of one in which stored frames have
distinct references, these and all references in the queues are below the next one (LOG 23), and a hub frame stands in
no queue but its own port's), every step that answers a next state answers one in which the same holds. Rests on:
spec/10_alarms_notices_and_mailboxes.md: R173, R174; spec/11_management_requests.md: R178;
spec/03_cell_buffer_and_egress_queues.md: R45, R47, R48. -/
def Obligations.StepKeepsLimitInv : Prop :=
  ∀ s t : State, step s = .next t → (s.LimitInv → t.LimitInv) ∧ (s.FrameInv → t.FrameInv)

/-- The state after reset meets every invariant that the steps keep. The state right after reset meets the seven
invariants on hub time, power, alarms, the sideband, flows, limits and stored frames. Rests on:
spec/05_hub_time_and_reference_tracking.md: R79; spec/07_slot_lifecycle_and_power.md: R119;
spec/10_alarms_notices_and_mailboxes.md: R164; spec/08_card_identity_over_the_sideband.md: R141;
spec/02_flows_and_forwarding.md: R21; spec/11_management_requests.md: R178; spec/03_cell_buffer_and_egress_queues.md:
R48. -/
def Obligations.InvariantsHoldAtReset : Prop :=
  State.reset.TimeInv ∧ State.reset.PowerInv ∧ State.reset.AlarmInv ∧ State.reset.SidebandInv ∧
    State.reset.FlowInv ∧ State.reset.LimitInv ∧ State.reset.FrameInv

/-- CELL_REQUEST grants a cell and examines the pause, or truncates the frame. On a port that receives (TESTING or UP)
and whose assembly is not truncated: where the shared account has a free cell and the slot's held cells are below its
quota, the assembly gains a cell and the paused decision is examined against the held cells plus one, told to the
port, and sent as a symbol while the link is UP; otherwise the frame is truncated and exhaustion is marked seen.
Nothing else changes. On any other port the command changes nothing but the outputs of the last command (LOG 1, 21).
Rests on: spec/01_backplane_links_and_cabinet_frames.md: R10, R15; spec/03_cell_buffer_and_egress_queues.md: R44, R51,
R61. -/
def Obligations.CellRequestGrantsOrTruncates : Prop :=
  ∀ (p : Slot) (s : State),
    (((s.port p).link = .testing ∨ (s.port p).link = .up) → (∀ a, (s.port p).assembly = some a → a.truncated = false) →
      let k := (s.port p).assemblyCells
      (1 ≤ s.sharedFree → s.heldCells p < (s.queueConfig p).quota →
        let b := s.pausedAt p (s.heldCells p + 1)
        exec (.cellRequest p) s = .next { s with
          ports := s.ports.write p { s.portTold p b with assembly := some ⟨k + 1, false⟩ }
          qm := { s.qm with slot := s.qm.slot.write p { s.sq p with paused := b } }
          out := s.symbolsTold p b }) ∧
      (¬ (1 ≤ s.sharedFree ∧ s.heldCells p < (s.queueConfig p).quota) →
        exec (.cellRequest p) s = .next { s with
          ports := s.ports.write p { s.port p with assembly := some ⟨k, true⟩ }
          qm := { s.qm with exhaustion := true }, out := [] })) ∧
    (((s.port p).link = .down ∨ (s.port p).link = .training ∨ ∃ a, (s.port p).assembly = some a ∧ a.truncated = true) →
      exec (.cellRequest p) s = .next { s with out := [] })

/-- HOLD_ON, HOLD_OFF and a damaged symbol act on an UP port as the symbol table says. On an UP port with card hold
OFF, HOLD_ON sets card hold, the hold state becomes HOLDING and the hold timer starts for the slot's hold limit. On an
UP port with card hold ON, HOLD_OFF clears it and releases the hold: from HOLDING the timer is cancelled and the stall
count becomes 0, from STALLED the stall count is kept; then the arbiter takes a decision for the port. In any other
case the two symbols are ignored. A damaged symbol adds one to the error count, which stops at 65,535, in every link
state but DOWN, where no symbol arrives (LOG 37). Nothing else changes. Rests on:
spec/01_backplane_links_and_cabinet_frames.md: R16, R17, R18; spec/03_cell_buffer_and_egress_queues.md: R53, R54;
spec/04_the_window_calendar_and_egress_selection.md: R72. -/
def Obligations.HoldSymbolsAndDamage : Prop :=
  ∀ (p : Slot) (s : State),
    ((s.port p).link = .up → (s.port p).cardHold = false →
      exec (.holdOn p) s = .next { s with
        ports := s.ports.write p { s.port p with cardHold := true }
        qm := { s.qm with slot := s.qm.slot.write p { s.sq p with
          hold := .holding, holdTimer := some (s.time.localTicks + (s.queueConfig p).holdLimit * 125) } }
        out := [] }) ∧
    ((s.port p).link = .up → (s.port p).cardHold = true →
      exec (.holdOff p) s = .next (arbitrate p { s with
        ports := s.ports.write p { s.port p with cardHold := false }
        qm := { s.qm with slot := s.qm.slot.write p { s.sq p with
          hold := .none
          holdTimer := if (s.sq p).hold = .holding then none else (s.sq p).holdTimer
          stallCount := if (s.sq p).hold = .holding then 0 else (s.sq p).stallCount } }
        out := [] })) ∧
    (¬ ((s.port p).link = .up ∧ (s.port p).cardHold = false) → exec (.holdOn p) s = .next { s with out := [] }) ∧
    (¬ ((s.port p).link = .up ∧ (s.port p).cardHold = true) → exec (.holdOff p) s = .next { s with out := [] }) ∧
    ((s.port p).link ≠ .down →
      exec (.damagedSymbol p) s = .next { s with
        ports := s.ports.write p { s.port p with errorCount := min ((s.port p).errorCount + 1) 65535 }, out := [] }) ∧
    ((s.port p).link = .down → exec (.damagedSymbol p) s = .next { s with out := [] })

/-- At a window event a free port starts exactly the frame that the calendar permits (its end by LOG 18). At
WINDOW_OPEN and WINDOW_END of a port that is free (link UP, card hold OFF, no transmission) and has a reported width
(an UP port without one, which no run reaches, is left out): where the calendar permits the head of a class queue to
start, that frame leaves its queue and becomes the transmission, which ends at its local start time plus its wire time
(the model's reading, LOG 18), its bytes go out on the lanes in use, and a PROBE's start time becomes its send time;
where it permits none, and on a port that is not free, nothing changes. Without windows the first of TIMING, CONTROL
and BULK is permitted; inside a window the SAMPLE head that fits the time left; outside every window the first of the
others that fits the time to the next window. A card's frame goes out unchanged. A hub frame goes out with flow 0 and
source 0, padded to 64 bytes and with its check, the time of its making as timestamp, but a PROBE and a TIME_MARK the
hub time of the start plus the compensation, nanoseconds carrying into seconds; the check of the digits 1 to 9 is
FC891918. Rests on: spec/01_backplane_links_and_cabinet_frames.md: R13, R14; spec/03_cell_buffer_and_egress_queues.md:
R48; spec/04_the_window_calendar_and_egress_selection.md: R72, R73, R74, R75, R76;
spec/06_slot_delay_and_time_marks.md: R105, R114; spec/12_frame_and_record_formats.md: 12.1;
spec/12_frame_and_record_formats.md: R186, R187. -/
def Obligations.ArbiterDecides : Prop :=
  ∀ (p : Slot) (s : State) (i : Instr), i = .windowOpen p ∨ i = .windowEnd p →
    (¬ ((s.port p).link = .up ∧ (s.port p).cardHold = false ∧ (s.port p).transmission = none) →
      exec i s = .next { s with out := [] }) ∧
    ((s.port p).link = .up → (s.port p).cardHold = false → (s.port p).transmission = none →
      ∀ w : Width, (s.port p).reportedWidth = some w →
        (∀ (c : FrameClass) (id : Nat), Permitted s p w c id → ∀ f : StoredFrame, s.frame? id = some f →
          ∃ t : State, exec i s = .next t ∧ Starts p c id f { s with out := [] } t) ∧
        ((∀ (c : FrameClass) (id : Nat), ¬ Permitted s p w c id) → exec i s = .next { s with out := [] })) ∧
    (∀ (n : Slot) (bytes : List Byte), egressBytes (.card n bytes) s.hubNow = bytes) ∧
    (∀ h : HubFrame,
      let start := s.time.sec * 1000000000 + s.time.ns + h.compensation
      let timed (kind : Byte) : List Byte := [kind, 1, BitVec.ofNat 8 (h.dest.val + 1), 0, 0, h.seq] ++
        beBytes 2 h.payload.length ++ beBytes 6 (start / 1000000000) ++ beBytes 4 (start % 1000000000)
      let made (kind : Byte) : List Byte := [kind, 2, BitVec.ofNat 8 (h.dest.val + 1), 0, 0, h.seq] ++
        beBytes 2 h.payload.length ++ beBytes 6 h.made.sec ++ beBytes 4 h.made.ns
      let header : List Byte := match h.kind with
        | .mgmtResp => made 3
        | .probe => timed 4
        | .timeMark => timed 6
        | .mailAck => made 9
      let body := header ++ [0, 0] ++ h.payload ++ List.replicate (40 - h.payload.length) 0
      egressBytes (.hub h) s.hubNow = body ++ beBytes 4 (crc32 body).toNat ∧
        checkPasses (egressBytes (.hub h) s.hubNow) = true) ∧
    crc32 [0x31, 0x32, 0x33, 0x34, 0x35, 0x36, 0x37, 0x38, 0x39] = 0xFC891918

/-- TRANSMISSION_END gives the frame back, frees it at its last reference, and the port decides again (LOG 1, 18). At
the end of a stored frame's transmission the port has none, the frame counts as sent, its reference is given back and
the frame freed at the last one, the pause of the ingress slot of a freed CONTROL or BULK frame is examined; then the
arbiter takes a decision for the port and drains whose egress is empty end. At the end of a TEST frame the next TEST
frame that is built goes out at once while the port is in TESTING, with its bytes; its end is its local start time
plus its wire time (LOG 18). An end without a transmission does nothing of its own (LOG 1). Rests on:
spec/01_backplane_links_and_cabinet_frames.md: R6, R13, R14; spec/03_cell_buffer_and_egress_queues.md: R47, R48, R51,
R60; spec/04_the_window_calendar_and_egress_selection.md: R72. -/
def Obligations.TransmissionEndGivesBack : Prop :=
  ∀ (p : Slot) (s : State),
    (∀ id ends : Nat, (s.port p).transmission = some (.frame id ends) → ∀ f : StoredFrame, s.frame? id = some f →
      ∃ u : State, exec (.transmissionEnd p) s = .next (checkDrains (arbitrate p u)) ∧
        u.port p = { s.port p with transmission := none, pauseAsserted := (u.port p).pauseAsserted } ∧
        PausesOnly p s u ∧ GivesBack id f s u ∧
        (u.sq p).egress = { (s.sq p).egress with sent := min ((s.sq p).egress.sent + 1) (2 ^ 32 - 1) } ∧
        (∀ q : Slot, (u.sq q).queues = (s.sq q).queues) ∧
        (f.refs ≤ 1 → f.cls ≠ .sample → ∀ (n : Slot) (bytes : List Byte), f.body = .card n bytes →
          PauseFollows n s u ∧ ∀ q : Slot, q ≠ n → (u.sq q).paused = (s.sq q).paused) ∧
        (1 < f.refs → ∀ q : Slot, (u.sq q).paused = (s.sq q).paused) ∧ OnlyChanges [.ports, .qm, .out] s u) ∧
    (∀ (seq ends : Nat), (s.port p).transmission = some (.test seq ends) →
      ((s.port p).link = .testing → ∀ (next : Nat) (rest : List Nat), (s.port p).testUnsent = next :: rest →
        ∀ w : Width, (s.port p).workingWidth = some w →
        exec (.transmissionEnd p) s = .next (checkDrains { s with
          ports := s.ports.write p { s.port p with
            testUnsent := rest, transmission := some (.test next (s.time.localTicks * 8 + wireTime 64 w)) }
          out := [frameOutput p (s.port p).lanesInUse (testBytes p (s.port p).attempt next)] })) ∧
      ((s.port p).testUnsent = [] →
        exec (.transmissionEnd p) s = .next (checkDrains (arbitrate p { s with
          ports := s.ports.write p { s.port p with transmission := none }, out := [] })))) ∧
    ((s.port p).transmission = none → exec (.transmissionEnd p) s = .next (checkDrains { s with out := [] }))

/-- HOLD_TIMER_EXPIRY flushes and stalls the port, faults the slot at the stall limit, or ends its drain (LOG 1, 24).
While the hold timer runs in HOLDING and no drain of the slot ends with the flush: the four queues of the port are
emptied, each copy removed an egress discard whose reference is returned (the frame is freed at its last reference,
and stays with one reference less otherwise), the stall count rises by one (at most 15), stall seen is set, and the
hold state becomes STALLED without a timer; frames of other queues, the other ports and the other blocks stay as they
are but for released pauses. Where the count reaches the stall limit and the slot is up, the slot is FAULTED with
STALL, its link DOWN and its power off, and the stall count is kept. Where the flush leaves a DRAINING slot's port
nothing to send, the drain is completed first and the slot is QUIESCED, not FAULTED (LOG 24), and with the head of the
waiting list blocked no other slot changes. Without a running hold timer nothing happens (LOG 1). Rests on:
spec/01_backplane_links_and_cabinet_frames.md: R18; spec/03_cell_buffer_and_egress_queues.md: R47, R55, R56, R57, R58;
spec/07_slot_lifecycle_and_power.md: R129, R131, R132. -/
def Obligations.HoldExpiryStallsPort : Prop :=
  ∀ (p : Slot) (s : State),
    (¬ ((s.sq p).hold = .holding ∧ (s.sq p).holdTimer.isSome = true) →
      exec (.holdTimerExpiry p) s = .next { s with out := [] }) ∧
    ((s.sq p).hold = .holding → (s.sq p).holdTimer.isSome = true →
      ((s.slot p).state = .draining → (s.port p).transmission ≠ none) →
      let q := (s.sq p).queues
      let copies := q.sample ++ q.timing ++ q.control ++ q.bulk
      let count := min 15 ((s.sq p).stallCount + 1)
      (count < (s.queueConfig p).stallLimit ∨ (s.slot p).state.isUp = false → (s.sq p).egress.discards < 2 ^ 32 →
        ∃ t : State, exec (.holdTimerExpiry p) s = .next t ∧
          t.sq p = { s.sq p with
            queues := ⟨[], [], [], []⟩, hold := .stalled, holdTimer := none, stallCount := count
            paused := (t.sq p).paused
            egress := { (s.sq p).egress with
              discards := min ((s.sq p).egress.discards + copies.length) (2 ^ 32 - 1) } } ∧
          (∀ n : Slot, n ≠ p → t.sq n = { s.sq n with paused := (t.sq n).paused }) ∧
          t.port p = { s.port p with stallSeen := true, pauseAsserted := (t.port p).pauseAsserted } ∧
          PausesOnly p s t ∧ (∀ id : Nat, id ∉ copies → t.frame? id = s.frame? id) ∧
          (∀ id : Nat, copies.count id = 1 → ∀ f : StoredFrame, s.frame? id = some f →
            (f.refs ≤ 1 → t.frame? id = none) ∧ (1 < f.refs → t.frame? id = some { f with refs := f.refs - 1 })) ∧
          OnlyChanges [.ports, .qm, .out] s t) ∧
      ((s.queueConfig p).stallLimit ≤ count → (s.slot p).state.isUp = true → s.PowerInv →
        ∃ t : State, exec (.holdTimerExpiry p) s = .next t ∧ (t.slot p).state = .faulted ∧
          (t.slot p).fault = some .stall ∧ (t.slot p).lines.powerEnable = false ∧
          (t.slot p).lines.removeLamp = true ∧ (t.port p).link = .down ∧ (t.sq p).stallCount = count ∧
          (t.sq p).queues = ⟨[], [], [], []⟩ ∧ (t.sq p).hold = .none ∧ (t.sq p).holdTimer = none)) ∧
    ((s.sq p).hold = .holding → (s.sq p).holdTimer.isSome = true → (s.slot p).state = .draining →
      (s.port p).transmission = none → s.HeadBlocked s.slots.waitingList (s.slots.committed - s.classOf p) →
      let r := s.slot p
      let q := (s.sq p).queues
      let waiting := q.sample.length + q.timing.length + q.control.length + q.bulk.length
      ∃ t : State, exec (.holdTimerExpiry p) s = .next t ∧
        t.slots = { s.slots with
          committed := s.slots.committed - s.classOf p
          slot := s.slots.slot.write p { r with
            state := .quiesced, pullGuard := false, softStart := none, drainTimer := none, width := (t.slot p).width
            lines := { r.lines with powerEnable := false, removeLamp := true }
            counters := { r.counters with drainsCompleted := oneMore r.counters.drainsCompleted } } } ∧
        (t.sq p).queues = ⟨[], [], [], []⟩ ∧ (t.sq p).hold = .none ∧ (t.sq p).holdTimer = none ∧
        (t.port p).link = .down ∧ (t.port p).stallSeen = true ∧
        (s.alarm.waits = [] → (s.sq p).egress.discards + waiting < 2 ^ 32 →
          (t.sq p).egress.discards = (s.sq p).egress.discards + waiting))

/-- A received frame that fails a test of its port is dropped and counted, its cells freed. At the reception end of a
frame over the lanes in use of an UP port whose assembly agrees with the bytes rebuilt from the lanes (LOG 20): a
truncated frame is dropped NO_BUFFER; otherwise a frame whose check fails is dropped BAD_CHECK and the error count
rises; otherwise a frame whose length is below 64, above 2,048, above the card's maximum or not the declared one (but
for a padded short frame) is dropped BAD_LENGTH. The frame counts as received, its slot's drop counter of the reason
rises, its cells leave the held cells and the pause is examined; nothing else changes but the end of a drain whose
egress is empty. Any other end of a frame has no effect of its own (LOG 1, 20). Rests on:
spec/01_backplane_links_and_cabinet_frames.md: R10, R11, R18, R19; spec/02_flows_and_forwarding.md: R35;
spec/03_cell_buffer_and_egress_queues.md: R45, R51; spec/12_frame_and_record_formats.md: R186, R187. -/
def Obligations.FrameFailsPortTest : Prop :=
  ∀ (p : Slot) (lanes : List (List Byte)) (s : State),
    let bytes := frameOfLanes lanes
    let declared := 20 + framePayloadLength bytes + 4
    let whole (a : Assembly) : Prop := ((s.port p).link = .up ∨ (s.port p).link = .testing) ∧
      (s.port p).assembly = some a ∧ a.agrees bytes = true ∧ lanes.length = (s.port p).lanesInUse.length
    ((∀ a : Assembly, ¬ whole a) → exec (.frameReceptionEnd p lanes) s = .next (checkDrains { s with out := [] })) ∧
    ∀ a : Assembly, whole a → (s.port p).link = .up →
    (a.truncated = true →
      ∃ u : State, exec (.frameReceptionEnd p lanes) s = .next (checkDrains u) ∧
        Dropped p .noBuffer (s.port p).errorCount s u) ∧
    (a.truncated = false → checkPasses bytes = false →
      ∃ u : State, exec (.frameReceptionEnd p lanes) s = .next (checkDrains u) ∧
        Dropped p .badCheck (min ((s.port p).errorCount + 1) 65535) s u) ∧
    (a.truncated = false → checkPasses bytes = true →
      (bytes.length < 64 ∨ 2048 < bytes.length ∨ s.cardMaxFrame p < bytes.length ∨
        (declared ≠ bytes.length ∧ ¬ (bytes.length = 64 ∧ declared < 64))) →
      ∃ u : State, exec (.frameReceptionEnd p lanes) s = .next (checkDrains u) ∧
        Dropped p .badLength (s.port p).errorCount s u)

/-- Frames of a slot not ready and of no path are dropped, and a TEST frame on an UP link is discarded. Of a whole
frame that passes the tests of an UP port: from a slot in LINKING, a frame of any kind but TEST is dropped NOT_READY;
from another slot, a frame addressed to the hub whose kind is DATA, MGMT_RESP, PROBE, TIME_MARK, MAIL_ACK or none of
the ten is dropped NO_PATH, and so is a frame of any kind but DATA addressed to a slot; a TEST frame addressed to the
hub counts in frames to hub and is discarded with its cells freed. Rests on:
spec/01_backplane_links_and_cabinet_frames.md: R12; spec/02_flows_and_forwarding.md: R28, R29, R30, R35. -/
def Obligations.FrameReadinessAndHubKinds : Prop :=
  ∀ (p : Slot) (lanes : List (List Byte)) (s : State), Arrives s p lanes →
    let bytes := frameOfLanes lanes
    let kind := frameKindOf bytes
    ((s.slot p).state = .linking → kind ≠ some .test →
      ∃ u : State, exec (.frameReceptionEnd p lanes) s = .next (checkDrains u) ∧
        Dropped p .notReady (s.port p).errorCount s u) ∧
    ((s.slot p).state ≠ .linking → frameDest bytes = 0 →
      (kind = none ∨ kind = some .data ∨ kind = some .mgmtResp ∨ kind = some .probe ∨ kind = some .timeMark ∨
        kind = some .mailAck) →
      ∃ u : State, exec (.frameReceptionEnd p lanes) s = .next (checkDrains u) ∧
        Dropped p .noPath (s.port p).errorCount s u) ∧
    ((s.slot p).state ≠ .linking → frameDest bytes ≠ 0 → kind ≠ some .data →
      ∃ u : State, exec (.frameReceptionEnd p lanes) s = .next (checkDrains u) ∧
        Dropped p .noPath (s.port p).errorCount s u) ∧
    (kind = some .test → frameDest bytes = 0 →
      ∃ u : State, exec (.frameReceptionEnd p lanes) s = .next (checkDrains u) ∧
        FrameFreed p (s.port p).errorCount s u ∧ u.fwd = { s.fwd with drops := s.dropsAfterDispatch p } ∧
        OnlyChanges [.ports, .fwd, .qm, .out] s u)

/-- A MGMT frame joins the request queue, or is refused NOT_PERMITTED or QUEUE_FULL. A whole MGMT frame addressed to
the hub, from a slot not in LINKING, counts in frames to hub with its cells freed. From an ACTIVE controller slot that
holds a CONTROL card, with fewer than 8 requests queued, it joins the tail of the request queue with its requester,
header sequence and payload, and counts as accepted. From any other slot it is refused NOT_PERMITTED, and with 8
queued QUEUE_FULL: it counts as refused, nothing is queued, and a refusal is answered; while eight refusals wait in
the response list it is not made, and counts as unsent. Rests on: spec/02_flows_and_forwarding.md: R29, R30;
spec/11_management_requests.md: R178, R181, R182, R185. -/
def Obligations.MgmtFrameQueuedOrRefused : Prop :=
  ∀ (p : Slot) (lanes : List (List Byte)) (s : State), Arrives s p lanes →
    let bytes := frameOfLanes lanes
    (s.slot p).state ≠ .linking →
    frameDest bytes = 0 → frameKindOf bytes = some .mgmt →
    let permitted := p.val < 2 ∧ (s.slot p).state = .active ∧ ∃ i, (s.slot p).identity = some i ∧ i.kind = .control
    let r : Request := ⟨p, frameSeq bytes, framePayload bytes⟩
    let refused (v : State) : Prop :=
      v.agent = { s.agent with counters := { s.agent.counters with refused := oneMore s.agent.counters.refused } } ∧
        FrameFreed p (s.port p).errorCount s v ∧ v.fwd = { s.fwd with drops := s.dropsAfterDispatch p } ∧
        OnlyChanges [.ports, .fwd, .qm, .agent, .out] s v
    (permitted → s.agent.queue.length < 8 →
      ∃ u : State, exec (.frameReceptionEnd p lanes) s = .next (checkDrains u) ∧
        u.agent = { s.agent with
          queue := s.agent.queue ++ [r]
          counters := { s.agent.counters with accepted := oneMore s.agent.counters.accepted } } ∧
        FrameFreed p (s.port p).errorCount s u ∧ u.fwd = { s.fwd with drops := s.dropsAfterDispatch p } ∧
        OnlyChanges [.ports, .fwd, .qm, .agent, .out] s u) ∧
    (¬ permitted → ∃ v : State,
      exec (.frameReceptionEnd p lanes) s = .next (checkDrains (answer .refusal r .notPermitted [] v)) ∧ refused v) ∧
    (permitted → 8 ≤ s.agent.queue.length → ∃ v : State,
      exec (.frameReceptionEnd p lanes) s = .next (checkDrains (answer .refusal r .queueFull [] v)) ∧ refused v) ∧
    (¬ permitted ∨ 8 ≤ s.agent.queue.length →
      8 ≤ (s.agent.responses.filter fun x => x.kind == .refusal).length →
      ∃ u : State, exec (.frameReceptionEnd p lanes) s = .next (checkDrains u) ∧
        u.agent = { s.agent with counters := { s.agent.counters with
          refused := oneMore s.agent.counters.refused, unsent := oneMore s.agent.counters.unsent } } ∧
        FrameFreed p (s.port p).errorCount s u ∧ u.fwd = { s.fwd with drops := s.dropsAfterDispatch p } ∧
        OnlyChanges [.ports, .fwd, .qm, .agent, .out, .free] s u)

/-- A DATA frame of flow 0 is stored for the CONTROL queue of its destination, or dropped NO_PATH. A whole DATA frame
of flow 0 addressed to a slot, from a slot not in LINKING. The default path allows it to another slot 1-12 when one of
the two slots is 1 or 2 and both are STANDBY or ACTIVE. Allowed, and the destination port not stalled: it counts as
forwarded, is stored once with one reference at the tail of the destination's CONTROL queue, stays in the held cells
of its slot, and the destination's arbiter decides. Allowed but stalled: it counts as forwarded, as an egress discard
and as a stall discard, and its cells are freed. Not allowed: it is dropped NO_PATH and counts as dropped on the
default path. Rests on: spec/02_flows_and_forwarding.md: R31, R34, R35; spec/03_cell_buffer_and_egress_queues.md: R45,
R47, R48, R49; spec/04_the_window_calendar_and_egress_selection.md: R72. -/
def Obligations.DefaultPathForwards : Prop :=
  ∀ (p : Slot) (lanes : List (List Byte)) (s : State), Arrives s p lanes →
    let bytes := frameOfLanes lanes
    (s.slot p).state ≠ .linking →
    frameKindOf bytes = some .data → frameFlow bytes = 0 → frameDest bytes ≠ 0 →
    let reaches (n : Slot) : Prop := (s.slot n).state = .standby ∨ (s.slot n).state = .active
    (∀ d : Slot, frameDest bytes = d.val + 1 → d ≠ p → (p.val < 2 ∨ d.val < 2) → reaches p → reaches d →
      ((s.sq d).hold ≠ .stalled → ∃ u : State,
        exec (.frameReceptionEnd p lanes) s = .next (checkDrains (arbitrate d u)) ∧
          Stored p bytes .control [d] s u ∧
          u.fwd = { s.fwd with defaultForwarded := oneMore s.fwd.defaultForwarded }) ∧
      ((s.sq d).hold = .stalled → ∃ u : State, exec (.frameReceptionEnd p lanes) s = .next (checkDrains u) ∧
        u.fwd = { s.fwd with defaultForwarded := oneMore s.fwd.defaultForwarded } ∧
        (u.sq d).egress = { (s.sq d).egress with
          discards := oneMore (s.sq d).egress.discards, stallDiscards := oneMore (s.sq d).egress.stallDiscards } ∧
        (∀ q : Slot, (u.sq q).queues = (s.sq q).queues) ∧ u.qm.frames = s.qm.frames ∧ PauseFollows p s u ∧
        u.port p = { portAfterFrame (s.port p) (s.port p).errorCount with
          pauseAsserted := (u.port p).pauseAsserted } ∧
        OnlyChanges [.ports, .fwd, .qm, .out] s u)) ∧
    ((∀ d : Slot, frameDest bytes = d.val + 1 →
        d = p ∨ (2 ≤ p.val ∧ 2 ≤ d.val) ∨ ¬ reaches p ∨ ¬ reaches d) →
      ∃ u : State, exec (.frameReceptionEnd p lanes) s = .next (checkDrains u) ∧
        FrameFreed p (s.port p).errorCount s u ∧
        u.fwd = { s.fwd with
          drops := s.dropsAfter p .noPath, defaultDropped := oneMore s.fwd.defaultDropped } ∧
        OnlyChanges [.ports, .fwd, .qm, .out] s u)

/-- A DATA frame of a flow is stored once for every port of its copy list, or dropped for the first reason. A whole
DATA frame addressed to a slot with flow 1-255, from a slot not in LINKING: of a FREE flow it is dropped UNKNOWN_FLOW;
not from the flow's source WRONG_SOURCE; of a flow not LIVE it is dropped NO_PATH where DEST_DOWN stands alone in the
set of a SUSPENDED flow and FLOW_NOT_LIVE otherwise; longer than max frame TOO_LONG; with an empty copy list (the
destination slot, or the ACTIVE members of the group but the ingress slot, in ascending order) NO_PATH. Otherwise each
port of the copy list judges its copy: it discards it where its slot is not up or the port is stalled, and refuses a
SAMPLE copy past its limit, and each verdict is counted at its port, a refusal marking exhaustion. Where some ports
admit their copy, the frame counts as forwarded and is stored once, with one reference in the queue of the flow's
class at each of those ports, whose arbiters decide. Where none admits and one discards, it counts as forwarded and is
freed; where all refuse, it is dropped NO_BUFFER and freed, and counts as dropped on the flow. Rests on:
spec/02_flows_and_forwarding.md: R32, R33, R34, R35; spec/03_cell_buffer_and_egress_queues.md: R45, R47, R48, R49,
R50, R60, R61; spec/04_the_window_calendar_and_egress_selection.md: R72. -/
def Obligations.FlowFrameForwardedOrDropped : Prop :=
  ∀ (p : Slot) (lanes : List (List Byte)) (s : State) (f : Fin 255), Arrives s p lanes →
    let bytes := frameOfLanes lanes
    (s.slot p).state ≠ .linking →
    frameKindOf bytes = some .data → frameFlow bytes = f.val + 1 → frameDest bytes ≠ 0 →
    let drops (u : State) : Prop := exec (.frameReceptionEnd p lanes) s = .next (checkDrains u)
    let cells := (bytes.length + 63) / 64
    let ports (r : FlowRecord) : List Slot := match r.dest with
      | .slot d => [d]
      | .group g => allSlots.filter fun m => (s.fwd.groups.read g).read m && (s.slot m).state == .active && m != p
    ((s.flow f).fields = none → ∃ u : State, drops u ∧ Dropped p .unknownFlow (s.port p).errorCount s u) ∧
    (∀ r : FlowRecord, (s.flow f).fields = some r →
      (r.source ≠ p → ∃ u : State, drops u ∧ DroppedOnFlow p .wrongSource f s u) ∧
      (r.source = p → (s.flow f).state ≠ .live → ∃ u : State, drops u ∧
        DroppedOnFlow p (if (s.flow f).state = .suspended ∧ (s.flow f).suspension = ⟨false, true, false, false⟩
          then .noPath else .flowNotLive) f s u) ∧
      (r.source = p → (s.flow f).state = .live → r.maxFrame < bytes.length →
        ∃ u : State, drops u ∧ DroppedOnFlow p .tooLong f s u) ∧
      (r.source = p → (s.flow f).state = .live → bytes.length ≤ r.maxFrame → ports r = [] →
        ∃ u : State, drops u ∧ DroppedOnFlow p .noPath f s u) ∧
      (r.source = p → (s.flow f).state = .live → bytes.length ≤ r.maxFrame → ports r ≠ [] →
        let ports := ports r
        let judged := s.copiesJudged r.cls cells ports
        let admitting := ports.filter (s.admitsCopy r.cls cells)
        let forwarded (u : State) : Prop := u.fwd = { s.fwd with
          flows := s.fwd.flows.write f { s.flow f with forwarded := oneMore (s.flow f).forwarded } }
        (admitting ≠ [] → ∃ u : State,
          exec (.frameReceptionEnd p lanes) s = .next (checkDrains (forEach admitting arbitrate u)) ∧
            Stored p bytes r.cls admitting judged u ∧ forwarded u) ∧
        (admitting = [] → (∃ d ∈ ports, s.discardsCopy d = true) →
          ∃ u : State, drops u ∧ FrameFreed p (s.port p).errorCount judged u ∧ forwarded u ∧
            OnlyChanges [.ports, .fwd, .qm, .out] s u) ∧
        (admitting = [] → (∀ d ∈ ports, s.discardsCopy d = false) →
          ∃ u : State, drops u ∧ DroppedOnFlow p .noBuffer f judged u)))

/-- Training ends at its target or deadline, selects the width and enters TESTING with its TEST frames (LOG 1, 18). In
TRAINING, LANE_TRAINED of a GOOD lane not yet trained adds the lane; below the target (the smaller of the card's lane
capability and the number of GOOD lanes) nothing else changes. At the target, and at the deadline with a lane trained,
the port enters TESTING: the working width is the largest of 4, 2 and 1 no greater than the capability and the trained
lanes, the lanes in use are the lowest trained ones, and the 1 ms deadline starts. With 16 free reserve cells and no
maker waiting the sixteen TEST frames are built and frame 0 starts at once, its end its local start time plus its wire
time (LOG 18); with 1 to 15 free, as many are built, and the port joins the list for the rest; where none is free or
another maker waits, none is built and the port joins the reserve waiting list. Otherwise LANE_TRAINED changes nothing
(LOG 1). Rests on: spec/01_backplane_links_and_cabinet_frames.md: R3, R4, R6, R14;
spec/03_cell_buffer_and_egress_queues.md: R46; spec/12_frame_and_record_formats.md: 12.2. -/
def Obligations.TrainingEndEntersTesting : Prop :=
  ∀ (p : Slot) (s : State),
    let good := allLanes.filter fun m => (s.port p).laneGood.read m
    let target := min (s.laneCapability p) good.length
    let testing (trained : List Lane) (i : Instr) (wrap : State → State) : Prop :=
      ∃ u : State, exec i s = .next (wrap u) ∧ EntersTesting p trained s u
    (∀ l : Lane, (s.port p).link = .training → (s.port p).laneGood.read l = true → l ∉ (s.port p).trained →
      ((s.port p).trained.length + 1 < target →
        exec (.laneTrained p l) s = .next { s with
          ports := s.ports.write p { s.port p with trained := (s.port p).trained ++ [l] }, out := [] }) ∧
      (target ≤ (s.port p).trained.length + 1 → (s.port p).testUnsent = [] → (s.port p).transmission = none →
        testing ((s.port p).trained ++ [l]) (.laneTrained p l) id)) ∧
    (∀ l : Lane, ((s.port p).link ≠ .training ∨ (s.port p).laneGood.read l = false ∨ l ∈ (s.port p).trained) →
      exec (.laneTrained p l) s = .next { s with out := [] }) ∧
    ((s.port p).link = .training → (s.port p).trainingDeadline.isSome = true → (s.port p).trained ≠ [] →
      (s.port p).testUnsent = [] → (s.port p).transmission = none →
      testing (s.port p).trained (.trainingDeadlineExpiry p) checkDrains) ∧
    (¬ ((s.port p).link = .training ∧ (s.port p).trainingDeadline.isSome = true) →
      exec (.trainingDeadlineExpiry p) s = .next (checkDrains { s with out := [] }))

/-- An intact TEST return advances the far loop test, the sixteenth brings the link UP, any other frame fails it.
While a link is in TESTING a whole frame over its lanes in use is judged before it is handed on. The intact return of
the next TEST frame (check, length 64, kind TEST, destination 0, source the slot, sequence the test progress, payload
of the attempt) raises test progress by one, counts as received and as dispatched to the hub, and its cells are freed;
nothing else changes before the sixteenth. The sixteenth brings the link UP without a test deadline at the working
width as reported width, sends its pause symbol by the pause as it stood, before the cells of the return are freed,
and the symbol of a change after it; a slot in LINKING becomes ACTIVE if it is admitted, by the flag or the policy of
its kind, a CONTROL card in slot 1 or 2 always, and STANDBY otherwise; STANDBY and ACTIVE stay. A DRAINING slot stays
so while its port has something to send; with nothing to send, no other slot draining, no wait of its own and the head
of the waiting list blocked, its drain completes in QUIESCED with the link DOWN. Any other frame fails the attempt: of
attempt 1 or 2, with a GOOD lane left, the port enters TRAINING with the next attempt (test progress 0, LOG 40; the
frame discarded, LOG 36); of attempt 3 the link is DOWN and the slot faults with LINK. The frame is then dropped and
counted, as NO_BUFFER, BAD_CHECK, BAD_LENGTH, NOT_READY or NO_PATH, and a TEST frame addressed to the hub counts in
frames to hub. Rests on: spec/01_backplane_links_and_cabinet_frames.md: R5, R7, R10, R11, R15;
spec/02_flows_and_forwarding.md: R28, R29, R30, R35; spec/07_slot_lifecycle_and_power.md: R125, R126, R129, R131. -/
def Obligations.FarLoopTestJudgesReturns : Prop :=
  ∀ (p : Slot) (lanes : List (List Byte)) (s : State) (a : Assembly), (s.port p).link = .testing →
    (s.port p).assembly = some a → lanes.length = (s.port p).lanesInUse.length →
    let bytes := frameOfLanes lanes
    let progress := (s.port p).testProgress
    let intact : Prop := a.truncated = false ∧ checkPasses bytes = true ∧ bytes.length = 64 ∧
      frameKindOf bytes = some .test ∧ frameDest bytes = 0 ∧ frameSource bytes = p.val + 1 ∧
      (frameSeq bytes).toNat = progress ∧ framePayloadLength bytes = 40 ∧
      framePayload bytes = testPayload (s.port p).attempt progress
    let symbol (b : Bool) : Output := .symbol p (if b then .pauseOn else .pauseOff)
    (a = ⟨1, false⟩ → 64 ≤ s.cardMaxFrame p → intact →
      (progress < 15 →
        ∃ u : State, exec (.frameReceptionEnd p lanes) s = .next (checkDrains u) ∧
          u.port p = { portAfterFrame (s.port p) (s.port p).errorCount with
            testProgress := progress + 1, pauseAsserted := (u.port p).pauseAsserted } ∧
          (∀ q : Slot, q ≠ p → u.port q = s.port q) ∧ PauseFollows p s u ∧
          u.qm = { s.qm with slot := s.qm.slot.write p { s.sq p with paused := (u.sq p).paused } } ∧
          u.fwd = { s.fwd with drops := s.dropsAfterDispatch p } ∧ OnlyChanges [.ports, .fwd, .qm, .out] s u) ∧
      (progress = 15 → s.PowerInv →
        ((s.slot p).state = .linking ∨ (s.slot p).state.isUp = true) →
        let r := s.slot p
        let empty : Prop := (s.sq p).queues = ⟨[], [], [], []⟩ ∧ (s.port p).transmission = none
        ∃ t : State, exec (.frameReceptionEnd p lanes) s = .next t ∧
          (∃ before after : List Output, t.out = before ++ symbol (s.port p).pauseAsserted :: after ∧
            ∀ b : Bool, symbol b ∉ before) ∧
          (r.state ≠ .draining ∨ ¬ empty →
            (t.port p).link = .up ∧ (t.port p).testDeadline = none ∧
            (t.port p).reportedWidth = (s.port p).workingWidth ∧
            (t.slot p).width = (if (s.port p).reportedWidth = (s.port p).workingWidth then r.width
              else (s.port p).workingWidth) ∧
            ((t.port p).pauseAsserted = (s.port p).pauseAsserted ∨ symbol (t.port p).pauseAsserted ∈ t.out)) ∧
          (r.state = .linking → ∀ i : Identity, r.identity = some i →
            (t.slot p).state = if r.admitted = true ∨ (i.kind = .control ∧ p.val < 2) ∨
              s.slots.manual.read i.kind.index = false then .active else .standby) ∧
          (r.state = .standby ∨ r.state = .active ∨ (r.state = .draining ∧ ¬ empty) → (t.slot p).state = r.state) ∧
          (r.state = .draining → empty → s.NoWaitStays p → (∀ m : Slot, m ≠ p → (s.slot m).state ≠ .draining) →
            s.HeadBlocked s.slots.waitingList (s.slots.committed - s.classOf p) →
            (t.slot p).state = .quiesced ∧ (t.port p).link = .down ∧ (t.port p).reportedWidth = none ∧
              (t.slot p).counters = { r.counters with
                drainsCompleted := oneMore r.counters.drainsCompleted } ∧
              t.slots.committed = s.slots.committed - s.classOf p))) ∧
    (a.agrees bytes = true → ¬ intact →
      let kind := frameKindOf bytes
      let declared := 20 + framePayloadLength bytes + 4
      let damaged : Prop := a.truncated = false ∧ checkPasses bytes = false
      let misfit : Prop := bytes.length < 64 ∨ 2048 < bytes.length ∨ s.cardMaxFrame p < bytes.length ∨
        (declared ≠ bytes.length ∧ ¬ (bytes.length = 64 ∧ declared < 64))
      let received := (portAfterFrame (s.port p) 0).counters
      let counted (t : State) : Prop :=
        (damaged → (t.port p).errorCount = min ((s.port p).errorCount + 1) 65535) ∧
        (¬ damaged → (t.port p).errorCount = (s.port p).errorCount) ∧
        (a.truncated = true → t.fwd.drops = s.dropsAfter p .noBuffer) ∧
        (damaged → t.fwd.drops = s.dropsAfter p .badCheck) ∧
        (a.truncated = false → checkPasses bytes = true → misfit → t.fwd.drops = s.dropsAfter p .badLength) ∧
        (a.truncated = false → checkPasses bytes = true → ¬ misfit →
          (kind ≠ some .test → t.fwd.drops = s.dropsAfter p .notReady) ∧
          (kind = some .test → frameDest bytes ≠ 0 → t.fwd.drops = s.dropsAfter p .noPath) ∧
          (kind = some .test → frameDest bytes = 0 → t.fwd.drops = s.dropsAfterDispatch p))
      ((s.port p).attempt < 3 → (∃ l : Lane, (s.port p).laneGood.read l = true) →
        ∃ u : State, exec (.frameReceptionEnd p lanes) s = .next (checkDrains u) ∧ counted u ∧
          u.port p = { s.portTold p (s.pausedWithout p) with
            link := .training, attempt := (s.port p).attempt + 1, trained := [], workingWidth := none
            lanesInUse := [], trainingDeadline := some (s.time.localTicks + 250000), testDeadline := none
            testUnsent := [], testNext := 16, testProgress := 0, assembly := none
            errorCount := (u.port p).errorCount
            transmission := match (s.port p).transmission with
              | some (.test _ _) => none
              | x => x
            counters := { received with failedAttempts := oneMore (s.port p).counters.failedAttempts } } ∧
          (∀ q : Slot, q ≠ p → u.port q = s.port q) ∧
          u.qm = { s.qm with
            waiting := s.qm.waiting.filter (· ≠ .test p)
            slot := s.qm.slot.write p { s.sq p with paused := s.pausedWithout p } } ∧
          u.fwd = { s.fwd with drops := u.fwd.drops } ∧ u.out = [] ∧ OnlyChanges [.ports, .fwd, .qm, .out] s u) ∧
      (3 ≤ (s.port p).attempt → ((s.slot p).state = .linking ∨ (s.slot p).state.isUp = true) → s.PowerInv →
        ∃ t : State, exec (.frameReceptionEnd p lanes) s = .next t ∧ counted t ∧
          GivesUp p 1 { s with ports := s.ports.write p { s.port p with counters := received } } t))

/-- A failed bring-up attempt enters TRAINING with the next attempt, and the third faults the slot with LINK. The
attempt fails at the test deadline in TESTING and at the training deadline with no lane trained (for the failure of a
lane in use and a return that is not intact see their own statements). Of attempt 1 or 2, with a GOOD lane left: the
failed attempt is counted, a TEST frame in transmission is cut, unsent TEST frames, the waiting list entry and the
test deadline go, a frame being received is discarded with its cells (LOG 36) and the pause of the slot then examined
if it held any, and the port enters TRAINING with the next attempt, no lane trained, no width, test progress 0 (LOG
40) and a 2 ms deadline. Of attempt 3, the slot in LINKING or up: the link is DOWN without a reported width and
without the frame being received, and the slot is FAULTED with LINK, its power off; the queues of a slot that was up
are emptied. Rests on: spec/01_backplane_links_and_cabinet_frames.md: R3, R5, R6, R7;
spec/03_cell_buffer_and_egress_queues.md: R46, R51, R58; spec/07_slot_lifecycle_and_power.md: R125, R131, R132. -/
def Obligations.FailedAttemptTrainsAgainOrGivesUp : Prop :=
  ∀ (p : Slot) (s : State) (i : Instr),
    (i = .testDeadlineExpiry p ∧ (s.port p).link = .testing ∧ (s.port p).testDeadline.isSome = true) ∨
      (i = .trainingDeadlineExpiry p ∧ (s.port p).link = .training ∧
        (s.port p).trainingDeadline.isSome = true ∧ (s.port p).trained = []) →
    ((s.port p).attempt < 3 → (∃ l : Lane, (s.port p).laneGood.read l = true) →
      exec i s = .next (checkDrains (s.trainsAgain p))) ∧
    (3 ≤ (s.port p).attempt → ((s.slot p).state = .linking ∨ (s.slot p).state.isUp = true) → s.PowerInv →
      ∃ t : State, exec i s = .next t ∧ GivesUp p 1 s t)

/-- A lane failure acts by the link state and whether the lane is in use. A lane failure is not observed while the
link is DOWN, or of a lane already FAILED (LOG 1). In TESTING and UP, a lane not in use is marked FAILED and counted.
In UP, with another GOOD lane, a lane in use retrains the link: TRAINING at attempt 1 with the reported width, card
hold and class queues kept, the transmission lost (its reference given back as an egress loss, a TEST frame without
one) and the ingress assembly discarded. In TESTING a lane in use fails the attempt: of attempt 1 or 2 the port enters
TRAINING with the next. In TRAINING the lane leaves the trained lanes; where the rest still lies below the new target
nothing else changes, and where it reaches it with a lane left the port enters TESTING over the lowest trained lanes.
With no GOOD lane left in UP and TESTING for a lane in use, or in TRAINING with none trained, the attempts that remain
fail at once, three of a retrain, and in TESTING the third attempt fails: the link gives up, and a slot in LINKING or
up faults with LINK, a DRAINING one before its drain could end (LOG 58), the agent losing what it held for it. Drains
whose egress is then empty end. Rests on: spec/01_backplane_links_and_cabinet_frames.md: R3, R5, R6, R8, R9;
spec/03_cell_buffer_and_egress_queues.md: R47, R51, R60; spec/07_slot_lifecycle_and_power.md: R131, R132;
spec/11_management_requests.md: R181, R182. -/
def Obligations.LaneFailureByLinkState : Prop :=
  ∀ (p : Slot) (l : Lane) (s : State),
    let marked := { s.port p with
      laneGood := (s.port p).laneGood.write l false
      counters := { (s.port p).counters with laneFailures := oneMore (s.port p).counters.laneFailures } }
    let failed : State := { s with ports := s.ports.write p marked, out := [] }
    let good := allLanes.filter fun m => marked.laneGood.read m
    let rest := (s.port p).trained.filter fun m => m ≠ l
    ((s.port p).link = .down ∨ (s.port p).laneGood.read l = false →
      exec (.laneFailure p l) s = .next (checkDrains { s with out := [] })) ∧
    ((s.port p).laneGood.read l = true →
      ((s.port p).link = .up ∨ (s.port p).link = .testing → l ∉ (s.port p).lanesInUse →
        exec (.laneFailure p l) s = .next (checkDrains failed)) ∧
      ((s.port p).link = .up → l ∈ (s.port p).lanesInUse → good ≠ [] →
        ∃ u : State, exec (.laneFailure p l) s = .next (checkDrains u) ∧
          u.port p = { marked with
            link := .training, attempt := 1, trained := [], workingWidth := none, lanesInUse := []
            trainingDeadline := some (s.time.localTicks + 250000), transmission := none, assembly := none
            pauseAsserted := (u.port p).pauseAsserted
            counters := { marked.counters with retrains := oneMore marked.counters.retrains } } ∧
          (∀ q : Slot, (u.sq q).queues = (s.sq q).queues) ∧
          (∀ id ends : Nat, (s.port p).transmission = some (.frame id ends) →
            (∀ f : StoredFrame, s.frame? id = some f → GivesBack id f s u) ∧
            (u.sq p).egress = { (s.sq p).egress with losses := oneMore (s.sq p).egress.losses }) ∧
          ((∀ id ends : Nat, (s.port p).transmission ≠ some (.frame id ends)) →
            u.qm.frames = s.qm.frames ∧ (u.sq p).egress = (s.sq p).egress) ∧
          PausesOnly p s u ∧ OnlyChanges [.ports, .qm, .out] s u) ∧
      ((s.port p).link = .testing → l ∈ (s.port p).lanesInUse → good ≠ [] → (s.port p).attempt < 3 →
        exec (.laneFailure p l) s = .next (checkDrains (failed.trainsAgain p))) ∧
      ((s.port p).link = .training → rest.length < min (s.laneCapability p) good.length →
        exec (.laneFailure p l) s = .next (checkDrains { s with
          ports := s.ports.write p { marked with trained := rest }, out := [] })) ∧
      ((s.port p).link = .training → min (s.laneCapability p) good.length ≤ rest.length → rest ≠ [] →
        ∃ u : State, exec (.laneFailure p l) s = .next (checkDrains u) ∧ (u.port p).link = .testing ∧
          (u.port p).trained = rest ∧ (u.port p).laneGood = marked.laneGood ∧
          (u.port p).counters = marked.counters ∧ (u.port p).testProgress = 0 ∧ (u.port p).trainingDeadline = none ∧
          (∀ q : Slot, q ≠ p → u.port q = s.port q) ∧
          (u.qm = s.qm ∨ u.qm = { s.qm with waiting := s.qm.waiting ++ [.test p] }) ∧
          OnlyChanges [.ports, .qm, .out] s u ∧
          ((s.port p).testUnsent = [] → (s.port p).transmission = none → EntersTesting p rest failed u)) ∧
      (((s.slot p).state = .linking ∨ (s.slot p).state.isUp = true) → s.PowerInv →
        ((s.port p).link = .up → l ∈ (s.port p).lanesInUse → good = [] →
          ∃ t : State, exec (.laneFailure p l) s = .next t ∧ GivesUp p 3 { s with
            ports := s.ports.write p { marked with
              counters := { marked.counters with retrains := oneMore marked.counters.retrains } } } t) ∧
        ((s.port p).link = .testing ∧ l ∈ (s.port p).lanesInUse ∧ (good = [] ∨ 3 ≤ (s.port p).attempt) ∨
            (s.port p).link = .training ∧ rest = [] ∧ good = [] →
          ∃ t : State, exec (.laneFailure p l) s = .next t ∧
            GivesUp p (max 1 (4 - (s.port p).attempt)) failed t)))

/-- A matching PROBE_REPLY gives a sample to the delay window, or a miss; any other is stale. A whole PROBE_REPLY
frame addressed to the hub counts in frames to hub with its cells freed. It matches when its payload is 20 bytes, the
slot is a client, and its outstanding probe has a send time and the frame's sequence; the probe is then absent. With R
= (t4 - t1) - (t3 - t2) from 0 to Rmax, b = (R + 1) / 2 is accepted: the high run counts samples above base plus step
limit, b joins the window of 8, four high samples in a row leave only the newest four, base is the minimum of 4 or
more samples, the miss run is 0, and the delay record is base plus and minus the asymmetry, negative taken as 0. Any
other R is rejected and a miss: the run rises below 3, and at 3 window, base, high run and record go and the waiting
TIME_MARK frames with them. A reply that does not match is stale, and counts nothing else. Where every hub frame in
the port's queues is for that slot, as in every run, no other slot's delay state changes. Rests on:
spec/02_flows_and_forwarding.md: R30; spec/06_slot_delay_and_time_marks.md: R106, R108, R109, R110, R111, R112, R115.
-/
def Obligations.ProbeReplyMeasuresTheDelay : Prop :=
  ∀ (p : Slot) (lanes : List (List Byte)) (s : State), Arrives s p lanes →
    let bytes := frameOfLanes lanes
    (s.slot p).state ≠ .linking →
    frameDest bytes = 0 → frameKindOf bytes = some .probeReply →
    let d := s.slotDelay p
    let payload := framePayload bytes
    let time (sec ns : Nat) : Int := (sec : Int) * 1000000000 + ns
    let field (k n : Nat) : Nat := payloadField payload k n
    ∃ u : State, exec (.frameReceptionEnd p lanes) s = .next (checkDrains u) ∧
      u.fwd = { s.fwd with drops := s.dropsAfterDispatch p } ∧
      (s.HubFramesAtHome p → ∀ q : Slot, q ≠ p → u.slotDelay q = s.slotDelay q) ∧
      u.alarm = s.alarm ∧ u.trk = s.trk ∧ u.agent = s.agent ∧
      ((¬ (framePayloadLength bytes = 20 ∧ d.client = true ∧ ∃ pr, d.outstanding = some pr ∧ pr.t1.isSome = true ∧
          (frameSeq bytes).toNat = pr.seq)) →
        FrameFreed p (s.port p).errorCount s u ∧
        u.slotDelay p = { d with counters := { d.counters with stale := oneMore d.counters.stale } }) ∧
      (framePayloadLength bytes = 20 → d.client = true → ∀ pr : Probe, d.outstanding = some pr →
        (frameSeq bytes).toNat = pr.seq → ∀ t1 : Stamp, pr.t1 = some t1 →
        let r := (time s.time.sec s.time.ns - time t1.sec t1.ns) -
          (time (field 10 6) (field 16 4) - time (field 0 6) (field 6 4))
        (0 ≤ r → r ≤ s.delay.config.rmax →
          let b := ((r + 1) / 2).toNat
          let high := match d.base with
            | some base => if base + s.delay.config.stepLimit < b then d.highRun + 1 else 0
            | none => d.highRun
          let grown := d.window ++ [b]
          let kept := if 9 ≤ grown.length then grown.drop 1 else grown
          let window := if 4 ≤ high then kept.drop (kept.length - 4) else kept
          let base := if 4 ≤ window.length then window.min? else none
          FrameFreed p (s.port p).errorCount s u ∧
          u.slotDelay p = { d with
            outstanding := none, window := window, base := base, missRun := 0
            highRun := if 4 ≤ high then 0 else high
            delays := base.map fun x => ⟨((x : Int) + d.asymmetry).toNat, ((x : Int) - d.asymmetry).toNat⟩
            counters := { d.counters with
              accepted := oneMore d.counters.accepted
              resets := if 4 ≤ high then oneMore d.counters.resets else d.counters.resets } }) ∧
        ((r < 0 ∨ s.delay.config.rmax < r) →
          (d.missRun ≠ 2 →
            FrameFreed p (s.port p).errorCount s u ∧
            u.slotDelay p = { d with
              outstanding := none, missRun := if d.missRun < 3 then d.missRun + 1 else d.missRun
              counters := { d.counters with
                rejected := oneMore d.counters.rejected, misses := oneMore d.counters.misses } }) ∧
          (d.missRun = 2 → (u.slotDelay p).outstanding = none ∧ (u.slotDelay p).missRun = 3 ∧
            (u.slotDelay p).window = [] ∧ (u.slotDelay p).base = none ∧ (u.slotDelay p).highRun = 0 ∧
            (u.slotDelay p).delays = none ∧
            (u.slotDelay p).counters.losses = oneMore d.counters.losses ∧
            (∀ id ∈ (u.sq p).queues.timing, u.isMark id = false))))

/-- A MAIL frame is judged by the first case that applies, stored if accepted, and acknowledged. A whole MAIL frame
addressed to the hub from an up slot counts in frames to hub with its cells freed. With an acknowledgement for the
slot still waiting it is only counted as unanswered. Otherwise the result is CLOSED from a slot not STANDBY or ACTIVE,
BAD_SIZE for a payload outside 4-32 bytes, FULL for a full mailbox, and ACCEPTED otherwise, which stores payload and
seconds and, with no wait outstanding and fewer than 32 pending, appends a MAIL notice. With no acknowledgement
waiting, no maker in the reserve waiting list, a free reserve cell and the port not stalled, a MAIL_ACK of the result
and the frame's sequence, made at the present hub time, is stored for the slot's CONTROL queue; its header sequence is
a free value (LOG 10). Rests on: spec/02_flows_and_forwarding.md: R30; spec/03_cell_buffer_and_egress_queues.md: R46,
R48; spec/10_alarms_notices_and_mailboxes.md: R172, R173, R175, R176; spec/12_frame_and_record_formats.md: 12.2. -/
def Obligations.MailStoredAndAcknowledged : Prop :=
  ∀ (p : Slot) (lanes : List (List Byte)) (s : State), Arrives s p lanes →
    let bytes := frameOfLanes lanes
    (s.slot p).state.isUp = true →
    frameDest bytes = 0 → frameKindOf bytes = some .mail →
    let payload := framePayload bytes
    let result : MailResult :=
      if ¬ ((s.slot p).state = .standby ∨ (s.slot p).state = .active) then .closed
      else if payload.length < 4 ∨ 32 < payload.length then .badSize
      else if (s.alarm.mailbox.read p).isSome then .full else .accepted
    let c := s.alarm.counters
    ((∃ a ∈ s.alarm.acks, a.dest = p) →
      ∃ u : State, exec (.frameReceptionEnd p lanes) s = .next (checkDrains u) ∧
        FrameFreed p (s.port p).errorCount s u ∧ u.fwd = { s.fwd with drops := s.dropsAfterDispatch p } ∧
        u.alarm = { s.alarm with counters := { c with unanswered := oneMore c.unanswered } } ∧
        OnlyChanges [.ports, .fwd, .qm, .alarm, .out] s u) ∧
    (s.alarm.acks = [] → s.qm.waiting = [] → 1 ≤ s.reserveFree → (s.sq p).hold ≠ .stalled →
      s.alarm.waits = [] → s.alarm.notices.length < 32 →
      ∃ u : State, exec (.frameReceptionEnd p lanes) s = .next (checkDrains (arbitrate p u)) ∧
        u.alarm = { s.alarm with
          mailbox := if result = .accepted then s.alarm.mailbox.write p (some ⟨payload, s.time.sec⟩)
            else s.alarm.mailbox
          notices := if result = .accepted then s.alarm.notices ++ [⟨.mail p payload.length, s.time.sec⟩]
            else s.alarm.notices
          counters := if result = .accepted then
              { c with produced := oneMore c.produced, accepted := oneMore c.accepted }
            else { c with refused := oneMore c.refused } } ∧
        u.qm.frames = s.qm.frames ++ [⟨s.qm.nextFrame,
          .hub ⟨.mailAck, p, Config.freeByte s.free, [result.code, frameSeq bytes], ⟨s.time.sec, s.time.ns⟩, 0⟩,
          .control, 1, 1⟩] ∧
        (u.sq p).queues = { (s.sq p).queues with control := (s.sq p).queues.control ++ [s.qm.nextFrame] } ∧
        u.port p = { portAfterFrame (s.port p) (s.port p).errorCount with
          pauseAsserted := (u.port p).pauseAsserted } ∧
        u.fwd = { s.fwd with drops := s.dropsAfterDispatch p } ∧ u.free = s.free + 1 ∧
        OnlyChanges [.ports, .fwd, .qm, .alarm, .out, .free] s u)

/-- RESERVE_WAITING_GRANT sends what the head of the list waits for, until a head does not fit. With an empty list, or
a head that does not fit the free reserve cells, nothing is granted. With the agent's entry alone in the list for one
response, which fits, to a slot that is up and not stalled: the response leaves the response list, counts as made, and
is stored for the CONTROL queue of its slot, whose arbiter decides. In general, where the agent has a response and the
alarm unit an acknowledgement if they have an entry, the heads are granted one after another until the list is empty or
its head does not fit. A grant to the agent sends the head of the response list as above, a grant to the alarm unit the
MAIL_ACK at the head of the acknowledgement queue; at a slot that is not up or is stalled the frame is a discard; and
the maker joins the tail again while it has more (LOG 28). A grant to a port builds its next TEST frame, and with no
other maker waiting those after it as far as the reserve goes, joins the port again while it lacks frames, and in
TESTING starts the first unsent frame where none is being sent. Rests on:
spec/01_backplane_links_and_cabinet_frames.md: R6; spec/03_cell_buffer_and_egress_queues.md: R46, R48, R49, R60;
spec/04_the_window_calendar_and_egress_selection.md: R72; spec/10_alarms_notices_and_mailboxes.md: R175;
spec/11_management_requests.md: R181, R185. -/
def Obligations.ReserveGrantServesTheHead : Prop :=
  ∀ s : State,
    (headFits s = false → exec .reserveWaitingGrant s = .next { s with out := [] }) ∧
    (s.qm.waiting = [] → headFits s = false) ∧
    (∀ (r : Response) (rest : List Response), s.agent.responses = r :: rest → rest = [] → s.qm.waiting = [.agent] →
      let cells := (max 64 (24 + r.payload.length) + 63) / 64
      (s.reserveFree < cells → exec .reserveWaitingGrant s = .next { s with out := [] }) ∧
      (cells ≤ s.reserveFree → (s.slot r.dest).state.isUp = true → (s.sq r.dest).hold ≠ .stalled →
        exec .reserveWaitingGrant s = .next (arbitrate r.dest { s with
          qm := { s.qm with
            waiting := [], nextFrame := s.qm.nextFrame + 1
            frames := s.qm.frames ++ [⟨s.qm.nextFrame, .hub ⟨.mgmtResp, r.dest, r.seq, r.payload, r.made, 0⟩,
              .control, cells, 1⟩]
            slot := s.qm.slot.write r.dest { s.sq r.dest with queues := { (s.sq r.dest).queues with
              control := (s.sq r.dest).queues.control ++ [s.qm.nextFrame] } } }
          agent := { s.agent with
            responses := [], counters := { s.agent.counters with made := oneMore s.agent.counters.made } }
          out := [] }))) ∧
    ((.agent ∈ s.qm.waiting → s.agent.responses ≠ []) → (.alarm ∈ s.qm.waiting → s.alarm.acks ≠ []) →
      ∃ t : State, exec .reserveWaitingGrant s = .next t ∧
        Relation.ReflTransGen HeadGranted { s with out := [] } t ∧ headFits t = false)

/-- LOCAL_SECOND gives every per-second sample and rolls the per-second marks over. At LOCAL_SECOND each slot's
SLOT_LINK point takes the sample: degraded, or error count at or above the threshold, or stall seen; the error count
becomes the last error count and it and stall seen are cleared. Each slot's SLOT_TIMING point takes the sample: a
client without a delay record. BUFFER_EXHAUSTED takes exhaustion seen, which is cleared. Every other point is as it
was, the uptime rises by one, and the monitor is left alone where its trigger is another or it is STOPPED, counts an
ignored trigger in SCANNING, and begins its pass in WAITING, its first conversion to end after 20 microseconds. The
order within the second is the model's choice (LOG 29). Rests on: spec/01_backplane_links_and_cabinet_frames.md: R18;
spec/03_cell_buffer_and_egress_queues.md: R61; spec/06_slot_delay_and_time_marks.md: R116; spec/09_cabinet_monitor.md:
R156, R157; spec/10_alarms_notices_and_mailboxes.md: R165, R166; spec/11_management_requests.md: R178. -/
def Obligations.LocalSecondSamples : Prop :=
  ∀ s : State, ∃ t : State, exec .localSecond s = .next t ∧
    (∀ n : Slot,
      PointSampled (slotLinkPoint n) (decide (((s.port n).reportedWidth.any fun w => w.lanes < s.laneCapability n) = true ∨
        (s.port n).errorThreshold ≤ (s.port n).errorCount ∨ (s.port n).stallSeen = true)) s t ∧
      PointSampled (slotTimingPoint n) ((s.slotDelay n).client && (s.slotDelay n).delays.isNone) s t ∧
      (t.port n).lastErrorCount = (s.port n).errorCount ∧ (t.port n).errorCount = 0 ∧ (t.port n).stallSeen = false) ∧
    PointSampled bufferPoint s.qm.exhaustion s t ∧ t.qm.exhaustion = false ∧
    (∀ id : PointId, (id.val < 12 ∨ 36 ≤ id.val) → id ≠ bufferPoint → t.point id = s.point id) ∧
    t.agent.uptime = s.agent.uptime + 1 ∧
    (s.mon.trigger ≠ .localSecond ∨ s.mon.state = .stopped → t.mon = s.mon) ∧
    (s.mon.trigger = .localSecond → s.mon.state = .scanning →
      t.mon = { s.mon with counters := { s.mon.counters with ignored := oneMore s.mon.counters.ignored } }) ∧
    (s.mon.trigger = .localSecond → s.mon.state = .waiting → s.mon.passChannels ≠ [] →
      t.mon = { s.mon with
        state := .scanning, pass := s.mon.passChannels, conversionEnd := some (s.time.localTicks + 2500) }) ∧
    OnlyChanges [.ports, .qm, .delay, .mon, .alarm, .agent, .out] s t

/-- CALENDAR_SWAP of an armed calendar swaps the banks, flushes, evaluates FIT and answers the commit. An armed
calendar swaps its banks and its arming becomes absent; each port without windows in the new active bank has its SAMPLE
queue emptied; with no alarm wait outstanding, which the notice of FLOW_SUSPENDED could complete, each copy so removed
is an egress discard and gives its reference back, the other queues and ports keep theirs, and nothing of the agent
changes before the answer; a written SAMPLE flow holds FIT exactly when one of its destination ports has no window, no
reported width, or a window shorter than the wire time of its max frame; an enabled flow is LIVE exactly when its set
is empty; FLOW_SUSPENDED is then reported once, after all flows of the swap, by PointReported flowSuspendedPoint, a
choice of the model (LOG 30); then the commit's record, which stands as before unless it is that of an alarm wait, is
completed OK with hub time and the new cycle, every port takes a decision, and drains whose egress is empty end, both
in ascending order, a choice of the model (LOG 60). A calendar not armed does not swap. Rests on:
spec/02_flows_and_forwarding.md: R22, R25, R26; spec/03_cell_buffer_and_egress_queues.md: R47, R57, R60;
spec/04_the_window_calendar_and_egress_selection.md: R69, R70, R72, R77, R78; spec/11_management_requests.md: R180. -/
def Obligations.CalendarSwapChangesBanks : Prop :=
  ∀ s : State,
    let windowless (p : Slot) : Bool := (s.cal.pendingBank.windows.read p).isEmpty
    let flushed (id : Nat) : Nat := ((allSlots.filter windowless).flatMap fun p => (s.sq p).queues.sample).count id
    (s.cal.arming = none → exec .calendarSwap s = .next { s with out := [] }) ∧
    (∀ a : Arming, s.cal.arming = some a → ∃ u : State,
      exec .calendarSwap s = .next (checkDrains (forEach allSlots arbitrate
        (complete a.record .ok (beBytes 6 s.time.sec ++ beBytes 4 s.time.ns ++ beBytes 4 s.cal.pendingBank.cycle) u))) ∧
      u.cal = ⟨s.cal.pendingBank, s.cal.active, none⟩ ∧
      (∀ p : Slot, windowless p = true → (u.sq p).queues.sample = []) ∧
      (s.alarm.waits = [] → u.agent = s.agent ∧ u.delay = s.delay ∧
        (∀ p : Slot, u.sq p = { s.sq p with
          paused := (u.sq p).paused
          queues := { (s.sq p).queues with sample := if windowless p then [] else (s.sq p).queues.sample }
          egress := { (s.sq p).egress with
            discards := Nat.iterate oneMore (if windowless p then (s.sq p).queues.sample.length else 0)
              (s.sq p).egress.discards } }) ∧
        ∀ (id : Nat) (f : StoredFrame), s.frame? id = some f →
          u.frame? id = if flushed id = 0 then some f
            else if f.refs ≤ flushed id then none else some { f with refs := f.refs - flushed id }) ∧
      ((∀ w ∈ s.alarm.waits, w.record ≠ a.record) →
        u.agent.inflight.find? (·.record == a.record) = s.agent.inflight.find? (·.record == a.record)) ∧
      FitEvaluated s.cal.pendingBank s u ∧
      PointReported flowSuspendedPoint u.flowSuspended s u ∧
      OnlyChanges [.ports, .fwd, .qm, .cal, .delay, .alarm, .agent, .out] s u)

/-- A pulse edge is an unusable event, a jump or a good event of source P, and moves its state. An edge of the timing
pulse line: ignored while P is UNAVAILABLE; in FAILED it only sets the previous arrival and clears the announced
second. In CANDIDATE and QUALIFIED it also does both, and is unusable without an announced second or when not timely
(good count 0); a jump when its error is a jump (good count 0, jump count + 1, silence restarts), the second without a
good one between failing P and examining the selection; and otherwise good (good count + 1 up to 4, jump count 0,
e_prev its error, silence restarts). The fourth in a row makes a CANDIDATE QUALIFIED, without use by the servo: with
no source selected and N not QUALIFIED P is selected in ACQUIRING, and beside a selected N the revertive mode and the
priority order decide. Of a QUALIFIED source a good event that is not applied does nothing more. Drains whose egress
is then empty end. Rests on: spec/05_hub_time_and_reference_tracking.md: R83, R85, R86, R87, R88, R89, R90, R100. -/
def Obligations.PulseEdgeIsClassified : Prop :=
  ∀ s : State, ∃ u : State, exec .timingPulseEdge s = .next (checkDrains u) ∧
    EventTaken .P s.edgeError { s with out := [] } u

/-- An applied event of a source steps hub time, or forms I and F and does the lock accounting. A good edge of the
selected source P, or a good STAMP of the selected source N, QUALIFIED, in ACQUIRING or LOCKED. In ACQUIRING with |e|
above the step threshold hub time moves by e exactly, its seconds modulo 2^48 and the fraction kept, I, F and the
increment are kept, both e_prev are reduced by e, the lock run is 0, the step is counted, every outstanding probe is
given up, and PHASE_STEP takes an occurrence; an armed calendar swaps where the step is forward and reaches or passes a
boundary of the pending cycle: its record is gone, and with no alarm wait outstanding a record that stood is answered
OK with the hub time after the step and the new cycle, at the tail of the response list where a response or a maker
waits, and otherwise, the reserve having a cell, in the CONTROL queue of an up requester that is not stalled (there it
stands or has started, and counts as made). The monitor sees HUB_SECOND where the seconds grow (a step that wraps the
seconds is not forward, a choice of the model, LOG 43). Otherwise I gains e * Ki / 256 and F becomes e * Kp / 256 plus
I, truncated toward zero and clamped to F_limit, the increment is formed again, and the lock accounting is done: at the
lock count of events within the lock window ACQUIRING becomes LOCKED with holdover ready set, and at the third in a row
outside it LOCKED becomes ACQUIRING. Rests on: spec/03_cell_buffer_and_egress_queues.md: R46, R49;
spec/04_the_window_calendar_and_egress_selection.md: R69, R70; spec/05_hub_time_and_reference_tracking.md: R80, R84,
R89, R92, R93, R94, R95, R96, R100; spec/06_slot_delay_and_time_marks.md: R107; spec/09_cabinet_monitor.md: R156;
spec/10_alarms_notices_and_mailboxes.md: R166; spec/11_management_requests.md: R180, R181. -/
def Obligations.AppliedPulseStepsOrSteersHubTime : Prop :=
  ∀ (src : Source) (e : Int) (s : State), (s.source src).state = .qualified → s.trk.selected = some src →
    (s.trk.timing = .acquiring ∨ s.trk.timing = .locked) → EventTimely s src → ¬ EventJump s src e →
    let k := s.trk
    let applied (b u : State) : Prop :=
      (k.timing = .acquiring → k.servo.stepThreshold < e.natAbs → TimeStepped (b.goodNoted src e) e b u) ∧
      (k.timing = .locked ∨ e.natAbs ≤ k.servo.stepThreshold → TimeSteered (b.goodNoted src e) e b u)
    (src = .P → s.edgeError = some e →
      ∃ u : State, exec .timingPulseEdge s = .next (checkDrains u) ∧ applied { s with out := [] } u) ∧
    (src = .N → ∀ (p : Slot) (lanes : List (List Byte)), StampArrives s p lanes →
      s.stampError p (framePayload (frameOfLanes lanes)) = some e →
      ∃ b u : State, exec (.frameReceptionEnd p lanes) s = .next (checkDrains u) ∧ Dispatched p s b ∧ applied b u)

/-- SILENCE_TIMEOUT fails a source, HOLDOFF_EXPIRY returns it, and the holdover limit ends in FREERUN. SILENCE_TIMEOUT
of a CANDIDATE or QUALIFIED source whose silence timer has reached three intervals makes it FAILED with the holdoff
timer started, adds one to its failures counter and no other, raises its condition, and unselects it; if it was
selected, the other source is selected in ACQUIRING where it is QUALIFIED, and otherwise from ACQUIRING or LOCKED the
tracker enters HOLDOVER with F at I and the holdover timer started where holdover is ready, and FREERUN at the present
F where not. HOLDOFF_EXPIRY of a FAILED source whose holdoff timer has reached 10 s makes it a CANDIDATE without
counts or e_prev, with its silence timer restarted and its arrival kept. HOLDOVER_LIMIT_REACHED in HOLDOVER with the
holdover timer at the limit enters FREERUN at quality class 4 with hub time and F kept, and suspends every written
flow that needs lock with TIMING. In other states, and before their time, each of the three changes nothing (LOG 1,
26). Rests on: spec/02_flows_and_forwarding.md: R24; spec/05_hub_time_and_reference_tracking.md: R86, R87, R88, R89,
R90, R91, R100; spec/06_slot_delay_and_time_marks.md: R114. -/
def Obligations.SourceTimersFailAndReturn : Prop :=
  ∀ (src : Source) (s : State),
    let r := s.source src
    let interval := s.sourceInterval src
    (r.state = .candidate ∨ r.state = .qualified → 3 * interval ≤ s.time.localTicks - r.silenceStart →
      ∃ t : State, exec (.silenceTimeout src) s = .next t ∧ SourceFails src s t) ∧
    (r.state = .unavailable ∨ r.state = .failed ∨ s.time.localTicks - r.silenceStart < 3 * interval →
      exec (.silenceTimeout src) s = .next { s with out := [] }) ∧
    (r.state = .failed → (∃ start : Nat, r.holdoffStart = some start ∧ 1250000000 ≤ s.time.localTicks - start) →
      ∃ t : State, exec (.holdoffExpiry src) s = .next t ∧
      t.source src = { r with
        state := .candidate, good := 0, jumps := 0, ePrev := none, silenceStart := s.time.localTicks
        holdoffStart := none } ∧
      t.source (otherSource src) = s.source (otherSource src) ∧ PointReported (sourceFailedPoint src) false s t ∧
      t.trk.counters = s.trk.counters ∧
      OnlyChanges [.ports, .fwd, .qm, .time, .trk, .delay, .alarm, .agent, .out] s t) ∧
    (r.state ≠ .failed ∨ (∃ start : Nat, r.holdoffStart = some start ∧ s.time.localTicks - start < 1250000000) →
      exec (.holdoffExpiry src) s = .next { s with out := [] }) ∧
    (s.trk.timing = .holdover → (∃ start : Nat, s.trk.holdoverStart = some start ∧
        s.trk.servo.holdoverLimit ≤ (s.time.localTicks - start) / 125000000) →
      ∃ t : State, exec .holdoverLimitReached s = .next t ∧ t.trk.timing = .freerun ∧
      t.trk.holdoverReady = false ∧ t.trk.holdoverStart = none ∧ t.time = s.time ∧ t.delay.quality = 4 ∧
      t.trk.integral = s.trk.integral ∧ t.trk.srcP = s.trk.srcP ∧ t.trk.srcN = s.trk.srcN ∧
      (∀ f : Fin 255, ∀ x : FlowRecord, (s.flow f).fields = some x →
        (t.flow f).suspension = { (s.flow f).suspension with
          timing := if x.needsLock then true else (s.flow f).suspension.timing }) ∧
      OnlyChanges [.ports, .fwd, .qm, .trk, .delay, .alarm, .agent, .out] s t) ∧
    (s.trk.timing ≠ .holdover ∨ (∃ start : Nat, s.trk.holdoverStart = some start ∧
        (s.time.localTicks - start) / 125000000 < s.trk.servo.holdoverLimit) →
      exec .holdoverLimitReached s = .next { s with out := [] })

/-- A REF_TIME frame announces a second of P, is a STAMP of N, or is discarded and counted. A whole REF_TIME frame
addressed to the hub counts in frames to hub with its cells freed. An ANNOUNCE (payload of 11 bytes, subtype 1) from
the provider of P sets the announced second and nothing else. A STAMP (subtype 2) from the provider of N is an event
of N with e = sent time + toward-hub delay - arrival time: in FAILED it only sets the previous arrival; in CANDIDATE
or QUALIFIED it is unusable without a delay record of the slot or when not timely, a jump when e is a jump, the second
without a good one between failing N, and otherwise good, the fourth in a row making a CANDIDATE QUALIFIED, and of a
QUALIFIED N that is not applied doing nothing more (an applied one has its own statement). Any other length, subtype
or sender is discarded and counted. Rests on: spec/02_flows_and_forwarding.md: R30;
spec/05_hub_time_and_reference_tracking.md: R82, R84, R85, R86, R87, R88, R89, R90, R100. -/
def Obligations.ReferenceTimeFrameTaken : Prop :=
  ∀ (p : Slot) (lanes : List (List Byte)) (s : State), RefTimeArrives s p lanes →
    let bytes := frameOfLanes lanes
    let payload := framePayload bytes
    let subtype := payloadField payload 0 1
    let c := s.trk.counters
    ∃ b u : State, exec (.frameReceptionEnd p lanes) s = .next (checkDrains u) ∧ Dispatched p s b ∧
      (framePayloadLength bytes = 11 → subtype = 1 → s.trk.srcP.provider = some p →
        u = { b with trk := { s.trk with srcP := { s.trk.srcP with announced := some (payloadField payload 1 6) } } }) ∧
      (framePayloadLength bytes ≠ 11 ∨ (subtype ≠ 1 ∧ subtype ≠ 2) ∨
          (subtype = 1 ∧ s.trk.srcP.provider ≠ some p) ∨ (subtype = 2 ∧ s.trk.srcN.provider ≠ some p) →
        u = { b with trk := { s.trk with counters := { c with discarded := oneMore c.discarded } } }) ∧
      (StampArrives s p lanes → EventTaken .N (s.stampError p payload) b u)

/-- PROBE_TICK and MARK_TICK make a PROBE or TIME_MARK for one client, or count it as skipped (LOG 9). At PROBE_TICK
the next tick is set one interval on; an outstanding probe of a client is given up as a miss and the next sequence is
used. With the slot up, its port not stalled, fewer than 8 frames in its TIMING queue and a free reserve cell, a PROBE
of that sequence is stored for the TIMING queue and outstanding without send time, and the arbiter decides; otherwise
it is skipped, which is a miss. At MARK_TICK a client with a delay record gets in the same cases a TIME_MARK that
carries the quality class and the toward-card delay as compensation, its header sequence a free value (LOG 10), or a
skip is counted; without a client both ticks only set the next tick, and so does MARK_TICK without a delay record.
Where stored frames meet their invariant, with several clients and a reserve cell for each, this happens for each
client, its outstanding probe perhaps sent at once, and other slots stay. The third miss in a row, by a probe given up
or a skip, loses window, base and delay record, and withdraws the waiting marks (a full queue without marks on a port
that could start a frame at that miss is left out). A frame that is declined is counted as skipped alone, and is no
egress or stall discard (LOG 9). Rests on: spec/03_cell_buffer_and_egress_queues.md: R46, R48, R49;
spec/04_the_window_calendar_and_egress_selection.md: R72; spec/06_slot_delay_and_time_marks.md: R104, R105, R111,
R114, R115, R118. -/
def Obligations.ProbeAndMarkTicksMakeFrames : Prop :=
  ∀ (n : Slot) (s : State),
    let d := s.slotDelay n
    let ready : Prop := (s.slot n).state.isUp = true ∧ (s.sq n).hold ≠ .stalled ∧
      (s.sq n).queues.timing.length < 8 ∧ 1 ≤ s.reserveFree
    let nextProbe := s.time.localTicks + 125000000 / s.delay.config.probeRate
    let nextMark := s.time.localTicks + 125000000 / s.delay.config.markRate
    let stored (h : HubFrame) : QueueManager := { s.qm with
      nextFrame := s.qm.nextFrame + 1, frames := s.qm.frames ++ [⟨s.qm.nextFrame, .hub h, .timing, 1, 1⟩]
      slot := s.qm.slot.write n { s.sq n with queues := { (s.sq n).queues with
        timing := (s.sq n).queues.timing ++ [s.qm.nextFrame] } } }
    let missed : Bool := d.outstanding.isSome
    let counted (c : DelayCounters) : DelayCounters :=
      { c with misses := if missed then oneMore c.misses else c.misses }
    let run (k : Nat) : Nat := if k < 3 then k + 1 else k
    ((∀ m : Slot, (s.slotDelay m).client = false) →
      exec .probeTick s = .next { s with delay := { s.delay with nextProbe := nextProbe }, out := [] } ∧
      exec .markTick s = .next { s with delay := { s.delay with nextMark := nextMark }, out := [] }) ∧
    (d.client = true → (∀ m : Slot, m ≠ n → (s.slotDelay m).client = false) →
      (ready → (missed = false ∨ d.missRun ≠ 2) →
        exec .probeTick s = .next (arbitrate n { s with
          qm := stored ⟨.probe, n, BitVec.ofNat 8 d.nextSeq, [], ⟨s.time.sec, s.time.ns⟩, 0⟩
          delay := { s.delay with
            nextProbe := nextProbe
            slot := s.delay.slot.write n { d with
              nextSeq := (d.nextSeq + 1) % 256, outstanding := some ⟨d.nextSeq, none⟩
              missRun := if missed then run d.missRun else d.missRun
              counters := { counted d.counters with probesMade := oneMore d.counters.probesMade } } }
          out := [] })) ∧
      (¬ ready → missed = false → d.missRun ≠ 2 →
        exec .probeTick s = .next { s with
          delay := { s.delay with
            nextProbe := nextProbe
            slot := s.delay.slot.write n { d with
              nextSeq := (d.nextSeq + 1) % 256, missRun := run d.missRun
              counters := { d.counters with
                misses := oneMore d.counters.misses, probesSkipped := oneMore d.counters.probesSkipped } } }
          out := [] }) ∧
      (d.delays = none →
        exec .markTick s = .next { s with delay := { s.delay with nextMark := nextMark }, out := [] }) ∧
      (∀ r : DelayRecord, d.delays = some r →
        (ready →
          exec .markTick s = .next (arbitrate n { s with
            qm := stored ⟨.timeMark, n, Config.freeByte s.free, [BitVec.ofNat 8 s.delay.quality],
              ⟨s.time.sec, s.time.ns⟩, r.towardCard⟩
            delay := { s.delay with
              nextMark := nextMark
              slot := s.delay.slot.write n { d with
                counters := { d.counters with marksMade := oneMore d.counters.marksMade } } }
            out := [], free := s.free + 1 })) ∧
        (¬ ready →
          exec .markTick s = .next { s with
            delay := { s.delay with
              nextMark := nextMark
              slot := s.delay.slot.write n { d with
                counters := { d.counters with marksSkipped := oneMore d.counters.marksSkipped } } }
            out := [] }))) ∧
    (s.FrameInv →
      let mayQueue (m : Slot) : Prop := (s.slot m).state.isUp = true ∧ (s.sq m).hold ≠ .stalled
      let room (m : Slot) : Prop := (s.sq m).queues.timing.length < 8
      let idle (m : Slot) : Prop := (s.port m).link = .up → (s.port m).cardHold = false → (s.port m).transmission = none →
        ∀ (w : Width) (c : FrameClass) (id : Nat), (s.port m).reportedWidth = some w → ¬ Permitted s m w c id
      let made (t : State) : Nat := t.qm.nextFrame - s.qm.nextFrame
      (∃ t : State, exec .probeTick s = .next t ∧ t.delay = { s.delay with nextProbe := nextProbe, slot := t.delay.slot } ∧
        t.qm.waiting = s.qm.waiting ∧ OnlyChanges [.ports, .qm, .delay, .out] s t ∧
        (∀ m : Slot, (s.slotDelay m).client = false →
          t.slotDelay m = s.slotDelay m ∧ t.sq m = s.sq m ∧ t.port m = s.port m) ∧
        (∀ m : Slot, (s.slotDelay m).client = true →
          let g := s.probeGivenUp m
          let next := { g with nextSeq := (g.nextSeq + 1) % 256 }
          let kept (d : SlotDelay) : List Nat :=
            if d.missRun = 3 ∧ (s.slotDelay m).missRun < 3 then (s.sq m).queues.timing.filter fun id => !s.isMark id
            else (s.sq m).queues.timing
          (mayQueue m → room m → (allSlots.filter fun k => (s.slotDelay k).client).length ≤ s.reserveFree →
            ∃ (t1 : Option Stamp) (id : Nat), (t1 = none ∨ t1 = some s.hubNow) ∧
              t.slotDelay m = { next with
                outstanding := some ⟨g.nextSeq, t1⟩
                counters := { g.counters with probesMade := oneMore g.counters.probesMade } } ∧
              s.qm.nextFrame ≤ id ∧ id < t.qm.nextFrame ∧ StartsAtMost m (kept g ++ [id]) s t) ∧
          (¬ mayQueue m ∨ (¬ room m ∧ kept g = (s.sq m).queues.timing ∧
              (g.missRun = 3 → (s.slotDelay m).missRun = 3 ∨ idle m)) →
            let skipped := { next with
              counters := { g.counters with probesSkipped := oneMore g.counters.probesSkipped } }.afterMiss
                (s.waitingMarks m)
            t.slotDelay m = skipped ∧ StartsAtMost m (kept skipped) s t))) ∧
      (∃ t : State, exec .markTick s = .next t ∧ t.delay = { s.delay with nextMark := nextMark, slot := t.delay.slot } ∧
        t.qm.waiting = s.qm.waiting ∧ t.free = s.free + made t ∧ OnlyChanges [.ports, .qm, .delay, .out, .free] s t ∧
        (∀ m : Slot, (s.slotDelay m).client = false ∨ (s.slotDelay m).delays = none →
          t.slotDelay m = s.slotDelay m ∧ t.sq m = s.sq m ∧ t.port m = s.port m) ∧
        (∀ m : Slot, (s.slotDelay m).client = true → (s.slotDelay m).delays ≠ none →
          let c := (s.slotDelay m).counters
          (mayQueue m → room m → (allSlots.filter fun k => (s.slotDelay k).client).length ≤ s.reserveFree →
            ∃ (o : Option Probe) (id : Nat),
              (o = (s.slotDelay m).outstanding ∨ ∃ k : Nat, (s.slotDelay m).outstanding = some ⟨k, none⟩ ∧
                o = some ⟨k, some s.hubNow⟩) ∧
              t.slotDelay m = { s.slotDelay m with
                outstanding := o, counters := { c with marksMade := oneMore c.marksMade } } ∧
              s.qm.nextFrame ≤ id ∧ id < t.qm.nextFrame ∧ StartsAtMost m ((s.sq m).queues.timing ++ [id]) s t) ∧
          (¬ mayQueue m ∨ ¬ room m →
            t.slotDelay m = { s.slotDelay m with
              counters := { c with marksSkipped := oneMore c.marksSkipped } } ∧
            t.sq m = s.sq m ∧ t.port m = s.port m))))

/-- Raw levels start or cancel their debounce; a debounced input reports; SUPPLY_LOSS drops the relays (LOG 1, 16). A
raw presence, latch or external input level that differs from the one before is taken, and a debounce of 100, 20 or 50
ms starts where it differs from the debounced level and is cancelled where it does not; a repeated level changes
nothing. At EXT_INPUT_DEBOUNCED the debounced level takes the raw one, and the input's point takes as its condition
that the level is the one its polarity names; without a debounce in progress nothing changes (LOG 1). SUPPLY_LOSS puts
both relays into their alarm position, and changes nothing else but the mark that the supply is gone (LOG 16). Rests
on: spec/07_slot_lifecycle_and_power.md: R120; spec/10_alarms_notices_and_mailboxes.md: R166, R169, R171;
spec/00_scope.md: Lines of the part. -/
def Obligations.RawLevelsStartTheDebounce : Prop :=
  ∀ (n : Slot) (i : Fin 4) (b : Bool) (s : State),
    let r := s.slot n
    let x := s.input i
    let due (debounced : Bool) (ticks : Nat) : Option Nat :=
      if b = debounced then none else some (s.time.localTicks + ticks)
    exec (.rawPresenceChange n b) s = .next { s with
      slots := if r.lines.rawPresent = b then s.slots
        else { s.slots with slot := s.slots.slot.write n { r with
          lines := { r.lines with rawPresent := b }, presenceDebounce := due r.present 12500000 } }
      out := [] } ∧
    exec (.rawLatchChange n b) s = .next { s with
      slots := if r.lines.rawClosed = b then s.slots
        else { s.slots with slot := s.slots.slot.write n { r with
          lines := { r.lines with rawClosed := b }, latchDebounce := due r.closed 2500000 } }
      out := [] } ∧
    exec (.rawExtInputChange i b) s = .next { s with
      alarm := if x.rawOpen = b then s.alarm
        else { s.alarm with inputs := s.alarm.inputs.write i { x with
          rawOpen := b, debounce := due x.debouncedOpen 6250000 } }
      out := [] } ∧
    (x.debounce = none → exec (.extInputDebounced i) s = .next { s with out := [] }) ∧
    (x.debounce ≠ none → ∃ t : State, exec (.extInputDebounced i) s = .next t ∧
      t.alarm.inputs = s.alarm.inputs.write i { x with debouncedOpen := x.rawOpen, debounce := none } ∧
      PointReported (extInputPoint i) (decide (x.rawOpen = x.alarmWhenOpen)) s t ∧
      (∀ id : PointId, id ≠ extInputPoint i → t.point id = s.point id) ∧
      OnlyChanges [.ports, .qm, .delay, .alarm, .agent, .out] s t) ∧
    exec .supplyLoss s = .next { s with
      alarm := { s.alarm with supplied := false, majorAlarm := true, minorAlarm := true }, out := [] }

/-- A debounced presence seats the card: INSERTED, and with the latch closed at once IDENTIFYING (LOG 1).
PRESENCE_DEBOUNCED to present of an EMPTY slot whose debounce is in progress: the slot enters INSERTED without pull
guard and counts an insertion, and with its latch CLOSED it goes on to IDENTIFYING, which clears identity, class,
admitted and fault, and queues an IDENTIFY entry at attempt 1. Each entry gives one SLOT notice: with no wait
outstanding and room for both they join the pending notices. No other slot changes. In any other slot state, or
without a debounce in progress, the slot state stays, and a present level changes the record's presence alone (the
model's choice, LOG 1). Rests on: spec/07_slot_lifecycle_and_power.md: R120, R121, R135, R136, R139;
spec/08_card_identity_over_the_sideband.md: R142, R143; spec/10_alarms_notices_and_mailboxes.md: R172. -/
def Obligations.SeatedCardIsInserted : Prop :=
  ∀ (n : Slot) (s : State),
    let r := s.slot n
    let seated := { r with
      present := true, presenceDebounce := none, state := .inserted, pullGuard := false
      lines := { r.lines with powerEnable := false, removeLamp := false }
      counters := { r.counters with insertions := oneMore r.counters.insertions } }
    (r.presenceDebounce = none → exec (.presenceDebounced n) s = .next { s with out := [] }) ∧
    (r.presenceDebounce ≠ none → r.lines.rawPresent = true → r.state ≠ .empty →
      exec (.presenceDebounced n) s = .next { s with
        slots := { s.slots with slot := s.slots.slot.write n { r with present := true, presenceDebounce := none } }
        out := [] }) ∧
    (r.presenceDebounce ≠ none → r.lines.rawPresent = true → r.state = .empty →
      ∃ t : State, exec (.presenceDebounced n) s = .next t ∧
        t.slots = { s.slots with
          slot := s.slots.slot.write n (if r.closed then { seated with
            state := .identifying, identity := none, powerClass := none, admitted := false, fault := none
            failureKind := none } else seated) } ∧
        t.side.queue = s.side.queue ++ (if r.closed then [.identify n 1] else []) ∧
        (s.side.current = none → s.side.queue = [] → r.closed = true →
          t.side.selector = some n ∧
          t.side.current =
            some ⟨.select, [], ⟨.notReached, .notReached, .notReached⟩, s.time.localTicks, none, false, false⟩) ∧
        t.mon = { s.mon with powered := s.mon.powered.write n false } ∧
        PointReported (slotFaultPoint n) false s t ∧
        (s.alarm.waits = [] → s.alarm.notices.length < 31 →
          t.alarm.notices = s.alarm.notices ++ [⟨.slot n .inserted none, s.time.sec⟩] ++
            (if r.closed then [⟨.slot n .identifying none, s.time.sec⟩] else [])) ∧
        OnlyChanges [.ports, .qm, .delay, .slots, .side, .mon, .alarm, .agent, .out] s t)

/-- A debounced latch change identifies, takes back or drains the slot (LOG 1). LATCH_DEBOUNCED takes the raw level.
CLOSED moves INSERTED, QUIESCED and FAULTED to IDENTIFYING, which clears identity, class, admitted, fault and guard
and queues an IDENTIFY entry. OPEN moves IDENTIFYING, WAITING_POWER, POWERING and LINKING back to INSERTED with the
identity kept: the IDENTIFY entry goes, the slot leaves the waiting list, and from POWERING and LINKING the power is
off, its class leaves committed power and the port of a LINKING slot is DOWN; where the head of the list is then
blocked no other slot changes. OPEN moves STANDBY and ACTIVE to DRAINING with the drain timer while a frame is in
transmission or stands in the queues (TIME_MARK frames alone, which an ACTIVE client loses, are left out), and to
QUIESCED as a completed drain where the port has nothing to send and no wait of its own that stays is completed; a
controller leaving ACTIVE loses its requests, and a QUIESCED slot its responses. In other states only the latch
changes, and without a debounce in progress nothing (LOG 1). Rests on: spec/07_slot_lifecycle_and_power.md: R120,
R121, R123, R128, R129, R130, R132, R136; spec/08_card_identity_over_the_sideband.md: R142, R149;
spec/03_cell_buffer_and_egress_queues.md: R48; spec/11_management_requests.md: R181, R182. -/
def Obligations.LatchMovesTheSlot : Prop :=
  ∀ (n : Slot) (s : State),
    let r := s.slot n
    let list := s.slots.waitingList.filter (· != n)
    let only : Prop := exec (.latchDebounced n) s = .next { s with
      slots := { s.slots with slot := s.slots.slot.write n { r with
        closed := r.lines.rawClosed, latchDebounce := none } }
      out := [] }
    let cold := { r.lines with powerEnable := false, removeLamp := false }
    (r.latchDebounce = none → exec (.latchDebounced n) s = .next { s with out := [] }) ∧
    (r.latchDebounce ≠ none → r.lines.rawClosed = true →
      (r.state = .inserted ∨ r.state = .quiesced ∨ r.state = .faulted →
        ∃ t : State, exec (.latchDebounced n) s = .next t ∧
          t.slots = { s.slots with slot := s.slots.slot.write n { r with
            closed := true, latchDebounce := none, state := .identifying, identity := none, powerClass := none
            admitted := false, fault := none, failureKind := none, pullGuard := false, lines := cold } } ∧
          t.side.queue = s.side.queue ++ [.identify n 1] ∧ PointReported (slotFaultPoint n) false s t) ∧
      (r.state ≠ .inserted → r.state ≠ .quiesced → r.state ≠ .faulted → only)) ∧
    (r.latchDebounce ≠ none → r.lines.rawClosed = false →
      (r.state = .empty ∨ r.state = .inserted ∨ r.state = .draining ∨ r.state = .quiesced ∨ r.state = .faulted →
        only) ∧
      (r.state = .identifying → ∃ t : State, exec (.latchDebounced n) s = .next t ∧
        t.slots = { s.slots with slot := s.slots.slot.write n { r with
          closed := false, latchDebounce := none, state := .inserted, pullGuard := false, lines := cold } } ∧
        t.side.queue = s.side.queue.filter (fun e => !e.identifies n)) ∧
      (r.state = .waitingPower → s.HeadBlocked list s.slots.committed →
        ∃ t : State, exec (.latchDebounced n) s = .next t ∧
          t.slots = { s.slots with
            waitingList := list
            slot := s.slots.slot.write n { r with
              closed := false, latchDebounce := none, state := .inserted, pullGuard := false, lines := cold } }) ∧
      (r.state = .powering ∨ r.state = .linking →
        s.HeadBlocked s.slots.waitingList (s.slots.committed - s.classOf n) →
        ∃ t : State, exec (.latchDebounced n) s = .next t ∧
          t.slots = { s.slots with
            committed := s.slots.committed - s.classOf n
            slot := s.slots.slot.write n { r with
              closed := false, latchDebounce := none, state := .inserted, pullGuard := false, lines := cold
              softStart := none, drainTimer := none, width := (t.slot n).width } } ∧
          (r.state = .powering → (t.slot n).width = r.width) ∧
          (r.state = .linking → (t.port n).link = .down ∧ (t.port n).reportedWidth = none)) ∧
      (r.state = .standby ∨ r.state = .active →
        (s.EgressStays n → ∃ t : State, exec (.latchDebounced n) s = .next t ∧
          t.slots = { s.slots with slot := s.slots.slot.write n { r with
            closed := false, latchDebounce := none, state := .draining
            drainTimer := some (s.time.localTicks + s.slots.drainTimeout * 125000)
            lines := { r.lines with powerEnable := true, removeLamp := false } } } ∧
          AgentFollows n .draining s t) ∧
        ((s.sq n).queues = ⟨[], [], [], []⟩ → (s.port n).transmission = none → s.NoWaitStays n →
          s.HeadBlocked s.slots.waitingList (s.slots.committed - s.classOf n) →
          ∃ t : State, exec (.latchDebounced n) s = .next t ∧
            t.slots = { s.slots with
              committed := s.slots.committed - s.classOf n
              slot := s.slots.slot.write n { r with
                closed := false, latchDebounce := none, state := .quiesced, pullGuard := false, softStart := none
                drainTimer := none, width := (t.slot n).width
                lines := { r.lines with powerEnable := false, removeLamp := true }
                counters := { r.counters with drainsCompleted := oneMore r.counters.drainsCompleted } } } ∧
            (t.port n).link = .down ∧ (t.port n).reportedWidth = none ∧ AgentFollows n .quiesced s t)))

/-- A debounced loss of presence empties the slot, and a guarded one is SLOT_PULLED. PRESENCE_DEBOUNCED to absent with
the debounce in progress: an EMPTY slot keeps its state; any other enters EMPTY with identity, class, width, fault,
failure kind and admitted cleared, leaves the waiting list, and with its power on gives its class back with its timers
stopped and its port DOWN. With the pull guard set SLOT_PULLED takes an occurrence and a removal is counted; the guard
is then clear. Where the head of the list is then blocked no other slot changes. The sideband keeps no entry of the
slot (given its invariant); a slot that was up has no message in its mailbox and no waiting response, and a controller
that was ACTIVE no request queued or in flight. Rests on: spec/07_slot_lifecycle_and_power.md: R120, R123, R134, R135,
R136, R138; spec/08_card_identity_over_the_sideband.md: R142, R149; spec/10_alarms_notices_and_mailboxes.md: R166,
R176; spec/03_cell_buffer_and_egress_queues.md: R58; spec/01_backplane_links_and_cabinet_frames.md: R2;
spec/11_management_requests.md: R181, R182. -/
def Obligations.PulledCardEmptiesTheSlot : Prop :=
  ∀ (n : Slot) (s : State),
    let r := s.slot n
    let list := s.slots.waitingList.filter (· != n)
    let committed := if r.state.poweredOn then s.slots.committed - s.classOf n else s.slots.committed
    r.presenceDebounce ≠ none → r.lines.rawPresent = false →
    (r.state = .empty → exec (.presenceDebounced n) s = .next { s with
      slots := { s.slots with slot := s.slots.slot.write n { r with present := false, presenceDebounce := none } }
      out := [] }) ∧
    (r.state ≠ .empty → s.HeadBlocked list committed →
      ∃ t : State, exec (.presenceDebounced n) s = .next t ∧
        t.slots = { s.slots with
          waitingList := list, committed := committed
          slot := s.slots.slot.write n { r with
            present := false, presenceDebounce := none, state := .empty, identity := none, powerClass := none
            width := none, fault := none, failureKind := none, admitted := false, pullGuard := false
            softStart := if r.state.poweredOn then none else r.softStart
            drainTimer := if r.state.poweredOn then none else r.drainTimer
            lines := { r.lines with powerEnable := false, removeLamp := false }
            counters := if r.pullGuard then { r.counters with removals := oneMore r.counters.removals }
              else r.counters } } ∧
        (r.pullGuard = true →
          (t.point (slotPulledPoint n)).raiseCount = min ((s.point (slotPulledPoint n)).raiseCount + 1) 65535 ∧
          ((s.point (slotPulledPoint n)).state = .clear → (t.point (slotPulledPoint n)).state = .held)) ∧
        (r.pullGuard = false → t.point (slotPulledPoint n) = s.point (slotPulledPoint n)) ∧
        PointReported (slotFaultPoint n) false s t ∧
        (r.state = .linking ∨ r.state.isUp = true → (t.port n).link = .down ∧ (t.port n).transmission = none) ∧
        (r.state.isUp = true → t.alarm.mailbox.read n = none ∧ (t.sq n).queues = ⟨[], [], [], []⟩ ∧
          (t.sq n).hold = .none ∧ (t.sq n).paused = false) ∧
        AgentFollows n .empty s t ∧ (s.SidebandInv → ∀ e ∈ t.side.queue, e.slot ≠ n))

/-- Power good takes a POWERING slot to LINKING; its loss, the fast fault line and the deadline fault it (LOG 1, 6).
POWER_GOOD_TRUE sets the line, and a POWERING slot enters LINKING: its deadline stops, the port enters TRAINING at
attempt 1 with all lanes GOOD and a 2 ms deadline, and the stall count is 0. POWER_GOOD_LOST clears the line and
faults LINKING and the up states with NO_POWER_GOOD. FAST_FAULT sets the line to its level (LOG 6) and, as it becomes
active, faults the power-on states with OVERCURRENT. SOFT_START_EXPIRY faults a POWERING slot with its deadline
running with NO_POWER_GOOD. Where the head of the waiting list is then blocked no other slot changes. In any other
case the line alone changes, and SOFT_START_EXPIRY without a running deadline changes nothing (LOG 1). Rests on:
spec/07_slot_lifecycle_and_power.md: R123, R124, R125, R131, R132, R134, R136;
spec/01_backplane_links_and_cabinet_frames.md: R2, R3; spec/03_cell_buffer_and_egress_queues.md: R56;
spec/10_alarms_notices_and_mailboxes.md: R166. -/
def Obligations.PowerLinesLinkOrFaultTheSlot : Prop :=
  ∀ (n : Slot) (s : State),
    let r := s.slot n
    let blocked : Prop := s.HeadBlocked s.slots.waitingList (s.slots.committed - s.classOf n)
    let good (b : Bool) : State := { s with
      slots := { s.slots with slot := s.slots.slot.write n { r with lines := { r.lines with powerGood := b } } }
      out := [] }
    let fast (b : Bool) : State := { s with
      slots := { s.slots with slot := s.slots.slot.write n { r with lines := { r.lines with fastFault := b } } }
      out := [] }
    (r.state ≠ .powering → exec (.powerGoodTrue n) s = .next (good true)) ∧
    (r.state = .powering → ∃ t : State, exec (.powerGoodTrue n) s = .next t ∧
      t.slots = { s.slots with slot := s.slots.slot.write n { r with
        state := .linking, softStart := none, width := (t.slot n).width
        lines := { r.lines with powerGood := true, powerEnable := true, removeLamp := false } } } ∧
      (t.port n).link = .training ∧ (t.port n).attempt = 1 ∧ (t.port n).laneGood = #v[true, true, true, true] ∧
      (t.port n).trained = [] ∧ (t.port n).transmission = none ∧ (t.port n).assembly = none ∧
      (t.port n).workingWidth = none ∧ (t.port n).reportedWidth = none ∧ (t.port n).cardHold = false ∧
      (t.port n).trainingDeadline = some (s.time.localTicks + 250000) ∧ (t.port n).testDeadline = none ∧
      (t.sq n).stallCount = 0 ∧ (∀ p : Slot, p ≠ n → (t.port p).link = (s.port p).link)) ∧
    (r.state = .linking ∨ r.state.isUp = true → blocked → ∃ t : State, exec (.powerGoodLost n) s = .next t ∧
      Faults n .noPowerGood none s t ∧ (t.slot n).lines.powerGood = false ∧ (t.slot n).identity = r.identity) ∧
    (r.state ≠ .linking → r.state.isUp = false → exec (.powerGoodLost n) s = .next (good false)) ∧
    (r.lines.fastFault = false → r.state.poweredOn = true → blocked →
      ∃ t : State, exec (.fastFault n true) s = .next t ∧
        Faults n .overcurrent none s t ∧ (t.slot n).lines.fastFault = true ∧ (t.slot n).identity = r.identity) ∧
    (r.lines.fastFault = true ∨ r.state.poweredOn = false → exec (.fastFault n true) s = .next (fast true)) ∧
    exec (.fastFault n false) s = .next (fast false) ∧
    (r.state = .powering → r.softStart ≠ none → blocked → ∃ t : State, exec (.softStartExpiry n) s = .next t ∧
      Faults n .noPowerGood none s t ∧ (t.slot n).lines.powerGood = r.lines.powerGood) ∧
    (r.state ≠ .powering ∨ r.softStart = none → exec (.softStartExpiry n) s = .next { s with out := [] })

/-- DRAIN_TIMEOUT flushes the port and ends the drain in QUIESCED. DRAIN_TIMEOUT of a DRAINING slot whose timer runs,
with no alarm wait outstanding and the head of the waiting list blocked after it: every frame in the port's four
queues is an egress discard, a frame in transmission is an egress loss, the port is DOWN, the drain counts as timed
out and not as completed, and the slot enters QUIESCED with power off, lamp lit, guard clear and its class out of
committed power, and its waiting responses are withdrawn. In any other case nothing changes (LOG 1). Rests on:
spec/07_slot_lifecycle_and_power.md: R129, R134, R136; spec/03_cell_buffer_and_egress_queues.md: R57, R58, R60;
spec/01_backplane_links_and_cabinet_frames.md: R2; spec/11_management_requests.md: R181. -/
def Obligations.DrainTimeoutFlushesThePort : Prop :=
  ∀ (n : Slot) (s : State),
    let r := s.slot n
    let q := (s.sq n).queues
    let waiting := q.sample.length + q.timing.length + q.control.length + q.bulk.length
    (r.state = .draining → r.drainTimer ≠ none → s.alarm.waits = [] →
      s.HeadBlocked s.slots.waitingList (s.slots.committed - s.classOf n) →
      ∃ t : State, exec (.drainTimeout n) s = .next t ∧
        t.slots = { s.slots with
          committed := s.slots.committed - s.classOf n
          slot := s.slots.slot.write n { r with
            state := .quiesced, pullGuard := false, softStart := none, drainTimer := none, width := (t.slot n).width
            lines := { r.lines with powerEnable := false, removeLamp := true }
            counters := { r.counters with drainTimeouts := oneMore r.counters.drainTimeouts } } } ∧
        (t.sq n).queues = ⟨[], [], [], []⟩ ∧ (t.sq n).hold = .none ∧ (t.sq n).holdTimer = none ∧
        (t.sq n).paused = false ∧
        ((s.sq n).egress.discards + waiting < 2 ^ 32 →
          (t.sq n).egress.discards = (s.sq n).egress.discards + waiting) ∧
        (∀ id ends : Nat, (s.port n).transmission = some (.frame id ends) →
          (t.sq n).egress.losses = oneMore (s.sq n).egress.losses) ∧
        (t.sq n).egress.sent = (s.sq n).egress.sent ∧
        (t.port n).link = .down ∧ (t.port n).transmission = none ∧ (t.port n).reportedWidth = none ∧
        t.mon.powered = s.mon.powered.write n false ∧ AgentFollows n .quiesced s t) ∧
    (r.state ≠ .draining ∨ r.drainTimer = none → exec (.drainTimeout n) s = .next { s with out := [] })

/-- A valid identity is kept, sets the current thresholds, and the slot waits, is powered or faults.
SIDEBAND_TRANSACTION_END of a whole read, once the stop of the transaction of the IDENTIFY entry at the head is over
(LOG 17), its slot in IDENTIFYING and the 64 bytes received a valid record, in a state that meets the invariant of
power: the last attempt is DONE with three ACKs, the attempt counts, the entry leaves, and the next entry's
transaction starts. The identity and its class are kept and the slot's current channel gets critical-high twice the
limit and warning-high the floor of 80 % of that. A CONTROL card outside slots 1 and 2 faults with WRONG_SLOT. Any
other slot enters WAITING_POWER at the list's tail where the head of the list is blocked, and POWERING where the list
is empty, its class fits the budget and both power lines are false: the deadline is 10 ms per unit, the guard is set,
and its class is committed. Rests on: spec/07_slot_lifecycle_and_power.md: R122, R123, R124, R134, R136;
spec/08_card_identity_over_the_sideband.md: R143, R144, R146, R147, R148, R153. -/
def Obligations.ValidIdentityWaitsForPower : Prop :=
  ∀ (n : Slot) (attempt : Nat) (rest : List SidebandEntry) (bytes : List Byte) (s : State), ValidRecord bytes →
    s.PowerInv → (∃ x : Transaction, s.side.current = some x ∧ x.Stopped s.time.localTicks ⟨.ack, .ack, .ack⟩ ∧
      x.bytes = bytes) →
    s.side.queue = .identify n attempt :: rest → (s.slot n).state = .identifying →
    let b (i : Nat) : Nat := (bytes.getD i 0).toNat
    let limit := b 37 * 256 + b 38
    let r := s.slot n
    let c := s.side.counters.read n
    ∃ t : State, exec (.sidebandTransactionEnd (.done bytes)) s = .next t ∧
      (∃ i : Identity, (t.slot n).identity = some i ∧ i.kind.code = b 1 ∧ i.powerClass = b 32 ∧ i.lanes = b 33 ∧
        i.maxExponent = b 34 ∧ i.flags.toNat = b 35 ∧ i.softStart = b 36 ∧ i.currentLimit = limit ∧
        i.model = (bytes.drop 4).take 16 ∧ i.serial = (bytes.drop 20).take 12) ∧
      (t.slot n).powerClass = some (b 32) ∧
      t.side.queue = rest ∧ t.side.selector = rest.head?.map SidebandEntry.slot ∧
      t.side.current = rest.head?.map (fun _ =>
        ⟨.select, [], ⟨.notReached, .notReached, .notReached⟩, s.time.localTicks, none, false, false⟩) ∧
      t.side.lastAttempt = s.side.lastAttempt.write n (some ⟨.done, ⟨.ack, .ack, .ack⟩⟩) ∧
      t.side.counters = s.side.counters.write n { c with attempts := oneMore c.attempts } ∧
      t.mon.channel = s.mon.channel.write (slotChannel n) { s.mon.channel.read (slotChannel n) with
        critHigh := some (limit * 2), warnHigh := some (limit * 2 * 80 / 100) } ∧
      (b 1 = 1 → 2 ≤ n.val → Faults n .wrongSlot none s t) ∧
      (b 1 ≠ 1 ∨ n.val < 2 →
        (∀ (m : Slot) (ms : List Slot), s.slots.waitingList = m :: ms → m ≠ n →
          s.budget < s.slots.committed + s.classOf m →
          (t.slot n).state = .waitingPower ∧ t.slots.waitingList = m :: ms ++ [n] ∧
            t.slots.committed = s.slots.committed) ∧
        (s.slots.waitingList = [] → s.budget < s.slots.committed + b 32 →
          (t.slot n).state = .waitingPower ∧ t.slots.waitingList = [n] ∧ t.slots.committed = s.slots.committed) ∧
        (s.slots.waitingList = [] → s.slots.committed + b 32 ≤ s.budget → r.lines.powerGood = false →
          r.lines.fastFault = false →
          (t.slot n).state = .powering ∧ t.slots.waitingList = [] ∧
            t.slots.committed = s.slots.committed + b 32 ∧
            (t.slot n).softStart = some (s.time.localTicks + b 36 * 1250000) ∧ (t.slot n).pullGuard = true ∧
            (t.slot n).lines.powerEnable = true ∧ (t.slot n).admitted = r.admitted ∧
            (t.slot n).counters = { r.counters with grants := oneMore r.counters.grants })) ∧
      (∀ m : Slot, m ≠ n → (s.slots.waitingList = [] ∨ b 1 = 1 ∧ 2 ≤ n.val) → t.slot m = s.slot m)

/-- A failed identity read goes to the tail or faults the slot, and a raw read is answered as it ended. For each way
in which the current transaction fails, when it has come to that end, with its kind and acknowledge map (found stuck
in SELECT, an addressed byte not acknowledged and the stop over, or a clock hold of 10 ms with the map as it stands,
which in the stop after a byte that was not acknowledged ends with that byte's kind; LOG 17), and for a whole read of
received bytes that are no valid record (BAD_RECORD): an IDENTIFY entry at the head records it as last attempt and
counts an attempt and a failure; at attempt 1 or 2 it joins the tail with its attempt raised, and at attempt 3 it
leaves and its IDENTIFYING slot faults with ID_FAIL and that kind. A RAW entry at the head leaves the queue and is
counted, its in-flight request is completed OK with outcome, map and for DONE the bytes in a counted list (LOG 12),
and the next transaction starts. An end to which the transaction has not come (without a transaction, before its stop
is over, with another map or other bytes than received, not found stuck, in an abort, a hold in another phase or below
10 ms) changes nothing; a hold of 10 ms in an abort ends the abort (LOG 1, 17). Rests on:
spec/07_slot_lifecycle_and_power.md: R122, R132; spec/08_card_identity_over_the_sideband.md: R143, R144, R145, R146,
R147, R150, R153. -/
def Obligations.FailedReadIsRetriedOrFaults : Prop :=
  ∀ (n : Slot) (bytes : List Byte) (s : State),
    let c := s.side.counters.read n
    let counted := { c with attempts := oneMore c.attempts, failures := oneMore c.failures }
    let whole : Prop := ∃ x : Transaction, s.side.current = some x ∧ x.Stopped s.time.localTicks ⟨.ack, .ack, .ack⟩ ∧
      x.bytes = bytes
    let done : Instr := .sidebandTransactionEnd (.done bytes)
    let idle (i : Instr) : Prop := exec i s = .next { s with out := [] }
    let settles (i : Instr) (kind : SidebandOutcome) (map : AckMap) (attempt : Nat) (rest : List SidebandEntry) : Prop :=
      ∃ t : State, exec i s = .next t ∧
        t.side.lastAttempt = s.side.lastAttempt.write n (some ⟨kind, map⟩) ∧
        t.side.counters = s.side.counters.write n counted ∧
        (attempt < 3 → t.side.queue = rest ++ [.identify n (attempt + 1)] ∧ t.side.current.isSome = true ∧
          OnlyChanges [.side, .out] s t) ∧
        (3 ≤ attempt → t.side.queue = rest ∧ t.side.selector = rest.head?.map SidebandEntry.slot ∧
          ((s.slot n).state = .identifying → Faults n .idFail (some kind) s t))
    (∀ (attempt : Nat) (rest : List SidebandEntry), s.side.queue = .identify n attempt :: rest →
      (∀ (i : Instr) (kind : SidebandOutcome) (map : AckMap), s.ReadFails i kind map → settles i kind map attempt rest) ∧
      (whole → bytes.length = 64 → ¬ ValidRecord bytes → settles done .badRecord ⟨.ack, .ack, .ack⟩ attempt rest)) ∧
    (∀ (offset k record : Nat) (m : Slot) (tag : BitVec 16) (rest : List SidebandEntry),
      s.side.queue = .raw n offset k m tag record :: rest →
      let left : State := { s with
        side := { s.side with
          queue := rest, current := none, selector := none
          counters := s.side.counters.write n { c with rawReads := oneMore c.rawReads } }
        out := [] }
      let codes (map : AckMap) : List Byte := [map.addressWrite.code, map.offset.code, map.addressRead.code]
      (∀ (i : Instr) (kind : SidebandOutcome) (map : AckMap), s.ReadFails i kind map →
        exec i s = .next (startTransaction (complete record .ok (kind.code :: codes map) left))) ∧
      (whole → exec done s = .next (startTransaction
        (complete record .ok ([0, 0, 0, 0, BitVec.ofNat 8 bytes.length] ++ bytes) left)))) ∧
    (∀ (e : SidebandEnd) (phase : SidebandPhase),
      (s.side.current = none → idle (.sidebandTransactionEnd e) ∧ idle (.holdTimeout phase)) ∧
      (∀ x : Transaction, s.side.current = some x →
        (x.aborting = true → idle (.sidebandTransactionEnd e)) ∧
        (e ≠ .busStuck → x.phase ≠ .stop ∨ s.time.localTicks < x.due → idle (.sidebandTransactionEnd e)) ∧
        (x.phase ≠ .select ∨ x.stuck = false → idle (.sidebandTransactionEnd .busStuck)) ∧
        (x.map ≠ ⟨.ack, .ack, .ack⟩ ∨ x.bytes ≠ bytes → idle done) ∧
        (∀ since : Nat, x.aborting = true → x.phase = phase → x.held = some since →
          since + 1250000 ≤ s.time.localTicks → exec (.holdTimeout phase) s = .next (startTransaction { s with
            side := { s.side with current := none, selector := none }, out := [] })) ∧
        (x.phase ≠ phase ∨ x.held = none ∨
            (∃ since : Nat, x.held = some since ∧ s.time.localTicks < since + 1250000) → idle (.holdTimeout phase))))

/-- A completed conversion keeps its result, forms both conditions and samples both points. CONVERSION_COMPLETE in a
pass, once the 20 microseconds of the conversion are over: the result of the channel at its head becomes its last
result. Its warning and critical conditions hold where the result lies outside the thresholds, by the hysteresis
further in while the point is raised, an absent threshold being left out, and not for a slot channel whose slot is not
powered. Each is kept and is one sample of its point. The conversion is counted and the pass goes on to its next
channel, whose conversion ends 20 microseconds later; after the last a pass is counted, and the monitor scans again
(CONTINUOUS), stops (SOFTWARE), or waits for its trigger. A slot's critical point that enters ACTIVE faults its
power-on slot with OVERCURRENT_SLOW. By the move of channel 12's critical point the budget in force is BATTERY while
it stands in ACTIVE, CLEARING or HELD and MAINS otherwise; at a change the two conditions of power are reported, and
where the head of the waiting list does not fit the new budget no slot changes. Outside SCANNING, and before that
time, nothing changes (LOG 1, 26). Rests on: spec/09_cabinet_monitor.md: R157, R158, R159, R160, R163;
spec/07_slot_lifecycle_and_power.md: R123, R131, R132, R137, R138; spec/10_alarms_notices_and_mailboxes.md: R165,
R170. -/
def Obligations.ConversionIsJudged : Prop :=
  ∀ (result : BitVec 10) (s : State),
    let m := s.mon
    let r := result.toNat
    (m.state ≠ .scanning ∨ (∃ e : Nat, m.conversionEnd = some e ∧ s.time.localTicks < e) →
      exec (.conversionComplete result) s = .next { s with out := [] }) ∧
    (m.state = .scanning → (∃ e : Nat, m.conversionEnd = some e ∧ e ≤ s.time.localTicks) →
      ∀ (c : Channel) (cs : List Channel), m.pass = c :: cs →
      let ch := m.channel.read c
      let raised (id : PointId) : Bool := decide ((s.point id).state = .active ∨ (s.point id).state = .clearing)
      let judged : Prop := ∀ n : Slot, slotChannel n = c → m.powered.read n = true
      let done := { m.counters with conversions := oneMore m.counters.conversions }
      ∃ (w k : Bool) (t : State), exec (.conversionComplete result) s = .next t ∧
        (w = true ↔ judged ∧ Outside (raised (warnPoint c)) ch.hysteresis ch.warnLow ch.warnHigh r) ∧
        (k = true ↔ judged ∧ Outside (raised (critPoint c)) ch.hysteresis ch.critLow ch.critHigh r) ∧
        t.mon.channel = m.channel.write c { ch with last := some r, warning := some w, critical := some k } ∧
        PointSampled (warnPoint c) w s t ∧ PointSampled (critPoint c) k s t ∧
        (cs ≠ [] → t.mon.pass = cs ∧ t.mon.state = .scanning ∧ t.mon.counters = done ∧
          t.mon.conversionEnd = some (s.time.localTicks + 2500)) ∧
        (cs = [] → t.mon.counters = { done with passes := oneMore m.counters.passes } ∧
          (m.mode = .continuous → (∃ x : Channel, (m.channel.read x).inScan = true) →
            t.mon.state = .scanning ∧ t.mon.conversionEnd = some (s.time.localTicks + 2500) ∧
            t.mon.pass = allChannels.filter fun x => (m.channel.read x).inScan) ∧
          (m.mode ≠ .continuous → t.mon.pass = [] ∧ t.mon.conversionEnd = none ∧
            t.mon.state = if m.trigger = .software then .stopped else .waiting)) ∧
        (∀ n : Slot, slotChannel n = c → (s.slot n).state.poweredOn = true → (s.point (critPoint c)).state ≠ .active →
          (t.point (critPoint c)).state = .active → s.HeadBlocked s.slots.waitingList (s.slots.committed - s.classOf n) →
          Faults n .overcurrentSlow none s t) ∧
        ((s.point (critPoint c)).state = (t.point (critPoint c)).state →
          c.val ≠ 12 → OnlyChanges [.ports, .qm, .delay, .mon, .alarm, .agent, .out] s t) ∧
        (c.val = 12 →
          let state := (t.point (critPoint c)).state
          let onBattery : Prop := state = .active ∨ state = .clearing ∨ state = .held
          let budget := if onBattery then s.slots.batteryBudget else s.slots.mainsBudget
          t.slots.inForce = (if onBattery then .battery else .mains) ∧
          ((∀ n : Slot, s.slots.waitingList.head? = some n → budget < s.slots.committed + s.classOf n) →
            t.slots = { s.slots with inForce := t.slots.inForce } ∧
            (t.slots.inForce ≠ s.slots.inForce →
              PointReported overBudgetPoint (decide (budget < s.slots.committed)) s t ∧
              PointReported powerWaitingPoint (decide (s.slots.waitingList ≠ [])) s t) ∧
            OnlyChanges [.ports, .qm, .delay, .slots, .mon, .alarm, .agent, .out] s t)))

/-- MONITOR_START, hardware triggers and MONITOR_STOP move the monitor. MONITOR_START is refused BUSY in SCANNING and
counted as an ignored trigger; then BAD_VALUE for a mode or trigger outside the table or CONTINUOUS with a hardware
trigger, BAD_INDEX for SINGLE outside 0-15; and otherwise takes mode, trigger, SINGLE channel and in-scan flags, and
with SOFTWARE begins the pass at once and with another waits. HUB_SECOND as configured trigger begins a pass in
WAITING, is counted as ignored in SCANNING, and is otherwise not observed. A pass with no channel to convert ends at
its start. MONITOR_STOP in any state stops; in SCANNING the conversion is abandoned, counted and answered, with its
channel's record kept, and no pass is counted. Rests on: spec/09_cabinet_monitor.md: R155, R156, R157, R161, R163;
spec/11_management_requests.md: R179. -/
def Obligations.MonitorStartsTriggersAndStops : Prop :=
  ∀ (mode trigger single : Byte) (scan : BitVec 16) (q : Request) (s : State),
    let m := s.mon
    let abandoned := if m.state = .scanning then m.pass.head? else none
    let flags (x : Channel) : ChannelRecord := { m.channel.read x with inScan := scan.getLsbD x.val }
    let first (m : Monitor) (pass : List Channel) : Monitor := passBegun s.time.localTicks m pass
    let channels (m : Monitor) : List Channel := scanned m
    exec .hubSecond s = .next { s with mon := hubSecondSeen s.time.localTicks m, out := [] } ∧
    (Takes s .monitorStop q →
      Answered .monitorStop s q .ok
        (match abandoned with | some x => [1, BitVec.ofNat 8 x.val] | none => [0, 0])
        { s.taking with mon := { m with
          state := .stopped, pass := [], conversionEnd := none
          counters := if abandoned.isSome then { m.counters with abandoned := oneMore m.counters.abandoned }
            else m.counters } }) ∧
    (Takes s (.monitorStart mode trigger single scan) q →
      (m.state = .scanning → Answered (.monitorStart mode trigger single scan) s q .busy []
        { s.taking with mon := { m with counters := { m.counters with ignored := oneMore m.counters.ignored } } }) ∧
      (m.state ≠ .scanning →
        (2 < mode.toNat ∨ 2 < trigger.toNat ∨ mode = 2 ∧ trigger ≠ 0 →
          Refuses (.monitorStart mode trigger single scan) s q .badValue) ∧
        (mode = 0 → trigger.toNat ≤ 2 → 16 ≤ single.toNat →
          Refuses (.monitorStart mode trigger single scan) s q .badIndex) ∧
        (mode.toNat ≤ 2 → trigger.toNat ≤ 2 → (mode = 2 → trigger = 0) → ∀ x : Channel, x.val = single.toNat →
          let set : Monitor := { m with
            mode := if mode = 0 then .single else if mode = 1 then .oneScan else .continuous
            trigger := if trigger = 0 then .software else if trigger = 1 then .localSecond else .hubSecond
            single := x, channel := Vector.ofFn flags }
          let started := if trigger = 0 then first set (channels set) else { set with state := .waiting }
          Answered (.monitorStart mode trigger single scan) s q .ok
            ([mode, trigger, single] ++ bytes16 scan ++
              [if started.state = .stopped then 0 else if started.state = .waiting then 1 else 2])
            { s.taking with mon := started })))

/-- An unknown request is answered BAD_REQUEST: the response is sent, discarded or waits for the reserve. An unknown
request, of a code or argument length not in the catalogue or of a payload shorter than 3 bytes, taken with no
response in the list: the response carries its code, its tag (0 where the payload is too short to carry one) and
BAD_REQUEST, with the request's header sequence and made at the present hub time. With no maker waiting and a free
reserve cell it enters the CONTROL queue of the requester's port, counts as made and the arbiter decides, or is
discarded at a slot not up or stalled; otherwise it stands in the response list and the agent in the reserve waiting
list. Nothing else changes. A payload of no bytes is left to LOG 31. Rests on:
spec/03_cell_buffer_and_egress_queues.md: R46, R48, R49, R60; spec/11_management_requests.md: R179, R181, R185;
spec/12_frame_and_record_formats.md: 12.3. -/
def Obligations.UnknownRequestIsAnswered : Prop :=
  ∀ (q : Request) (s : State), Takes s .unknownRequest q → s.agent.responses = [] →
    ∀ (code : Byte) (rest : List Byte), q.payload = code :: rest →
    let n := q.requester
    let payload := code :: (bytes16 (requestTag q.payload) ++ [1])
    let r : Response := ⟨.taken, n, q.seq, payload, ⟨s.time.sec, s.time.ns⟩⟩
    let h : HubFrame := ⟨.mgmtResp, n, q.seq, payload, ⟨s.time.sec, s.time.ns⟩, 0⟩
    let t := s.taking
    let queues := (s.sq n).queues
    let e := (s.sq n).egress
    let admissible : Prop := (s.slot n).state.isUp = true ∧ (s.sq n).hold ≠ .stalled
    (rest.length < 2 → requestTag q.payload = 0) ∧
    (s.qm.waiting = [] → 1 ≤ s.reserveFree → admissible →
      exec .unknownRequest s = .next (arbitrate n { t with
        qm := { s.qm with
          nextFrame := s.qm.nextFrame + 1
          frames := s.qm.frames ++ [⟨s.qm.nextFrame, .hub h, .control, 1, 1⟩]
          slot := s.qm.slot.write n { s.sq n with
            queues := { queues with control := queues.control ++ [s.qm.nextFrame] } } }
        agent := { t.agent with counters := { t.agent.counters with made := oneMore t.agent.counters.made } } })) ∧
    (s.qm.waiting = [] → 1 ≤ s.reserveFree → ¬ admissible →
      exec .unknownRequest s = .next { t with
        qm := { s.qm with slot := s.qm.slot.write n { s.sq n with egress := { e with
          discards := oneMore e.discards
          stallDiscards := if (s.slot n).state.isUp = true then oneMore e.stallDiscards else e.stallDiscards } } } }) ∧
    (s.qm.waiting ≠ [] ∨ s.reserveFree = 0 →
      exec .unknownRequest s = .next { t with
        qm := { s.qm with
          waiting := if .agent ∈ s.qm.waiting then s.qm.waiting else s.qm.waiting ++ [.agent] }
        agent := { t.agent with responses := [r] } })

/-- The reads of the hub, a slot, counters, timing, delays, the monitor, alarms and flows carry their items and change
nothing. Each read is answered OK with the items its rule lists, in that order, whole numbers most significant byte
first, a flag as 0 or 1, an optional value as a presence byte and its field, zeros where absent, a list as a count and
its items (R188). READ_HUB: the part, the uptime, the requests, in-flight records by kind and responses held, the agent
counters (widths: LOG 11). READ_SLOT: the record, the port's and the other blocks' items, the budgets, the waiting list
and the counters; READ_IDENTITY: the identity record in the order of the table of 12.5, spare before checksum (LOG 62),
the last attempt, the IDENTIFY entry (running but in an abort, LOG 55) and the counters; READ_COUNTERS: the link, drop
and egress counters, the levels of the pool, all slots and all ports (LOG 38) and the agent's counters; READ_DELAY,
READ_TIMING (e_prev: LOG 32; the holdoff timer in whole seconds, absent outside FAILED, a choice of the model: LOG 59),
READ_MONITOR: theirs. READ_ALARMS carries the unit's items and, for 0xFF, the active list, and for an id 0-92 the
point's record. READ_FLOW carries flow 0's two counters or a flow's record (one presence byte, LOG 47). Presence,
latch, guard, acknowledge map, outcome, failure kind, contacts and budget are coded by LOG 12; names of tables from 0
in their order. A slot outside 1-12, or a point above 92 but for 0xFF, is refused BAD_INDEX. None changes anything but
the agent's queue. Rests on: spec/02_flows_and_forwarding.md: R40; spec/03_cell_buffer_and_egress_queues.md: R60;
spec/05_hub_time_and_reference_tracking.md: R99, R100; spec/06_slot_delay_and_time_marks.md: R118;
spec/07_slot_lifecycle_and_power.md: R139; spec/08_card_identity_over_the_sideband.md: R153;
spec/09_cabinet_monitor.md: R163; spec/10_alarms_notices_and_mailboxes.md: R177; spec/11_management_requests.md: R179,
R184, R185; spec/12_frame_and_record_formats.md: R188. -/
def Obligations.StateReadsChangeNothing : Prop :=
  ∀ (slot point flow : Byte) (q : Request) (s : State),
    let t := s.taking
    let c := s.agent.counters
    let u (k x : Nat) : List Byte := beBytes k x
    let yes (b : Bool) : List Byte := [if b then 1 else 0]
    let may (k : Nat) (x : Option (List Byte)) : List Byte := match x with
      | some bytes => 1 :: bytes
      | none => List.replicate (k + 1) 0
    let number (n : Slot) : List Byte := u 1 (n.val + 1)
    let agent : List Byte := u 4 c.accepted ++ u 4 c.refused ++ u 4 c.made ++ u 4 c.withdrawn ++ u 4 c.unsent
    let kind (k : InFlightKind) : Nat := (s.agent.inflight.filter fun f => f.kind = k).length
    let reads (i : Instr) (results : List Byte) : Prop := Takes s i q → Answered i s q .ok results t
    let refuses (i : Instr) : Prop := Takes s i q → Refuses i s q .badIndex
    reads .readHub ([0, 214] ++ u 2 1640 ++ [1] ++ u 8 s.agent.uptime ++ u 1 (s.agent.queue.length - 1) ++
      u 1 (kind .commit) ++ u 1 (kind .rawRead) ++ u 1 (kind .wait) ++ u 1 s.agent.responses.length ++ agent) ∧
    (∀ n : Slot, n.val + 1 = slot.toNat →
      let r := s.slot n
      let k := r.counters
      let d := s.slotDelay n
      let x := d.counters
      let e := (s.sq n).egress
      let l := (s.port n).counters
      let b := s.side.counters.read n
      let list := s.slots.waitingList
      let degraded := (s.port n).reportedWidth.any fun w => w.lanes < s.laneCapability n
      reads (.readSlot slot) (yes r.present ++ yes (!r.closed) ++ [r.state.code] ++ yes r.admitted ++
        may 1 (r.fault.map fun f => [f.code]) ++ may 1 (r.failureKind.map fun f => [f.code - 1]) ++ yes r.pullGuard ++
        may 2 (r.identity.map fun i => u 1 (i.kind.code - 1) ++ u 1 i.powerClass) ++ may 1 (r.width.map fun w => u 1 w.lanes) ++
        yes degraded ++ u 2 (s.port n).lastErrorCount ++ u 1 (s.sq n).stallCount ++ yes d.delays.isSome ++
        yes (s.alarm.mailbox.read n).isSome ++ yes r.lines.powerEnable ++ yes r.lines.removeLamp ++
        may 1 ((list.findIdx? (· == n)).map fun k => u 1 (k + 1)) ++ u 2 s.slots.committed ++
        [if s.slots.inForce = .mains then 0 else 1] ++ u 2 s.slots.mainsBudget ++ u 2 s.slots.batteryBudget ++
        (u 1 list.length ++ list.flatMap number) ++
        u 4 k.insertions ++ u 4 k.grants ++ u 4 k.faults ++ u 4 k.drainsCompleted ++ u 4 k.drainTimeouts ++ u 4 k.removals) ∧
      reads (.readIdentity slot) (may 64 (r.identity.map fun i =>
          u 1 i.format ++ u 1 i.kind.code ++ u 2 i.maker ++ i.model ++ i.serial ++ u 1 i.powerClass ++ u 1 i.lanes ++
            u 1 i.maxExponent ++ [i.flags] ++ u 1 i.softStart ++ u 2 i.currentLimit ++ i.spare ++ [i.checksum]) ++
        may 4 ((s.side.lastAttempt.read n).map fun a =>
          [a.outcome.code, a.map.addressWrite.code, a.map.offset.code, a.map.addressRead.code]) ++
        may 3 ((s.side.queue.findIdx? (SidebandEntry.identifies n)).bind fun i => match s.side.queue[i]? with
          | some (.identify _ attempt) => some (u 1 attempt ++ u 1 (i + 1) ++
            yes (i == 0 && s.side.current.any fun y => !y.aborting))
          | _ => none) ++
        u 4 b.attempts ++ u 4 b.failures ++ u 4 b.rawReads) ∧
      reads (.readCounters slot) (
        u 4 l.framesReceived ++ u 4 l.failedAttempts ++ u 4 l.retrains ++ u 4 l.laneFailures ++
        (s.fwd.drops.read n).byReason.toList.flatMap (u 4) ++ u 4 (s.fwd.drops.read n).framesToHub ++
        u 4 e.sent ++ u 4 e.discards ++ u 4 e.stallDiscards ++ u 4 e.sampleRefusals ++ u 4 e.losses ++
        u 2 s.sharedFree ++ u 2 s.reserveFree ++
        (allSlots.flatMap fun m => u 2 (s.heldCells m) ++ yes (s.sq m).paused ++ [(s.sq m).hold.code] ++
          u 1 (s.sq m).stallCount) ++
        (allSlots.flatMap fun m =>
          let w := (s.sq m).queues
          u 2 w.sample.length ++ u 1 w.timing.length ++ u 2 w.control.length ++ u 2 w.bulk.length ++
            u 2 (s.sampleOccupancy m)) ++ agent) ∧
      reads (.readDelay slot) (yes d.client ++ u 1 d.nextSeq ++
        may 12 (d.outstanding.map fun y => u 1 y.seq ++ may 10 (y.t1.map fun z => u 6 z.sec ++ u 4 z.ns)) ++
        (u 1 d.window.length ++ d.window.flatMap (u 2)) ++ may 2 (d.base.map (u 2)) ++ u 1 d.missRun ++ u 1 d.highRun ++
        beSigned 2 d.asymmetry ++ may 4 (d.delays.map fun y => u 2 y.towardCard ++ u 2 y.towardHub) ++ u 1 s.delay.quality ++
        u 1 s.delay.config.probeRate ++ u 2 s.delay.config.rmax ++ u 2 s.delay.config.stepLimit ++
        u 1 s.delay.config.markRate ++
        u 4 x.probesMade ++ u 4 x.probesSkipped ++ u 4 x.accepted ++ u 4 x.rejected ++ u 4 x.stale ++ u 4 x.misses ++
        u 4 x.abandoned ++ u 4 x.resets ++ u 4 x.losses ++ u 4 x.marksMade ++ u 4 x.marksSkipped ++ u 4 x.marksWithdrawn)) ∧
    (let k := s.trk
      let source (r : SourceRecord) : List Byte := [r.state.code] ++ may 1 (r.provider.map number) ++ u 1 r.good ++
        u 1 r.jumps ++ may 8 (r.ePrev.map (beSigned 8)) ++ yes r.announced.isSome ++
        may 1 (if r.state = .failed then r.holdoffStart.map fun y =>
          u 1 (min 10 ((s.time.localTicks - y) / 125000000)) else none)
      let both (f : SourceCounters → Nat) : List Byte := u 4 (f k.counters.srcP) ++ u 4 (f k.counters.srcN)
      reads .readTiming (u 6 s.time.sec ++ u 4 s.time.ns ++ [k.timing.code] ++
        u 1 (match k.timing with | .locked => 1 | .holdover => 2 | .acquiring => 3 | .freerun => 4) ++
        ([match k.selected with | none => 0 | some .P => 1 | some .N => 2] : List Byte) ++ yes k.holdoverReady ++
        u 4 (match k.holdoverStart with
          | some y => (s.time.localTicks - y) / 125000000
          | none => k.holdoverLast) ++
        beSigned 4 s.time.freq ++ beSigned 4 k.integral ++ u 8 s.time.increment ++ u 1 k.lockRun ++ u 1 k.unlockRun ++
        source k.srcP ++ source k.srcN ++
        yes k.source.nFirst ++ yes k.source.revertive ++ u 1 (match k.source.nSlot with | some y => y.val + 1 | none => 0) ++
        u 1 k.source.nRate ++ u 2 k.source.pulseComp ++ u 4 k.source.jumpLimit ++
        u 1 k.servo.kp ++ u 1 k.servo.ki ++ u 4 k.servo.fLimit ++ u 4 k.servo.stepThreshold ++ u 4 k.servo.lockWindow ++
        u 1 k.servo.lockCount ++ u 4 k.servo.holdoverLimit ++
        both (·.good) ++ both (·.jumps) ++ both (·.unusable) ++ both (·.failures) ++ u 4 k.counters.steps ++
        u 4 k.counters.discarded)) ∧
    (let m := s.mon;
      reads .readMonitor ([m.state.code, m.mode.code, m.trigger.code] ++ u 1 m.single.val ++
        may 1 ((if m.state = .scanning then m.pass.head? else none).map fun y => u 1 y.val) ++
        (allChannels.flatMap fun y =>
          let r := m.channel.read y
          may 2 (r.last.map (u 2)) ++ yes r.inScan ++ may 2 (r.critLow.map (u 2)) ++ may 2 (r.warnLow.map (u 2)) ++
            may 2 (r.warnHigh.map (u 2)) ++ may 2 (r.critHigh.map (u 2)) ++ u 1 r.hysteresis ++ may 1 (r.warning.map yes) ++
            may 1 (r.critical.map yes) ++
            (if h : y.val < 12 then yes (m.powered.read ⟨y.val, h⟩) else ([] : List Byte))) ++
        u 4 m.counters.conversions ++ u 4 m.counters.passes ++ u 4 m.counters.abandoned ++ u 4 m.counters.ignored)) ∧
    (slot.toNat = 0 ∨ 12 < slot.toNat →
      refuses (.readSlot slot) ∧ refuses (.readIdentity slot) ∧ refuses (.readCounters slot) ∧ refuses (.readDelay slot)) ∧
    (let a := s.alarm
      let unit : List Byte := yes a.majorAlarm ++ yes a.minorAlarm ++
        (a.inputs.toList.flatMap fun i => yes (!i.debouncedOpen) ++ u 2 (if i.alarmWhenOpen then 0 else 1)) ++
        u 1 a.notices.length ++ yes a.overflow ++ u 1 a.waits.length ++ u 4 a.counters.produced ++
        u 4 a.counters.discarded ++ u 4 a.counters.accepted ++ u 4 a.counters.refused ++ u 4 a.counters.unanswered
      (point = 255 → reads (.readAlarms point) (unit ++ (u 1 a.active.length ++ a.active.flatMap fun id =>
        let p := s.point id
        u 1 id.val ++ [p.state.code, p.severity.code] ++ yes p.enabled ++ yes p.acked))) ∧
      (∀ id : PointId, id.val = point.toNat →
        let p := s.point id
        reads (.readAlarms point) (unit ++ u 1 id.val ++ [(pointKind id).code, p.severity.code] ++ yes p.enabled ++
          may 1 (p.raisePers.map (u 1)) ++ may 1 (p.clearPers.map (u 1)) ++ yes p.latched ++ [p.state.code] ++ u 1 p.count ++
          yes p.acked ++ yes p.condition ++ u 2 p.raiseCount ++ u 8 p.lastChange))) ∧
    (92 < point.toNat → point ≠ 255 → refuses (.readAlarms point)) ∧
    (flow = 0 → reads (.readFlow flow) (u 4 s.fwd.defaultForwarded ++ u 4 s.fwd.defaultDropped)) ∧
    (∀ f : Fin 255, f.val + 1 = flow.toNat →
      let x := s.flow f
      let reasons : List Byte := (if x.suspension.sourceDown then [0] else []) ++
        (if x.suspension.destDown then [1] else []) ++ (if x.suspension.timing then [2] else []) ++
        (if x.suspension.fit then [3] else [])
      reads (.readFlow flow) (x.state.code ::
        (may 7 (x.fields.map fun r => number r.source ++
          (match r.dest with | .slot n => 0 :: number n | .group g => 1 :: u 1 (g.val + 1)) ++
          [r.cls.code] ++ u 2 r.maxFrame ++ yes r.needsLock) ++
        (u 1 reasons.length ++ reasons) ++ u 4 x.forwarded ++ u 4 x.dropped)))

/-- READ_GROUP and READ_WINDOWS answer the members and the bank as they stand. READ_GROUP of a group outside 1-16 is
refused BAD_INDEX, and otherwise answered with the group's members in ascending slot order, at most 12 of them, as a
counted list. READ_WINDOWS of a port outside 1-12 is refused BAD_INDEX, and otherwise, for bank 0x00 active or 0x01
pending, answered with that bank's cycle length, the port's window list in its stored order, and whether the calendar
is armed, whether or not it is. A bank code not in the table is refused BAD_VALUE. Nothing else changes. Rests on:
spec/02_flows_and_forwarding.md: R42; spec/04_the_window_calendar_and_egress_selection.md: R66;
spec/12_frame_and_record_formats.md: R188. -/
def Obligations.GroupAndWindowReads : Prop :=
  ∀ (group bank port : Byte) (q : Request) (s : State),
    (Takes s (.readGroup group) q →
      (group.toNat = 0 ∨ 16 < group.toNat → Refuses (.readGroup group) s q .badIndex) ∧
      (∀ g : Fin 16, g.val + 1 = group.toNat →
        let members := allSlots.filter fun n => (s.fwd.groups.read g).read n
        members.length ≤ 12 ∧ members.Pairwise (fun a b => a < b) ∧
          Answered (.readGroup group) s q .ok
            (BitVec.ofNat 8 members.length :: members.map fun n => BitVec.ofNat 8 (n.val + 1)) s.taking)) ∧
    (Takes s (.readWindows bank port) q →
      (port.toNat = 0 ∨ 12 < port.toNat → Refuses (.readWindows bank port) s q .badIndex) ∧
      (∀ p : Slot, p.val + 1 = port.toNat →
        (1 < bank.toNat → Refuses (.readWindows bank port) s q .badValue) ∧
        (bank.toNat ≤ 1 →
          let b := if bank = 0 then s.cal.active else s.cal.pendingBank
          let ws := b.windows.read p
          Answered (.readWindows bank port) s q .ok
            (beBytes 4 b.cycle ++ [BitVec.ofNat 8 ws.length] ++
              ws.flatMap (fun w => beBytes 4 w.start ++ beBytes 4 w.length) ++
              [if s.cal.arming = none then 0 else 1]) s.taking)))

/-- WRITE_WINDOWS and SET_CYCLE write the pending bank alone, unless the calendar is armed. WRITE_WINDOWS is refused
BUSY while the calendar is armed, then BAD_INDEX for a port outside 1-12, then BAD_VALUE for more than 8 windows;
otherwise it replaces the port's list in the pending bank with the list given, in its order, and is answered with the
port and the list as written, and nothing else changes: not the active bank, and no FIT evaluation follows. SET_CYCLE
is refused BUSY while armed; otherwise the value clamped to 10,000-1,000,000 becomes the pending bank's cycle length,
whether or not it divides a second, and is the answer; the active bank stays. Rests on:
spec/04_the_window_calendar_and_egress_selection.md: R64, R65. -/
def Obligations.PendingBankIsWritten : Prop :=
  ∀ (port : Byte) (windows : List RawWindow) (cycle : BitVec 32) (q : Request) (s : State),
    let write : Instr := .writeWindows port windows
    let bank := s.cal.pendingBank
    (Takes s write q →
      (s.cal.arming ≠ none → Refuses write s q .busy) ∧
      (s.cal.arming = none → port.toNat = 0 ∨ 12 < port.toNat → Refuses write s q .badIndex) ∧
      (s.cal.arming = none → ∀ p : Slot, p.val + 1 = port.toNat →
        (8 < windows.length → Refuses write s q .badValue) ∧
        (windows.length ≤ 8 →
          Answered write s q .ok
            (port :: BitVec.ofNat 8 windows.length ::
              windows.flatMap fun w => beBytes 4 w.start.toNat ++ beBytes 4 w.length.toNat)
            { s.taking with cal := { s.cal with pendingBank := { bank with
              windows := bank.windows.write p (windows.map fun w => ⟨w.start.toNat, w.length.toNat⟩) } } }))) ∧
    (Takes s (.setCycle cycle) q →
      (s.cal.arming ≠ none → Refuses (.setCycle cycle) s q .busy) ∧
      (s.cal.arming = none →
        let c := max 10000 (min 1000000 cycle.toNat)
        Answered (.setCycle cycle) s q .ok (beBytes 4 c)
          { s.taking with cal := { s.cal with pendingBank := { bank with cycle := c } } }))

/-- COMMIT_CALENDAR is refused by the first of its checks that fails, which names the port or the flow.
COMMIT_CALENDAR while armed is refused BUSY. Otherwise a pending cycle that does not divide 10^9 is refused BAD_VALUE
naming port 0; then the first port whose pending list is out of order or outside the cycle is named with BAD_VALUE;
then the first pair, in ascending flow and slot order, of an enabled SAMPLE flow and one of its destination ports that
the flow does not fit in the pending bank is named with NO_FIT. In none of these does anything else change: neither
bank, and the calendar is not armed. Rests on: spec/04_the_window_calendar_and_egress_selection.md: R67, R77. -/
def Obligations.CommitIsCheckedInOrder : Prop :=
  ∀ (q : Request) (s : State), Takes s .commitCalendar q →
    let c := s.cal.pendingBank.cycle
    let list (p : Slot) : List Window := s.cal.pendingBank.windows.read p
    let dest (r : FlowRecord) (p : Slot) : Prop := (s.slot p).state = .active ∧
      (r.dest = .slot p ∨ ∃ g : Fin 16, r.dest = .group g ∧ p ∈ s.groupMembers g ∧ p ≠ r.source)
    let fit (r : FlowRecord) (p : Slot) : Prop := list p ≠ [] ∧
      ∃ w, (s.port p).reportedWidth = some w ∧ ∀ x ∈ list p, wireTime r.maxFrame w ≤ x.length
    let misfits (f : Fin 255) (p : Slot) : Prop := ∃ r, (s.flow f).fields = some r ∧
      (((s.flow f).state = .live ∨ (s.flow f).state = .suspended) ∧ r.cls = .sample ∧ dest r p ∧ ¬ fit r p)
    let answers (status : Status) (results : List Byte) : Prop :=
      Answered .commitCalendar s q status results s.taking
    (s.cal.arming ≠ none → answers .busy []) ∧
    (s.cal.arming = none →
      (¬ c ∣ 1000000000 → answers .badValue [0]) ∧
      (c ∣ 1000000000 →
        (∀ p : Slot, ¬ InOrder c (list p) → (∀ p' : Slot, p' < p → InOrder c (list p')) →
          answers .badValue [BitVec.ofNat 8 (p.val + 1)]) ∧
        ((∀ p : Slot, InOrder c (list p)) →
          (∀ (f : Fin 255) (p : Slot), misfits f p →
            (∀ (f' : Fin 255) (p' : Slot), misfits f' p' → f < f' ∨ f = f' ∧ p ≤ p') →
            answers .noFit [BitVec.ofNat 8 (f.val + 1), BitVec.ofNat 8 (p.val + 1)]))))

/-- Queue, probe and asymmetry settings are taken at the nearer end of their ranges and apply at once. SET_QUOTA
clamps the quota to 64-3,840, then Y to 1 to quota - 1, then X to 0 to quota - Y - 1, and examines the slot's pause
against them; SET_SAMPLE_LIMIT takes 16-1,024, SET_HOLD 1-10,000 us and 1-15 stalls, SET_ASYMMETRY -500 to +500 ns
with the delay record formed again from base. Each names a slot 1-12 and is refused BAD_INDEX for any other. SET_PROBE
takes 1-64, 100-20,000, 10-10,000 and a mark rate at the lower of 1, 2, 4, 8 and 16, and a changed rate restarts its
clock, while the clock of an unchanged rate runs on, which is the model's choice (LOG 44). Each answer carries the
values taken, and nothing else changes. Rests on: spec/03_cell_buffer_and_egress_queues.md: R50, R51, R52, R56;
spec/06_slot_delay_and_time_marks.md: R104, R112, R113, R114, R117; spec/11_management_requests.md: R179. -/
def Obligations.SettingsAreTakenAtTheNearerEnd : Prop :=
  ∀ (slot : Byte) (a b c : BitVec 16) (d e : Byte) (q : Request) (s : State),
    let near (lo hi x : Nat) : Nat := max lo (min hi x)
    let t := s.taking
    (slot.toNat = 0 ∨ 12 < slot.toNat → ∀ i ∈ [Instr.setQuota slot a b c, .setSampleLimit slot a, .setHold slot a d,
      .setAsymmetry slot a], Takes s i q → Refuses i s q .badIndex) ∧
    (∀ n : Slot, n.val + 1 = slot.toNat →
      let g := s.queueConfig n
      (Takes s (.setQuota slot a b c) q →
        let quota := near 64 3840 a.toNat
        let y := near 1 (quota - 1) b.toNat
        let x := near 0 (quota - y - 1) c.toNat
        let set : State := { t with qcfg := s.qcfg.write n { g with quota := quota, y := y, x := x } }
        let paused := set.pausedAt n (s.heldCells n)
        Answered (.setQuota slot a b c) s q .ok (beBytes 2 quota ++ beBytes 2 y ++ beBytes 2 x) { set with
          qm := { s.qm with slot := s.qm.slot.write n { s.sq n with paused := paused } }
          ports := s.ports.write n (s.portTold n paused), out := s.symbolsTold n paused }) ∧
      (Takes s (.setSampleLimit slot a) q →
        let limit := near 16 1024 a.toNat
        Answered (.setSampleLimit slot a) s q .ok (beBytes 2 limit)
          { t with qcfg := s.qcfg.write n { g with sampleLimit := limit } }) ∧
      (Takes s (.setHold slot a d) q →
        let hold := near 1 10000 a.toNat
        let stall := near 1 15 d.toNat
        Answered (.setHold slot a d) s q .ok (beBytes 2 hold ++ beBytes 1 stall)
          { t with qcfg := s.qcfg.write n { g with holdLimit := hold, stallLimit := stall } }) ∧
      (Takes s (.setAsymmetry slot a) q →
        let asym : Int := max (-500) (min 500 a.toInt)
        let delays := (s.slotDelay n).base.map fun x =>
          (⟨((x : Int) + asym).toNat, ((x : Int) - asym).toNat⟩ : DelayRecord)
        Answered (.setAsymmetry slot a) s q .ok
          (slot :: (beSigned 2 asym ++ (match delays with
            | some r => 1 :: (beBytes 2 r.towardCard ++ beBytes 2 r.towardHub)
            | none => [0, 0, 0, 0, 0])))
          { t with delay := { s.delay with slot := s.delay.slot.write n { s.slotDelay n with
            asymmetry := asym, delays := delays } } })) ∧
    (Takes s (.setProbe d a b e) q →
      let old := s.delay.config
      let rate := near 1 64 d.toNat
      let rmax := near 100 20000 a.toNat
      let limit := near 10 10000 b.toNat
      let mark := if e.toNat < 2 then 1 else if e.toNat < 4 then 2 else if e.toNat < 8 then 4
        else if e.toNat < 16 then 8 else 16
      Answered (.setProbe d a b e) s q .ok (beBytes 1 rate ++ beBytes 2 rmax ++ beBytes 2 limit ++ beBytes 1 mark)
        { t with delay := { s.delay with
          config := ⟨rate, rmax, limit, mark⟩
          nextProbe := if rate = old.probeRate then s.delay.nextProbe
            else s.time.localTicks + 125000000 / rate
          nextMark := if mark = old.markRate then s.delay.nextMark
            else s.time.localTicks + 125000000 / mark } })

/-- SET_ADMISSION sets policies and drain timeout, SET_BUDGET serves the waiting list from its head (codes: LOG 12).
SET_ADMISSION with six policy codes AUTO (0) or MANUAL (1) takes them and the drain timeout clamped to 1-1,000 ms and
answers them; another code is refused BAD_VALUE. SET_BUDGET clamps to 50-2,000 W and 0-2,000 W and answers the values
taken, the budget in force (MAINS 0, BATTERY 1 by LOG 12), committed power and the waiting list. Where the head of the
list does not fit the new budget no slot changes. Where it fits, with both of its power lines false, and the next head
does not, the head alone is granted: it leaves the list and enters POWERING with its deadline and guard, and its class
is committed. Rests on: spec/07_slot_lifecycle_and_power.md: R123, R124, R126, R134, R136, R137;
spec/12_frame_and_record_formats.md: R188. -/
def Obligations.AdmissionAndBudgetsAreSet : Prop :=
  ∀ (a b c d e f : Byte) (drain mains battery : BitVec 16) (q : Request) (s : State),
    let admission : Instr := .setAdmission a b c d e f drain
    let budget : Instr := .setBudget mains battery
    let codes := [a, b, c, d, e, f]
    let timeout := max 1 (min 1000 drain.toNat)
    (Takes s admission q →
      ((∃ x ∈ codes, 1 < x.toNat) → Refuses admission s q .badValue) ∧
      ((∀ x ∈ codes, x.toNat ≤ 1) → Answered admission s q .ok (codes ++ beBytes 2 timeout)
        { s.taking with slots := { s.slots with
          manual := #v[a == 1, b == 1, c == 1, d == 1, e == 1, f == 1], drainTimeout := timeout } })) ∧
    (Takes s budget q →
      let m := max 50 (min 2000 mains.toNat)
      let y := min 2000 battery.toNat
      let force := if s.slots.inForce = .mains then m else y
      let list := s.slots.waitingList
      let set : SlotController := { s.slots with mainsBudget := m, batteryBudget := y }
      let results (committed : Nat) (list : List Slot) : List Byte :=
        beBytes 2 m ++ beBytes 2 y ++ [if s.slots.inForce = .mains then 0 else 1] ++ beBytes 2 committed ++
          (BitVec.ofNat 8 list.length :: list.map fun n => BitVec.ofNat 8 (n.val + 1))
      ((∀ n : Slot, list.head? = some n → force < s.slots.committed + s.classOf n) →
        ∃ t : State, Answered budget s q .ok (results s.slots.committed list) t ∧ t.slots = set) ∧
      (∀ (n : Slot) (rest : List Slot), list = n :: rest →
        (n ∉ rest ∧ (s.slot n).state = .waitingPower ∧ s.slots.committed + s.classOf n ≤ force ∧
          (s.slot n).lines.powerGood = false ∧ (s.slot n).lines.fastFault = false ∧
          (∀ k : Slot, rest.head? = some k → force < s.slots.committed + s.classOf n + s.classOf k)) →
        ∃ t : State, Answered budget s q .ok (results (s.slots.committed + s.classOf n) rest) t ∧
          t.slots = { set with
            committed := s.slots.committed + s.classOf n, waitingList := rest
            slot := s.slots.slot.write n { s.slot n with
              state := .powering, pullGuard := true
              softStart := some (s.time.localTicks +
                (match (s.slot n).identity with | some i => i.softStart | none => 0) * 1250000)
              lines := { (s.slot n).lines with powerEnable := true, removeLamp := false }
              counters := { (s.slot n).counters with grants := oneMore (s.slot n).counters.grants } } }))

/-- WRITE_FLOW and WRITE_GROUP check their values and write the flow or the group. WRITE_FLOW is refused BAD_INDEX for
flow 0, WRONG_STATE for an enabled flow, and BAD_VALUE for a source, destination, class or code out of its table or a
slot destination equal to the source; otherwise the flow is DISABLED with the fields given, the max frame clamped to
64-2,048, counters 0 and its suspension set formed from the present state (for FIT of a SAMPLE flow from the active
bank), and the answer carries the record as written; a flow of another class changes no other flow (no presence byte
in the record: LOG 47). WRITE_GROUP (its group comes from elsewhere than its bytes, and another free value is drawn
for the next: LOG 35) is refused BAD_INDEX outside 1-16 and BAD_VALUE for an entry outside 1-12; otherwise the group
becomes the set of the slots named, answered in ascending order, and the other groups stay; where no written SAMPLE
flow names it nothing else changes, and otherwise FIT is evaluated against the active bank. Rests on:
spec/02_flows_and_forwarding.md: R22, R25, R36, R41; spec/04_the_window_calendar_and_egress_selection.md: R78;
spec/11_management_requests.md: R179; spec/12_frame_and_record_formats.md: R188. -/
def Obligations.FlowAndGroupAreWritten : Prop :=
  ∀ (flow source destKind dest cls : Byte) (maxFrame : BitVec 16) (lock group : Byte) (members : List Byte)
    (q : Request) (s : State),
    let write : Instr := .writeFlow flow source destKind dest cls maxFrame lock
    let slotNo (x : Byte) : Prop := 1 ≤ x.toNat ∧ x.toNat ≤ 12
    let goodDest : Prop := (destKind = 0 ∧ slotNo dest ∧ dest ≠ source) ∨
      (destKind = 1 ∧ 1 ≤ dest.toNat ∧ dest.toNat ≤ 16)
    let good : Prop := slotNo source ∧ goodDest ∧ (cls = 0 ∨ cls = 2 ∨ cls = 3) ∧ lock.toNat ≤ 1
    let length := max 64 (min 2048 maxFrame.toNat)
    (Takes s write q →
      (flow = 0 → Refuses write s q .badIndex) ∧
      (∀ i : Fin 255, i.val + 1 = flow.toNat →
        ((s.flow i).state = .live ∨ (s.flow i).state = .suspended → Refuses write s q .wrongState) ∧
        ((s.flow i).state = .free ∨ (s.flow i).state = .disabled → ¬ good → Refuses write s q .badValue) ∧
        ((s.flow i).state = .free ∨ (s.flow i).state = .disabled → good →
          ∃ t : State, Answered write s q .ok ([flow, 1, source, destKind, dest, cls] ++ beBytes 2 length ++ [lock] ++
              (t.flow i).suspension.bytes ++ [0, 0, 0, 0, 0, 0, 0, 0]) t ∧
            (∃ r, (t.flow i).fields = some r ∧
              (t.flow i = ⟨.disabled, some r, (t.flow i).suspension, 0, 0⟩ ∧ r.source.val + 1 = source.toNat ∧
              r.dest.bytes = [destKind, dest] ∧ r.cls.code = cls ∧ r.maxFrame = length ∧
              r.needsLock = (lock == 1) ∧
              ((t.flow i).suspension.sourceDown = true ↔ (s.slot r.source).state ≠ .active) ∧
              ((t.flow i).suspension.destDown = true ↔ ∃ n : Slot, r.dest = .slot n ∧ (s.slot n).state ≠ .active) ∧
              ((t.flow i).suspension.timing = true ↔ lock = 1 ∧ s.trk.timing = .freerun) ∧
              ((t.flow i).suspension.fit = true ↔ cls = 0 ∧ ¬ s.FlowFits s.cal.active r))) ∧
            (cls ≠ 0 → t = { s.taking with fwd := { s.fwd with flows := s.fwd.flows.write i (t.flow i) } })))) ∧
    (Takes s (.writeGroup group members) q →
      let taken : State := { s.taking with free := s.free + 1 }
      (group.toNat = 0 ∨ 16 < group.toNat → Answered (.writeGroup group members) s q .badIndex [] taken) ∧
      (∀ g : Fin 16, g.val + 1 = group.toNat →
        ((∃ x ∈ members, ¬ slotNo x) → Answered (.writeGroup group members) s q .badValue [] taken) ∧
        ((∀ x ∈ members, slotNo x) →
          let set := allSlots.filter fun n => members.contains (BitVec.ofNat 8 (n.val + 1))
          ∃ t : State, Answered (.writeGroup group members) s q .ok
              (BitVec.ofNat 8 set.length :: set.map fun n => BitVec.ofNat 8 (n.val + 1)) t ∧
            t.groupMembers g = set ∧ (∀ h : Fin 16, h ≠ g → t.groupMembers h = s.groupMembers h) ∧
            ((∀ (f : Fin 255) (r : FlowRecord), (s.flow f).fields = some r → r.cls = .sample → r.dest ≠ .group g) →
              t = { taken with fwd := { s.fwd with groups := t.fwd.groups } }) ∧
            ((∃ (f : Fin 255) (r : FlowRecord), (s.flow f).fields = some r ∧ r.cls = .sample ∧ r.dest = .group g) →
              FitEvaluated s.cal.active { s with fwd := { s.fwd with groups := t.fwd.groups } } t) ∧
            t.fwd = { s.fwd with flows := t.fwd.flows, groups := t.fwd.groups } ∧ t.free = s.free + 1 ∧
            OnlyChanges [.ports, .fwd, .qm, .delay, .alarm, .agent, .out, .free] s t)))

/-- ENABLE_FLOW, DISABLE_FLOW and DELETE_FLOW move a flow between its states. Each is refused BAD_INDEX for flow 0 and
WRONG_STATE for a FREE flow. ENABLE_FLOW makes a DISABLED flow LIVE if its suspension set, with FIT of a SAMPLE flow
evaluated first, is empty and SUSPENDED otherwise, keeping fields and counters, and in a state that meets the
invariant of flows every other flow; of an enabled flow it changes nothing; it answers state and suspension set.
DISABLE_FLOW makes an enabled flow DISABLED and keeps all else of every flow; of a DISABLED flow it changes nothing.
After both, FLOW_SUSPENDED holds exactly while an enabled flow carries TIMING or FIT. DELETE_FLOW refuses an enabled
flow with WRONG_STATE and makes a DISABLED one FREE, without fields, with an empty suspension set and counters 0.
Rests on: spec/02_flows_and_forwarding.md: R25, R26, R37, R38, R39; spec/12_frame_and_record_formats.md: R188. -/
def Obligations.FlowIsEnabledDisabledAndDeleted : Prop :=
  ∀ (flow : Byte) (q : Request) (s : State),
    let requests := [Instr.enableFlow flow, .disableFlow flow, .deleteFlow flow]
    let examined (t : State) : Prop := (t.point flowSuspendedPoint).condition = true ↔ ∃ g : Fin 255,
      ((t.flow g).state = .live ∨ (t.flow g).state = .suspended) ∧
        ((t.flow g).suspension.timing = true ∨ (t.flow g).suspension.fit = true)
    (flow = 0 → ∀ i ∈ requests, Takes s i q → Refuses i s q .badIndex) ∧
    (∀ f : Fin 255, f.val + 1 = flow.toNat →
      let x := s.flow f
      (x.state = .free → ∀ i ∈ requests, Takes s i q → Refuses i s q .wrongState) ∧
      (Takes s (.enableFlow flow) q →
        (x.state = .live ∨ x.state = .suspended →
          Answered (.enableFlow flow) s q .ok (x.state.code :: x.suspension.bytes) s.taking) ∧
        (x.state = .disabled → ∃ t : State,
          Answered (.enableFlow flow) s q .ok ((t.flow f).state.code :: (t.flow f).suspension.bytes) t ∧
            (t.flow f).state = (if (t.flow f).suspension = ⟨false, false, false, false⟩ then .live else .suspended) ∧
            t.flow f = { x with
              state := (t.flow f).state
              suspension := { x.suspension with fit := (t.flow f).suspension.fit } } ∧
            (∀ r : FlowRecord, x.fields = some r → (t.flow f).suspension.fit =
              if r.cls = .sample then !fits s s.cal.active r else x.suspension.fit) ∧
            t.fwd = { s.fwd with flows := t.fwd.flows } ∧
            (s.FlowInv → ∀ g : Fin 255, g ≠ f → t.flow g = s.flow g) ∧
            (∀ r : FlowRecord, x.fields = some r → r.cls ≠ .sample → ∀ g : Fin 255, g ≠ f → t.flow g = s.flow g) ∧
            examined t ∧ OnlyChanges [.ports, .fwd, .qm, .delay, .alarm, .agent, .out] s t)) ∧
      (Takes s (.disableFlow flow) q →
        (x.state = .live ∨ x.state = .suspended → ∃ t : State, Answered (.disableFlow flow) s q .ok [] t ∧
          t.fwd = { s.fwd with flows := s.fwd.flows.write f { x with state := .disabled } } ∧ examined t ∧
          OnlyChanges [.ports, .fwd, .qm, .delay, .alarm, .agent, .out] s t) ∧
        (x.state = .disabled → Answered (.disableFlow flow) s q .ok [] s.taking)) ∧
      (Takes s (.deleteFlow flow) q →
        (x.state = .live ∨ x.state = .suspended → Refuses (.deleteFlow flow) s q .wrongState) ∧
        (x.state = .disabled → Answered (.deleteFlow flow) s q .ok [] { s.taking with
          fwd := { s.fwd with
            flows := s.fwd.flows.write f ⟨.free, none, ⟨false, false, false, false⟩, 0, 0⟩ } })))

/-- SET_SOURCE and SET_SERVO take their values at the nearer end and apply them at once. SET_SOURCE is refused
BAD_VALUE for an order or flag code outside the table, then BAD_INDEX for an N slot above 12; otherwise it takes the
rate at the lower of 1, 2, 4, 8 and 16 and the others clamped, and answers them with both states and the selected
source. A changed N slot whose provider is another makes N a fresh CANDIDATE of the new provider, or UNAVAILABLE
without one, and unselects it; a changed rate at which its silence timer has reached three intervals fails N.
Otherwise N stays, and it changes nothing else where no source is QUALIFIED or selected, or where revertive is off and
a QUALIFIED source is selected; and with both QUALIFIED, P selected, N first and revertive on it selects N in
ACQUIRING. SET_SERVO clamps its values, and I and F to the new F_limit at once; a running holdover timer at or above
the new limit ends in FREERUN. It answers the values taken, F, I and the timing state. Rests on:
spec/05_hub_time_and_reference_tracking.md: R80, R81, R86, R88, R89, R90, R95, R97, R98;
spec/11_management_requests.md: R179; spec/12_frame_and_record_formats.md: R188. -/
def Obligations.SourceAndServoAreSet : Prop :=
  ∀ (order revertive nSlot nRate : Byte) (comp : BitVec 16) (jump : BitVec 32) (kp ki : Byte)
    (fLimit step window : BitVec 32) (count : Byte) (holdover : BitVec 32) (q : Request) (s : State),
    let near (lo hi x : Nat) : Nat := max lo (min hi x)
    let source : Instr := .setSource order revertive nSlot nRate comp jump
    let servo : Instr := .setServo kp ki fLimit step window count holdover
    (Takes s source q →
      (1 < order.toNat ∨ 1 < revertive.toNat → Refuses source s q .badValue) ∧
      (order.toNat ≤ 1 → revertive.toNat ≤ 1 → 12 < nSlot.toNat → Refuses source s q .badIndex) ∧
      (order.toNat ≤ 1 → nSlot.toNat ≤ 12 → revertive.toNat ≤ 1 →
        let rate := if nRate.toNat < 2 then 1 else if nRate.toNat < 4 then 2 else if nRate.toNat < 8 then 4
          else if nRate.toNat < 16 then 8 else 16
        let slot : Option Slot := allSlots.find? fun n => n.val + 1 = nSlot.toNat
        let c : SourceConfig := ⟨order == 1, revertive == 1, slot, rate, min 10000 comp.toNat,
          near 100 1000000 jump.toNat⟩
        let r := s.trk.srcN
        let provider : Option Slot := slot.filter fun n =>
          (s.slot n).state == .active && (s.slot n).identity.any fun i => i.timingClient && i.refProvider
        let reworked : Prop := slot ≠ s.trk.source.nSlot ∧ provider ≠ r.provider
        let late : Prop := ¬ reworked ∧ rate ≠ s.trk.source.nRate ∧ (r.state = .candidate ∨ r.state = .qualified) ∧
          3 * (125000000 / rate) ≤ s.time.localTicks - r.silenceStart
        let same : Prop := ¬ reworked ∧ ¬ late
        let set : State := { s with trk := { s.trk with source := c } }
        let only : State := { s.taking with trk := { s.trk with source := c } }
        ∃ t : State, Answered source s q .ok ([order, revertive, nSlot] ++ beBytes 1 rate ++
            beBytes 2 c.pulseComp ++ beBytes 4 c.jumpLimit ++
            [t.trk.srcP.state.code, t.trk.srcN.state.code,
              match t.trk.selected with | none => 0 | some .P => 1 | some .N => 2]) t ∧
          t.trk.source = c ∧ t.trk.servo = s.trk.servo ∧ t.trk.integral = s.trk.integral ∧ t.trk.srcP = s.trk.srcP ∧
          (reworked →
            let gone : SourceRecord := { r with
              provider := provider, good := 0, jumps := 0, ePrev := none, prevArrival := none, announced := none
              holdoffStart := none }
            t.trk.srcN = (if provider = none then { gone with state := .unavailable }
              else { gone with state := .candidate, silenceStart := s.time.localTicks }) ∧
            t.trk.counters = s.trk.counters ∧ PointReported (sourceFailedPoint .N) false s t ∧ Unselected .N set t ∧
            OnlyChanges [.ports, .fwd, .qm, .time, .trk, .delay, .alarm, .agent, .out] s t) ∧
          (late → SourceFails .N set t) ∧ (same → t.trk.srcN = r ∧ t.trk.counters = s.trk.counters) ∧
          (same → s.trk.selected = none → s.trk.srcP.state ≠ .qualified → s.trk.srcN.state ≠ .qualified → t = only) ∧
          (same → revertive = 0 → (∀ x : Source, s.trk.selected = some x → (s.source x).state = .qualified) →
            s.trk.selected ≠ none → t = only) ∧
          (same → revertive = 1 → order = 1 → s.trk.srcP.state = .qualified → s.trk.srcN.state = .qualified →
            s.trk.selected = some .P → t.trk.selected = some .N ∧ t.trk.timing = .acquiring))) ∧
    (Takes s servo q →
      let c : ServoConfig := ⟨kp.toNat, ki.toNat, near 1 100000 fLimit.toNat, near 100 1000000000 step.toNat,
        near 10 100000 window.toNat, near 1 64 count.toNat, near 60 604800 holdover.toNat⟩
      let bound (x : Int) : Int := max (-(c.fLimit : Int)) (min (c.fLimit : Int) x)
      let freq := bound s.time.freq
      let integral := bound s.trk.integral
      let past : Prop := s.trk.timing = .holdover ∧ ∃ start, s.trk.holdoverStart = some start ∧
        c.holdoverLimit ≤ (s.time.localTicks - start) / 125000000
      let results (state : TimingState) : List Byte :=
        [kp, ki] ++ beBytes 4 c.fLimit ++ beBytes 4 c.stepThreshold ++ beBytes 4 c.lockWindow ++
          beBytes 1 c.lockCount ++ beBytes 4 c.holdoverLimit ++ beSigned 4 freq ++ beSigned 4 integral ++ [state.code]
      (s.trk.timing ≠ .holdover ∨ s.trk.holdoverStart ≠ none → ¬ past →
        Answered servo s q .ok (results s.trk.timing) { s.taking with
          trk := { s.trk with servo := c, integral := integral }
          time := if freq = s.time.freq then s.time
            else { s.time with freq := freq, increment := incrementOf freq } }) ∧
      (past → ∃ t : State, Answered servo s q .ok (results .freerun) t ∧ t.trk.timing = .freerun ∧
        t.trk.servo = c ∧ t.trk.integral = integral ∧ t.time.freq = freq ∧ t.delay.quality = 4))

/-- SET_ALARM_POINT, ACK_ALARM and SET_THRESHOLDS set a point, acknowledge it and set a channel. SET_ALARM_POINT of an
id outside 0-92 is refused BAD_INDEX and with a code outside its table BAD_VALUE; otherwise the point takes enable,
severity, for a SAMPLED point the persistences of at least 1, and latched, always for an EVENT point; a HELD point
then not latched goes to CLEAR with count 0 (LOG 56); ids 12-23 set the port's error threshold of at least 1, and ids
85-88 the input's polarity, whose condition is formed again from the debounced level and moves the point as a report
of it does. ACK_ALARM moves HELD to RAISING where its count is above 0 and to CLEAR otherwise, sets acknowledged in
ACTIVE and CLEARING, changes nothing in CLEAR and RAISING, and answers state and flag. SET_THRESHOLDS replaces the
channel's five items, thresholds at most 1,023 and hysteresis at most 63, is refused BAD_INDEX for a channel above 15
and BAD_VALUE for a presence byte above 1, and changes nothing else. Rests on:
spec/01_backplane_links_and_cabinet_frames.md: R18; spec/07_slot_lifecycle_and_power.md: R137;
spec/09_cabinet_monitor.md: R162; spec/10_alarms_notices_and_mailboxes.md: R165, R166, R167, R168, R170, R171;
spec/11_management_requests.md: R179; spec/12_frame_and_record_formats.md: R188. -/
def Obligations.PointsAndThresholdsAreSet : Prop :=
  ∀ (point enabled severity raise clear latched : Byte) (extra : BitVec 16) (channel : Byte) (cl wl wh ch : RawOptional)
    (hyst : Byte) (q : Request) (s : State),
    let set : Instr := .setAlarmPoint point enabled severity raise clear latched extra
    let ack : Instr := .ackAlarm point
    let thresholds : Instr := .setThresholds channel cl wl wh ch hyst
    let input (id : PointId) : Prop := 85 ≤ id.val ∧ id.val ≤ 88
    (92 < point.toNat → ∀ i ∈ [set, ack], Takes s i q → Refuses i s q .badIndex) ∧
    (∀ id : PointId, id.val = point.toNat →
      let p := s.point id
      (Takes s set q →
        (1 < enabled.toNat ∨ 3 < severity.toNat ∨ 1 < latched.toNat ∨ (input id ∧ 1 < extra.toNat) →
          Refuses set s q .badValue) ∧
        (enabled.toNat ≤ 1 → severity.toNat ≤ 3 → latched.toNat ≤ 1 → (input id → extra.toNat ≤ 1) →
          let new : Point := { p with
            enabled := enabled == 1
            severity := if severity = 0 then .critical else if severity = 1 then .major
              else if severity = 2 then .minor else .warning
            raisePers := if pointKind id = .sampled then some (max 1 raise.toNat) else p.raisePers
            clearPers := if pointKind id = .sampled then some (max 1 clear.toNat) else p.clearPers
            latched := latched == 1 || pointKind id == .event }
          let now : Point := if p.state = .held ∧ new.latched = false then
            { new with state := .clear, count := 0, acked := false, lastChange := s.time.sec } else new
          ∃ t : State, Answered set s q .ok (setPointResults t id) t ∧
            (¬ input id → t.point id = now) ∧
            (∀ n : Slot, id.val = 12 + n.val →
              t.port n = { s.port n with errorThreshold := max 1 extra.toNat, pauseAsserted := (t.port n).pauseAsserted
                                         transmission := (t.port n).transmission }) ∧
            (∀ i : Fin 4, id.val = 85 + i.val →
              t.input i = { s.input i with alarmWhenOpen := extra == 0 } ∧
              PointReported id ((s.input i).debouncedOpen == (extra == 0))
                { s with alarm := { s.alarm with points := s.alarm.points.write id now } } t) ∧
            (∀ j : PointId, j ≠ id → ¬ (id = rectifierPoint ∧ (j = overBudgetPoint ∨ j = powerWaitingPoint)) →
              (id ≠ rectifierPoint ∨ s.slots.waitingList = []) → t.point j = s.point j))) ∧
      (Takes s ack q → ∃ t : State,
        Answered ack s q .ok [(t.point id).state.code, if (t.point id).acked then 1 else 0] t ∧
          t.point id =
            (if p.state = .held then
              (if 0 < p.count then { p with state := .raising, acked := false, lastChange := s.time.sec }
                else { p with state := .clear, count := 0, acked := false, lastChange := s.time.sec })
            else if p.state = .active ∨ p.state = .clearing then { p with acked := true } else p) ∧
          (id = rectifierPoint → p.state = .held → t.slots.inForce = .mains))) ∧
    (Takes s thresholds q →
      let past : Prop := ∃ o ∈ [cl, wl, wh, ch], 1 < o.presence.toNat
      let value (o : RawOptional) : Option Nat := if o.presence = 1 then some (min 1023 o.value.toNat) else none
      (15 < channel.toNat → Refuses thresholds s q .badIndex) ∧
      (∀ c : Channel, c.val = channel.toNat →
        (past → Refuses thresholds s q .badValue) ∧
        (¬ past →
          let r : ChannelRecord := { s.mon.channel.read c with
            critLow := value cl, warnLow := value wl, warnHigh := value wh, critHigh := value ch
            hysteresis := min 63 hyst.toNat }
          Answered thresholds s q .ok r.bytes
            { s.taking with mon := { s.mon with channel := s.mon.channel.write c r } })))

/-- COMMIT_CALENDAR, SIDEBAND_READ and ALARM_WAIT wait as in-flight records, and READ_MAIL empties the mailbox. A
COMMIT_CALENDAR that passes every check (not armed, the cycle divides 10^9, every pending list in order, every enabled
SAMPLE flow fits) is not answered: it becomes an in-flight record, and the calendar is armed with the requester, the
tag and that record. SIDEBAND_READ is refused BAD_INDEX for a slot outside 1-12, then BAD_VALUE for a length outside
1-64, then WRONG_STATE for an EMPTY slot, then BUSY with two RAW entries queued; otherwise it is not answered: it
becomes an in-flight record and a RAW entry at the tail, whose transaction starts if none runs. ALARM_WAIT with
notices pending is answered with up to 8 of the oldest and the overflow mark, which is then cleared; with none pending
and fewer than 4 waits it becomes an in-flight record and a wait at the tail; and with 4 it is refused WAIT_LIMIT.
READ_MAIL of a slot 1-12 answers its message or absent (form: LOG 12) and empties the mailbox, and of any other is
refused BAD_INDEX. Nothing else changes. Rests on: spec/04_the_window_calendar_and_egress_selection.md: R67, R68, R77;
spec/08_card_identity_over_the_sideband.md: R142, R143, R150; spec/10_alarms_notices_and_mailboxes.md: R173, R174,
R176; spec/11_management_requests.md: R180; spec/12_frame_and_record_formats.md: 12.4. -/
def Obligations.RawReadsWaitsAndMail : Prop :=
  ∀ (slot offset length : Byte) (q : Request) (s : State),
    let read : Instr := .sidebandRead slot offset length
    let t := s.taking
    let record (kind : InFlightKind) : Agent := { t.agent with
      inflight := s.agent.inflight ++ [⟨s.agent.nextRecord, kind, q.requester, q.seq, requestTag q.payload⟩]
      nextRecord := s.agent.nextRecord + 1 }
    (slot.toNat = 0 ∨ 12 < slot.toNat →
      ∀ i ∈ [read, .readMail slot], Takes s i q → Refuses i s q .badIndex) ∧
    (∀ n : Slot, n.val + 1 = slot.toNat →
      (Takes s read q →
        (length.toNat = 0 ∨ 64 < length.toNat → Refuses read s q .badValue) ∧
        (1 ≤ length.toNat → length.toNat ≤ 64 →
          let raws := (s.side.queue.filter SidebandEntry.isRaw).length
          let entry : SidebandEntry :=
            .raw n offset.toNat length.toNat q.requester (requestTag q.payload) s.agent.nextRecord
          ((s.slot n).state = .empty → Refuses read s q .wrongState) ∧
          ((s.slot n).state ≠ .empty → 2 ≤ raws → Refuses read s q .busy) ∧
          ((s.slot n).state ≠ .empty → raws < 2 → exec read s = .next (startTransaction { t with
            agent := record .rawRead, side := { s.side with queue := s.side.queue ++ [entry] } })))) ∧
      (Takes s (.readMail slot) q → Answered (.readMail slot) s q .ok
        (match s.alarm.mailbox.read n with
          | some m => 1 :: m.bytes
          | none => [0, 0, 0, 0, 0, 0, 0, 0, 0, 0, 0])
        { t with alarm := { s.alarm with mailbox := s.alarm.mailbox.write n none } })) ∧
    (Takes s .alarmWait q →
      (s.alarm.notices ≠ [] →
        let first := s.alarm.notices.take 8
        Answered .alarmWait s q .ok
          (BitVec.ofNat 8 first.length :: (if s.alarm.overflow then 1 else 0) :: first.flatMap Notice.bytes)
          { t with alarm := { s.alarm with notices := s.alarm.notices.drop 8, overflow := false } }) ∧
      (s.alarm.notices = [] → s.alarm.waits.length < 4 → exec .alarmWait s = .next { t with
        agent := record .wait
        alarm := { s.alarm with
          waits := s.alarm.waits ++ [⟨q.requester, requestTag q.payload, s.agent.nextRecord⟩] } }) ∧
      (s.alarm.notices = [] → 4 ≤ s.alarm.waits.length → Refuses .alarmWait s q .waitLimit)) ∧
    (Takes s .commitCalendar q → s.cal.arming = none →
      let c := s.cal.pendingBank.cycle
      let list (p : Slot) : List Window := s.cal.pendingBank.windows.read p
      c ∣ 1000000000 → (∀ p : Slot, InOrder c (list p)) →
      (∀ (f : Fin 255) (r : FlowRecord) (p : Slot), (s.flow f).fields = some r → r.cls = .sample →
        ((s.flow f).state = .live ∨ (s.flow f).state = .suspended) → (s.slot p).state = .active →
        (r.dest = .slot p ∨ ∃ g : Fin 16, r.dest = .group g ∧ p ∈ s.groupMembers g ∧ p ≠ r.source) →
        list p ≠ [] ∧ ∃ w, (s.port p).reportedWidth = some w ∧ ∀ x ∈ list p, wireTime r.maxFrame w ≤ x.length) →
      exec .commitCalendar s = .next { t with
        agent := record .commit
        cal := { s.cal with arming := some ⟨q.requester, requestTag q.payload, s.agent.nextRecord⟩ } })

/-- SLOT_ADMIT, SLOT_DRAIN, SLOT_RETRY and PORT_RESET act by the slot state. Each is refused BAD_INDEX for a slot
outside 1-12. SLOT_ADMIT takes STANDBY to ACTIVE with admitted set, sets admitted alone in IDENTIFYING to LINKING, and
changes nothing in ACTIVE (OK) and elsewhere (WRONG_STATE); it answers state and flag. SLOT_DRAIN takes STANDBY and
ACTIVE to DRAINING with the drain timer while a frame is in transmission or stands in the queues (TIME_MARK frames
alone are left out), and to QUIESCED as a completed drain, before the answer is made (LOG 54), where the port has
nothing to send, no wait of its own that stays is completed and the head of the waiting list is blocked; it changes
nothing in DRAINING, and is otherwise refused WRONG_STATE. SLOT_RETRY takes FAULTED and QUIESCED with the latch CLOSED
to IDENTIFYING and is otherwise refused WRONG_STATE. PORT_RESET takes STANDBY and ACTIVE to LINKING with power, class,
identity, admitted and mailbox kept, the port in TRAINING at attempt 1, queues empty, pause and hold ended, and is
otherwise refused WRONG_STATE. A controller leaving ACTIVE loses its requests, and a slot leaving the up states its
responses. No other slot changes. Rests on: spec/01_backplane_links_and_cabinet_frames.md: R2;
spec/03_cell_buffer_and_egress_queues.md: R48, R57, R58; spec/07_slot_lifecycle_and_power.md: R121, R123, R126, R127,
R128, R129, R132, R133; spec/08_card_identity_over_the_sideband.md: R142; spec/10_alarms_notices_and_mailboxes.md:
R176; spec/11_management_requests.md: R181, R182. -/
def Obligations.SlotRequestsFollowTheState : Prop :=
  ∀ (slot : Byte) (q : Request) (s : State),
    let toAdmit : Instr := .slotAdmit slot
    let drain : Instr := .slotDrain slot
    let retry : Instr := .slotRetry slot
    let reset : Instr := .portReset slot
    (slot.toNat = 0 ∨ 12 < slot.toNat → ∀ i ∈ [toAdmit, drain, retry, reset], Takes s i q → Refuses i s q .badIndex) ∧
    (∀ n : Slot, n.val + 1 = slot.toNat →
      let r := s.slot n
      let up : Prop := r.state = .standby ∨ r.state = .active
      let lit := { r.lines with powerEnable := true, removeLamp := false }
      let becomes (new : SlotRecord) : SlotController := { s.slots with slot := s.slots.slot.write n new }
      let flag (b : Bool) : Byte := if b then 1 else 0
      (Takes s toAdmit q →
        (r.state = .standby → ∃ t : State, Answered toAdmit s q .ok [7, 1] t ∧
          t.slots = becomes { r with state := .active, admitted := true, lines := lit }) ∧
        (r.state = .identifying ∨ r.state = .waitingPower ∨ r.state = .powering ∨ r.state = .linking →
          Answered toAdmit s q .ok [r.state.code, 1] { s.taking with slots := becomes { r with admitted := true } }) ∧
        (r.state = .active → Answered toAdmit s q .ok [7, flag r.admitted] s.taking) ∧
        (r.state = .empty ∨ r.state = .inserted ∨ r.state = .draining ∨ r.state = .quiesced ∨ r.state = .faulted →
          Answered toAdmit s q .wrongState [r.state.code, flag r.admitted] s.taking)) ∧
      (Takes s drain q →
        (up → s.EgressStays n → ∃ t : State, Answered drain s q .ok [] t ∧
          t.slots = becomes { r with
            state := .draining, drainTimer := some (s.time.localTicks + s.slots.drainTimeout * 125000)
            lines := lit } ∧ AgentFollows n .draining s.taking t) ∧
        (up → (s.sq n).queues = ⟨[], [], [], []⟩ → (s.port n).transmission = none → s.NoWaitStays n →
          s.HeadBlocked s.slots.waitingList (s.slots.committed - s.classOf n) →
          ∃ t : State, Answered drain s q .ok [] t ∧
            t.slots = { becomes { r with
              state := .quiesced, pullGuard := false, softStart := none, drainTimer := none, width := (t.slot n).width
              lines := { r.lines with powerEnable := false, removeLamp := true }
              counters := { r.counters with drainsCompleted := oneMore r.counters.drainsCompleted } } with
              committed := s.slots.committed - s.classOf n } ∧
            (t.port n).link = .down ∧ (t.port n).reportedWidth = none ∧ AgentFollows n .quiesced s.taking t) ∧
        (r.state = .draining → Answered drain s q .ok [] s.taking) ∧
        (¬ up → r.state ≠ .draining → Refuses drain s q .wrongState)) ∧
      (Takes s retry q →
        ((r.state = .faulted ∨ r.state = .quiesced) → r.closed = true →
          ∃ t : State, Answered retry s q .ok [2] t ∧
            t.slots = becomes { r with
              state := .identifying, identity := none, powerClass := none, admitted := false, fault := none
              failureKind := none, pullGuard := false
              lines := { r.lines with powerEnable := false, removeLamp := false } } ∧
            t.side.queue = s.side.queue ++ [.identify n 1]) ∧
        (r.closed = false ∨ (r.state ≠ .faulted ∧ r.state ≠ .quiesced) → Refuses retry s q .wrongState)) ∧
      (Takes s reset q →
        (up → ∃ t : State, Answered reset s q .ok [5] t ∧
          t.slots = becomes { r with
            state := .linking, softStart := none, width := (t.slot n).width, lines := lit } ∧
          (t.port n).link = .training ∧ (t.port n).attempt = 1 ∧ (t.port n).transmission = none ∧
          (t.port n).assembly = none ∧ (t.port n).reportedWidth = none ∧ (t.port n).pauseAsserted = false ∧
          (t.sq n).queues = ⟨[], [], [], []⟩ ∧ (t.sq n).paused = false ∧ (t.sq n).hold = .none ∧
          (t.sq n).holdTimer = none ∧ (t.sq n).stallCount = 0 ∧
          t.alarm.mailbox.read n = s.alarm.mailbox.read n ∧ AgentFollows n .linking s.taking t) ∧
        (¬ up → Refuses reset s q .wrongState)))

/-- HUB_RESET empties what the blocks hold and keeps their settings, and CLEAR_COUNTERS clears the counters.
CLEAR_COUNTERS sets the statistics counters of every block to 0, the raise counts included, changes nothing else (the
error counts stay), and is answered OK. HUB_RESET, with no slot draining and a GOOD lane left at each port in TRAINING
or TESTING: every queue is flushed, pauses, holds and stall counts end, assemblies go, card hold is OFF, the error
window is cleared, the reserve waiting list, waits, notices, acknowledgements and RAW entries go with the overflow
mark set, the arming is cancelled, outstanding probes go, and the statistics counters of every block are 0: those of
the links, queues, slots, delay unit and sideband for each slot, the drop counters and frames to hub, the default
path's, the flows', the tracker's, the monitor's and the alarm unit's with the raise counts; a port in TRAINING or
TESTING enters TRAINING at attempt 1 without TEST frames and its deadline anew; a running sideband transaction is
aborted (LOG 17), and where it has ended or none ran the head of the queue starts. Slots, other links, transmissions,
flow fields, groups, the banks, client marks, delay windows and records, asymmetries, the settings of every block,
last attempts and hub time stay. Then each in-flight record and each queued request is answered RESET, the agent's
counters are 0, and HUB_RESET is answered OK. Rests on: spec/01_backplane_links_and_cabinet_frames.md: R20;
spec/03_cell_buffer_and_egress_queues.md: R59; spec/04_the_window_calendar_and_egress_selection.md: R71;
spec/06_slot_delay_and_time_marks.md: R107; spec/07_slot_lifecycle_and_power.md: R140;
spec/08_card_identity_over_the_sideband.md: R152; spec/09_cabinet_monitor.md: R163;
spec/10_alarms_notices_and_mailboxes.md: R174, R175; spec/11_management_requests.md: R183, R185;
spec/02_flows_and_forwarding.md: R35. -/
def Obligations.ResetAndClearEmptyTheirState : Prop :=
  ∀ (q : Request) (s : State),
    (Takes s .clearCounters q → ∃ t : State, Answered .clearCounters s q .ok [] t ∧
      (∀ n : Slot, t.port n = { s.port n with counters := ⟨0, 0, 0, 0⟩ } ∧
        t.sq n = { s.sq n with egress := ⟨0, 0, 0, 0, 0⟩ } ∧
        t.slot n = { s.slot n with counters := ⟨0, 0, 0, 0, 0, 0⟩ } ∧
        t.slotDelay n = { s.slotDelay n with counters := ⟨0, 0, 0, 0, 0, 0, 0, 0, 0, 0, 0, 0⟩ } ∧
        t.side.counters.read n = ⟨0, 0, 0⟩ ∧ t.fwd.drops.read n = ⟨#v[0, 0, 0, 0, 0, 0, 0, 0, 0], 0⟩) ∧
      (∀ f : Fin 255, t.flow f = { s.flow f with forwarded := 0, dropped := 0 }) ∧
      (∀ id : PointId, t.point id = { s.point id with raiseCount := 0 }) ∧
      t.fwd = { s.fwd with
        flows := t.fwd.flows, drops := t.fwd.drops, defaultForwarded := 0, defaultDropped := 0 } ∧
      t.qm = { s.qm with slot := t.qm.slot } ∧ t.delay = { s.delay with slot := t.delay.slot } ∧
      t.slots = { s.slots with slot := t.slots.slot } ∧ t.side = { s.side with counters := t.side.counters } ∧
      t.trk = { s.trk with counters := ⟨⟨0, 0, 0, 0⟩, ⟨0, 0, 0, 0⟩, 0, 0⟩ } ∧
      t.mon = { s.mon with counters := ⟨0, 0, 0, 0⟩ } ∧
      t.alarm = { s.alarm with points := t.alarm.points, counters := ⟨0, 0, 0, 0, 0⟩ } ∧
      t.agent = { s.taking.agent with counters := ⟨0, 0, 0, 0, 0⟩ } ∧
      OnlyChanges [.ports, .fwd, .qm, .trk, .delay, .slots, .side, .mon, .alarm, .agent, .out] s t) ∧
    (Takes s .hubReset q → s.NoneDraining →
      let starting (p : Slot) : Prop := (s.port p).link = .training ∨ (s.port p).link = .testing
      (∀ p : Slot, starting p → ∃ l : Lane, (s.port p).laneGood.read l = true) →
      ∃ v : State,
        (∀ n : Slot, v.sq n = ⟨⟨[], [], [], []⟩, false, .none, none, 0, ⟨0, 0, 0, 0, 0⟩⟩ ∧
          ((s.sq n).paused = (s.port n).pauseAsserted → (v.port n).pauseAsserted = false) ∧
          (let cleared : Port := { s.port n with
              assembly := none, cardHold := false, errorCount := 0, lastErrorCount := 0, stallSeen := false
              pauseAsserted := (v.port n).pauseAsserted, counters := ⟨0, 0, 0, 0⟩ };
            (¬ starting n → v.port n = cleared) ∧
            (starting n → v.port n = { cleared with
              link := .training, attempt := 1, trained := [], workingWidth := none, lanesInUse := []
              trainingDeadline := some (s.time.localTicks + 250000), testDeadline := none, testUnsent := []
              testNext := 16 })) ∧
          v.slot n = { s.slot n with counters := ⟨0, 0, 0, 0, 0, 0⟩ } ∧
          v.slotDelay n = { s.slotDelay n with
            outstanding := none, counters := ⟨0, 0, 0, 0, 0, 0, 0, 0, 0, 0, 0, 0⟩ } ∧
          v.side.counters.read n = ⟨0, 0, 0⟩ ∧ v.fwd.drops.read n = ⟨#v[0, 0, 0, 0, 0, 0, 0, 0, 0], 0⟩) ∧
        v.qm.waiting = [] ∧ v.qm.exhaustion = false ∧ v.cal = { s.cal with arming := none } ∧ v.time = s.time ∧
        v.qcfg = s.qcfg ∧ v.trk = { s.trk with counters := ⟨⟨0, 0, 0, 0⟩, ⟨0, 0, 0, 0⟩, 0, 0⟩ } ∧
        v.delay = { s.delay with slot := v.delay.slot } ∧
        (∀ f : Fin 255, v.flow f = { s.flow f with forwarded := 0, dropped := 0 }) ∧
        v.fwd = { s.fwd with
          flows := v.fwd.flows, drops := v.fwd.drops, defaultForwarded := 0, defaultDropped := 0 } ∧
        v.alarm = { s.alarm with
          points := v.alarm.points, waits := [], notices := [], overflow := true, acks := []
          counters := ⟨0, 0, 0, 0, 0⟩ } ∧
        (∀ id : PointId, v.point id = { s.point id with raiseCount := 0 }) ∧
        (let kept : List SidebandEntry := s.side.queue.filter fun e => !e.isRaw
          let head : Option Transaction := kept.head?.map fun _ =>
            ⟨.select, [], ⟨.notReached, .notReached, .notReached⟩, s.time.localTicks, none, false, false⟩;
          v.side.queue = kept ∧ v.side.lastAttempt = s.side.lastAttempt ∧
          (∀ x : Transaction, s.side.current = some x → x.phase ≠ .select → x.held = none →
            v.side.current = some { x with aborting := true } ∧ v.side.selector = s.side.selector) ∧
          ((∃ x : Transaction, s.side.current = some x ∧ (x.phase = .select ∨ x.held ≠ none)) ∨
              (s.side.current = none ∧ s.side.selector = none) →
            v.side.current = head ∧ v.side.selector = kept.head?.map SidebandEntry.slot)) ∧
        v.mon = { s.mon with counters := ⟨0, 0, 0, 0⟩ } ∧
        v.slots = { s.slots with slot := v.slots.slot } ∧
        v.agent = { s.taking.agent with responses := [], counters := v.agent.counters } ∧
        let ended := forEach (v.agent.inflight.map InFlight.record) (fun r => complete r .reset []) v
        let emptied : State := { ended with agent := { ended.agent with queue := [] } }
        let resets := forEach ended.agent.queue (fun r => answer .taken r .reset []) emptied
        Answered .hubReset s q .ok []
          { resets with agent := { resets.agent with counters := ⟨0, 0, 0, 0, 0⟩ } })
end

