-- ==== Sys2Proof/Laws/Bytes.lean ====
section
/-! SUPPORT. The fields of requests and payloads and their bytes undo one another. -/

namespace Sys2Proof

open Machine (be16 be32 beBytes)

/-! ### 16 and 32 bits -/

/-- A 16-bit field as its two bytes. -/
theorem bytes16_eq (v : BitVec 16) :
    bytes16 v = [BitVec.ofNat 8 (v.toNat / 256), v.setWidth 8] := by
  simp [bytes16, beBytes]

/-- A 32-bit field as its four bytes. -/
theorem bytes32_eq (v : BitVec 32) :
    bytes32 v = [BitVec.ofNat 8 (v.toNat / 16777216), BitVec.ofNat 8 (v.toNat / 65536),
      BitVec.ofNat 8 (v.toNat / 256), v.setWidth 8] := by
  simp [bytes32, beBytes]

@[simp] theorem be16_bytes (v : BitVec 16) : be16 (BitVec.ofNat 8 (v.toNat / 256)) (v.setWidth 8) = v := by
  have := v.isLt
  apply BitVec.eq_of_toNat_eq
  simp [be16]
  omega

@[simp] theorem be32_bytes (v : BitVec 32) :
    be32 (BitVec.ofNat 8 (v.toNat / 16777216)) (BitVec.ofNat 8 (v.toNat / 65536)) (BitVec.ofNat 8 (v.toNat / 256))
      (v.setWidth 8) = v := by
  have := v.isLt
  apply BitVec.eq_of_toNat_eq
  simp [be32]
  omega

@[simp] theorem bytes16_be16 (a b : Byte) : bytes16 (be16 a b) = [a, b] := by
  have ha := a.isLt
  have hb := b.isLt
  simp only [bytes16, be16, beBytes, BitVec.toNat_ofNat, List.cons.injEq, and_true]
  refine ⟨?_, ?_⟩ <;> apply BitVec.eq_of_toNat_eq <;> simp <;> omega

@[simp] theorem bytes32_be32 (a b c d : Byte) : bytes32 (be32 a b c d) = [a, b, c, d] := by
  have ha := a.isLt
  have hb := b.isLt
  have hc := c.isLt
  have hd := d.isLt
  simp only [bytes32, be32, beBytes, BitVec.toNat_ofNat, List.cons.injEq, and_true]
  refine ⟨?_, ?_, ?_, ?_⟩ <;> apply BitVec.eq_of_toNat_eq <;> simp <;> omega

/-! ### Fields of a payload -/

/-- The bytes of a field are read back from its value, which they begin at no more than their own (R186). -/
theorem beBytes_foldl (xs : List Byte) (acc : Nat) :
    let v := xs.foldl (fun a b => a * 256 + b.toNat) acc
    beBytes xs.length v = xs ∧ v / 256 ^ xs.length = acc := by
  induction xs generalizing acc with
  | nil => simp [beBytes]
  | cons b xs ih =>
    have hb := b.isLt
    obtain ⟨same, start⟩ := ih (acc * 256 + b.toNat)
    refine ⟨?_, ?_⟩
    · simp only [List.length_cons, List.foldl_cons, beBytes, start, same, List.cons.injEq, and_true]
      apply BitVec.eq_of_toNat_eq
      simp
      omega
    · simp only [List.length_cons, List.foldl_cons, pow_succ, ← Nat.div_div_eq_div_mul, start]
      omega

/-- A field that lies inside a payload, sent again, is the bytes it was read from (R186). -/
theorem beBytes_payloadField {bytes : List Byte} {i k : Nat} (h : i + k ≤ bytes.length) :
    beBytes k (payloadField bytes i k) = (bytes.drop i).take k := by
  have inside : ((bytes.drop i).take k).length = k := by
    simp
    omega
  have same := (beBytes_foldl ((bytes.drop i).take k) 0).1
  rwa [inside] at same

/-! ### Counted lists -/

/-- A count of at most 255 is read back from its byte. -/
theorem toNat_length8 {α : Type} {xs : List α} (h : xs.length ≤ 255) :
    (BitVec.ofNat 8 xs.length).toNat = xs.length := by
  simp
  omega

/-- The windows of WRITE_WINDOWS are read back from their bytes. -/
theorem decodeWindows_bytes (ws : List RawWindow) : decodeWindows ws.length (bytesWindows ws) = some ws := by
  induction ws with
  | nil => rfl
  | cons w ws ih => simp [bytesWindows, bytes32_eq, decodeWindows, ih]

/-- Bytes that decode to windows are the bytes of those windows, and as many as the count says. -/
theorem decodeWindows_some {n : Nat} {bytes : List Byte} {ws : List RawWindow} (h : decodeWindows n bytes = some ws) :
    ws.length = n ∧ bytesWindows ws = bytes := by
  fun_induction decodeWindows n bytes generalizing ws
  · cases h
    exact ⟨rfl, rfl⟩
  · rename_i ih
    simp only [Option.map_eq_some_iff] at h
    obtain ⟨w, hw, rfl⟩ := h
    simp [bytesWindows, ih hw]
  · cases h

/-! ### Requests -/

/-- The parts of a payload: its code, its tag and its arguments. -/
theorem decodeRequest_payload (group code : Byte) (tag : BitVec 16) (args : List Byte) :
    decodeRequest group (code :: (bytes16 tag ++ args)) = decodeArguments group code.toNat args := rfl

/-- The arguments of a request other than WRITE_GROUP decode to the same command for every group. -/
theorem decodeArguments_of_ne {code : Nat} (h : code ≠ 0x11) (g : Byte) (args : List Byte) :
    decodeArguments g code args = decodeOthers code args := if_neg h

/-- The arguments of a WRITE_GROUP decode again to the command they decode to, with the group it names. -/
theorem decodeWriteGroup_again (g : Byte) (args : List Byte) :
    decodeWriteGroup (decodeWriteGroup g args).groupWritten args = decodeWriteGroup g args := by
  cases args with
  | nil => rfl
  | cons n members => simp only [decodeWriteGroup]; split <;> rfl

/-- A payload carries the command that it decodes to, whatever group a WRITE_GROUP names. -/
theorem carries_decodeRequest (g : Byte) (payload : List Byte) :
    carries payload (decodeRequest g payload) = true := by
  refine decide_eq_true ?_
  match payload with
  | [] | [_] | [_, _] => rfl
  | code :: _ :: _ :: args =>
    simp only [decodeRequest]
    by_cases h : code.toNat = 0x11
    · simpa only [decodeArguments, h, if_true] using decodeWriteGroup_again g args
    · simp only [decodeArguments_of_ne h]

theorem requestTag_payload (code : Byte) (tag : BitVec 16) (args : List Byte) :
    requestTag (code :: (bytes16 tag ++ args)) = tag := by
  simp [bytes16_eq, requestTag]

end Sys2Proof
end

