-- ==== Sys2Proof/Laws/Tables.lean ====
section
/-! SUPPORT. The laws of tables: what is read after a write, and that a table is what it reads as. -/

namespace Sys2Proof.Machine

variable {n : Nat} {α β : Type}

/-- Two tables that read alike at every index are equal. -/
theorem Table.ext_read {t u : Table n α} (h : ∀ i, t.read i = u.read i) : t = u := by
  apply Vector.ext
  intro i hi
  exact h ⟨i, hi⟩

@[simp] theorem Table.read_write_same (t : Table n α) (i : Fin n) (a : α) : (t.write i a).read i = a := by
  simp [Table.read, Table.write]

theorem Table.read_write_ne (t : Table n α) (a : α) {i j : Fin n} (h : j ≠ i) : (t.write i a).read j = t.read j := by
  have h' : i.val ≠ j.val := fun e => h (Fin.ext e.symm)
  simp [Table.read, Table.write, h']

/-- What a table reads as after a write. -/
theorem Table.read_write (t : Table n α) (i j : Fin n) (a : α) :
    (t.write i a).read j = if j = i then a else t.read j := by
  split
  · next h => subst h; exact t.read_write_same j a
  · next h => exact t.read_write_ne a h

@[simp] theorem Table.read_update_same (t : Table n α) (i : Fin n) (f : α → α) :
    (t.update i f).read i = f (t.read i) := t.read_write_same i _

theorem Table.read_update_ne (t : Table n α) (f : α → α) {i j : Fin n} (h : j ≠ i) :
    (t.update i f).read j = t.read j := t.read_write_ne _ h

@[simp] theorem Table.read_fill (a : α) (i : Fin n) : (Table.fill a : Table n α).read i = a := by
  simp [Table.read, Table.fill]

@[simp] theorem Table.read_mapAll (t : Table n α) (f : α → β) (i : Fin n) : (t.mapAll f).read i = f (t.read i) := by
  simp [Table.read, Table.mapAll, Vector.toList]

@[simp] theorem Table.read_build (f : Fin n → α) (i : Fin n) : (Table.build f).read i = f i := by
  simp [Table.read, Table.build]

/-- Writing what a table already reads as changes nothing. -/
@[simp] theorem Table.write_read (t : Table n α) (i : Fin n) : t.write i (t.read i) = t :=
  Table.ext_read fun j => by
    rw [Table.read_write]; split
    · next h => rw [h]
    · rfl

/-- The last of two writes at one index stands. -/
@[simp] theorem Table.write_write (t : Table n α) (i : Fin n) (a b : α) : (t.write i a).write i b = t.write i b :=
  Table.ext_read fun j => by
    rw [Table.read_write, Table.read_write, Table.read_write]; split <;> rfl

end Sys2Proof.Machine
end

