-- ==== Sys2Proof/Laws/State.lean ====
section
/-! SUPPORT. What each named update of the state does to each part of it, field by field, so that no proof unfolds a
record update. -/

namespace Sys2Proof.Machine

variable (s : State)

/-! ### `updPort` -/

@[simp] theorem State.updPort_pending (p : Slot) (f : Port → Port) : (s.updPort p f).pending = s.pending := rfl
@[simp] theorem State.updPort_fwd (p : Slot) (f : Port → Port) : (s.updPort p f).fwd = s.fwd := rfl
@[simp] theorem State.updPort_qcfg (p : Slot) (f : Port → Port) : (s.updPort p f).qcfg = s.qcfg := rfl
@[simp] theorem State.updPort_qm (p : Slot) (f : Port → Port) : (s.updPort p f).qm = s.qm := rfl
@[simp] theorem State.updPort_cal (p : Slot) (f : Port → Port) : (s.updPort p f).cal = s.cal := rfl
@[simp] theorem State.updPort_time (p : Slot) (f : Port → Port) : (s.updPort p f).time = s.time := rfl
@[simp] theorem State.updPort_trk (p : Slot) (f : Port → Port) : (s.updPort p f).trk = s.trk := rfl
@[simp] theorem State.updPort_delay (p : Slot) (f : Port → Port) : (s.updPort p f).delay = s.delay := rfl
@[simp] theorem State.updPort_slots (p : Slot) (f : Port → Port) : (s.updPort p f).slots = s.slots := rfl
@[simp] theorem State.updPort_side (p : Slot) (f : Port → Port) : (s.updPort p f).side = s.side := rfl
@[simp] theorem State.updPort_mon (p : Slot) (f : Port → Port) : (s.updPort p f).mon = s.mon := rfl
@[simp] theorem State.updPort_alarm (p : Slot) (f : Port → Port) : (s.updPort p f).alarm = s.alarm := rfl
@[simp] theorem State.updPort_agent (p : Slot) (f : Port → Port) : (s.updPort p f).agent = s.agent := rfl
@[simp] theorem State.updPort_out (p : Slot) (f : Port → Port) : (s.updPort p f).out = s.out := rfl
@[simp] theorem State.updPort_free (p : Slot) (f : Port → Port) : (s.updPort p f).free = s.free := rfl
@[simp] theorem State.updPort_ports (p : Slot) (f : Port → Port) : (s.updPort p f).ports = s.ports.update p f := rfl

@[simp] theorem State.sq_updPort (p : Slot) (f : Port → Port) (j : Slot) : (s.updPort p f).sq j = s.sq j := rfl
@[simp] theorem State.queueConfig_updPort (p : Slot) (f : Port → Port) (j : Slot) : (s.updPort p f).queueConfig j = s.queueConfig j := rfl
@[simp] theorem State.flow_updPort (p : Slot) (f : Port → Port) (j : Fin 255) : (s.updPort p f).flow j = s.flow j := rfl
@[simp] theorem State.source_updPort (p : Slot) (f : Port → Port) (j : Source) : (s.updPort p f).source j = s.source j := rfl
@[simp] theorem State.slotDelay_updPort (p : Slot) (f : Port → Port) (j : Slot) : (s.updPort p f).slotDelay j = s.slotDelay j := rfl
@[simp] theorem State.slot_updPort (p : Slot) (f : Port → Port) (j : Slot) : (s.updPort p f).slot j = s.slot j := rfl
@[simp] theorem State.channel_updPort (p : Slot) (f : Port → Port) (j : Channel) : (s.updPort p f).channel j = s.channel j := rfl
@[simp] theorem State.point_updPort (p : Slot) (f : Port → Port) (j : PointId) : (s.updPort p f).point j = s.point j := rfl
@[simp] theorem State.input_updPort (p : Slot) (f : Port → Port) (j : Fin 4) : (s.updPort p f).input j = s.input j := rfl

@[simp] theorem State.port_updPort_same (p : Slot) (f : Port → Port) : (s.updPort p f).port p = f (s.port p) := Table.read_update_same _ _ _
theorem State.port_updPort_ne (p : Slot) (f : Port → Port) {j : Slot} (h : j ≠ p) : (s.updPort p f).port j = s.port j := Table.read_update_ne _ _ h

/-! ### `updSq` -/

@[simp] theorem State.updSq_pending (p : Slot) (f : SlotQueues → SlotQueues) : (s.updSq p f).pending = s.pending := rfl
@[simp] theorem State.updSq_ports (p : Slot) (f : SlotQueues → SlotQueues) : (s.updSq p f).ports = s.ports := rfl
@[simp] theorem State.updSq_fwd (p : Slot) (f : SlotQueues → SlotQueues) : (s.updSq p f).fwd = s.fwd := rfl
@[simp] theorem State.updSq_qcfg (p : Slot) (f : SlotQueues → SlotQueues) : (s.updSq p f).qcfg = s.qcfg := rfl
@[simp] theorem State.updSq_cal (p : Slot) (f : SlotQueues → SlotQueues) : (s.updSq p f).cal = s.cal := rfl
@[simp] theorem State.updSq_time (p : Slot) (f : SlotQueues → SlotQueues) : (s.updSq p f).time = s.time := rfl
@[simp] theorem State.updSq_trk (p : Slot) (f : SlotQueues → SlotQueues) : (s.updSq p f).trk = s.trk := rfl
@[simp] theorem State.updSq_delay (p : Slot) (f : SlotQueues → SlotQueues) : (s.updSq p f).delay = s.delay := rfl
@[simp] theorem State.updSq_slots (p : Slot) (f : SlotQueues → SlotQueues) : (s.updSq p f).slots = s.slots := rfl
@[simp] theorem State.updSq_side (p : Slot) (f : SlotQueues → SlotQueues) : (s.updSq p f).side = s.side := rfl
@[simp] theorem State.updSq_mon (p : Slot) (f : SlotQueues → SlotQueues) : (s.updSq p f).mon = s.mon := rfl
@[simp] theorem State.updSq_alarm (p : Slot) (f : SlotQueues → SlotQueues) : (s.updSq p f).alarm = s.alarm := rfl
@[simp] theorem State.updSq_agent (p : Slot) (f : SlotQueues → SlotQueues) : (s.updSq p f).agent = s.agent := rfl
@[simp] theorem State.updSq_out (p : Slot) (f : SlotQueues → SlotQueues) : (s.updSq p f).out = s.out := rfl
@[simp] theorem State.updSq_free (p : Slot) (f : SlotQueues → SlotQueues) : (s.updSq p f).free = s.free := rfl
@[simp] theorem State.updSq_qm (p : Slot) (f : SlotQueues → SlotQueues) : (s.updSq p f).qm = { s.qm with slot := s.qm.slot.update p f } := rfl

@[simp] theorem State.port_updSq (p : Slot) (f : SlotQueues → SlotQueues) (j : Slot) : (s.updSq p f).port j = s.port j := rfl
@[simp] theorem State.queueConfig_updSq (p : Slot) (f : SlotQueues → SlotQueues) (j : Slot) : (s.updSq p f).queueConfig j = s.queueConfig j := rfl
@[simp] theorem State.flow_updSq (p : Slot) (f : SlotQueues → SlotQueues) (j : Fin 255) : (s.updSq p f).flow j = s.flow j := rfl
@[simp] theorem State.source_updSq (p : Slot) (f : SlotQueues → SlotQueues) (j : Source) : (s.updSq p f).source j = s.source j := rfl
@[simp] theorem State.slotDelay_updSq (p : Slot) (f : SlotQueues → SlotQueues) (j : Slot) : (s.updSq p f).slotDelay j = s.slotDelay j := rfl
@[simp] theorem State.slot_updSq (p : Slot) (f : SlotQueues → SlotQueues) (j : Slot) : (s.updSq p f).slot j = s.slot j := rfl
@[simp] theorem State.channel_updSq (p : Slot) (f : SlotQueues → SlotQueues) (j : Channel) : (s.updSq p f).channel j = s.channel j := rfl
@[simp] theorem State.point_updSq (p : Slot) (f : SlotQueues → SlotQueues) (j : PointId) : (s.updSq p f).point j = s.point j := rfl
@[simp] theorem State.input_updSq (p : Slot) (f : SlotQueues → SlotQueues) (j : Fin 4) : (s.updSq p f).input j = s.input j := rfl

@[simp] theorem State.sq_updSq_same (p : Slot) (f : SlotQueues → SlotQueues) : (s.updSq p f).sq p = f (s.sq p) := Table.read_update_same _ _ _
theorem State.sq_updSq_ne (p : Slot) (f : SlotQueues → SlotQueues) {j : Slot} (h : j ≠ p) : (s.updSq p f).sq j = s.sq j := Table.read_update_ne _ _ h

/-! ### `updQueueConfig` -/

@[simp] theorem State.updQueueConfig_pending (n : Slot) (f : QueueConfig → QueueConfig) : (s.updQueueConfig n f).pending = s.pending := rfl
@[simp] theorem State.updQueueConfig_ports (n : Slot) (f : QueueConfig → QueueConfig) : (s.updQueueConfig n f).ports = s.ports := rfl
@[simp] theorem State.updQueueConfig_fwd (n : Slot) (f : QueueConfig → QueueConfig) : (s.updQueueConfig n f).fwd = s.fwd := rfl
@[simp] theorem State.updQueueConfig_qm (n : Slot) (f : QueueConfig → QueueConfig) : (s.updQueueConfig n f).qm = s.qm := rfl
@[simp] theorem State.updQueueConfig_cal (n : Slot) (f : QueueConfig → QueueConfig) : (s.updQueueConfig n f).cal = s.cal := rfl
@[simp] theorem State.updQueueConfig_time (n : Slot) (f : QueueConfig → QueueConfig) : (s.updQueueConfig n f).time = s.time := rfl
@[simp] theorem State.updQueueConfig_trk (n : Slot) (f : QueueConfig → QueueConfig) : (s.updQueueConfig n f).trk = s.trk := rfl
@[simp] theorem State.updQueueConfig_delay (n : Slot) (f : QueueConfig → QueueConfig) : (s.updQueueConfig n f).delay = s.delay := rfl
@[simp] theorem State.updQueueConfig_slots (n : Slot) (f : QueueConfig → QueueConfig) : (s.updQueueConfig n f).slots = s.slots := rfl
@[simp] theorem State.updQueueConfig_side (n : Slot) (f : QueueConfig → QueueConfig) : (s.updQueueConfig n f).side = s.side := rfl
@[simp] theorem State.updQueueConfig_mon (n : Slot) (f : QueueConfig → QueueConfig) : (s.updQueueConfig n f).mon = s.mon := rfl
@[simp] theorem State.updQueueConfig_alarm (n : Slot) (f : QueueConfig → QueueConfig) : (s.updQueueConfig n f).alarm = s.alarm := rfl
@[simp] theorem State.updQueueConfig_agent (n : Slot) (f : QueueConfig → QueueConfig) : (s.updQueueConfig n f).agent = s.agent := rfl
@[simp] theorem State.updQueueConfig_out (n : Slot) (f : QueueConfig → QueueConfig) : (s.updQueueConfig n f).out = s.out := rfl
@[simp] theorem State.updQueueConfig_free (n : Slot) (f : QueueConfig → QueueConfig) : (s.updQueueConfig n f).free = s.free := rfl
@[simp] theorem State.updQueueConfig_qcfg (n : Slot) (f : QueueConfig → QueueConfig) : (s.updQueueConfig n f).qcfg = s.qcfg.update n f := rfl

@[simp] theorem State.port_updQueueConfig (n : Slot) (f : QueueConfig → QueueConfig) (j : Slot) : (s.updQueueConfig n f).port j = s.port j := rfl
@[simp] theorem State.sq_updQueueConfig (n : Slot) (f : QueueConfig → QueueConfig) (j : Slot) : (s.updQueueConfig n f).sq j = s.sq j := rfl
@[simp] theorem State.flow_updQueueConfig (n : Slot) (f : QueueConfig → QueueConfig) (j : Fin 255) : (s.updQueueConfig n f).flow j = s.flow j := rfl
@[simp] theorem State.source_updQueueConfig (n : Slot) (f : QueueConfig → QueueConfig) (j : Source) : (s.updQueueConfig n f).source j = s.source j := rfl
@[simp] theorem State.slotDelay_updQueueConfig (n : Slot) (f : QueueConfig → QueueConfig) (j : Slot) : (s.updQueueConfig n f).slotDelay j = s.slotDelay j := rfl
@[simp] theorem State.slot_updQueueConfig (n : Slot) (f : QueueConfig → QueueConfig) (j : Slot) : (s.updQueueConfig n f).slot j = s.slot j := rfl
@[simp] theorem State.channel_updQueueConfig (n : Slot) (f : QueueConfig → QueueConfig) (j : Channel) : (s.updQueueConfig n f).channel j = s.channel j := rfl
@[simp] theorem State.point_updQueueConfig (n : Slot) (f : QueueConfig → QueueConfig) (j : PointId) : (s.updQueueConfig n f).point j = s.point j := rfl
@[simp] theorem State.input_updQueueConfig (n : Slot) (f : QueueConfig → QueueConfig) (j : Fin 4) : (s.updQueueConfig n f).input j = s.input j := rfl

@[simp] theorem State.queueConfig_updQueueConfig_same (n : Slot) (f : QueueConfig → QueueConfig) : (s.updQueueConfig n f).queueConfig n = f (s.queueConfig n) := Table.read_update_same _ _ _
theorem State.queueConfig_updQueueConfig_ne (n : Slot) (f : QueueConfig → QueueConfig) {j : Slot} (h : j ≠ n) : (s.updQueueConfig n f).queueConfig j = s.queueConfig j := Table.read_update_ne _ _ h

/-! ### `updFlow` -/

@[simp] theorem State.updFlow_pending (i : Fin 255) (f : Flow → Flow) : (s.updFlow i f).pending = s.pending := rfl
@[simp] theorem State.updFlow_ports (i : Fin 255) (f : Flow → Flow) : (s.updFlow i f).ports = s.ports := rfl
@[simp] theorem State.updFlow_qcfg (i : Fin 255) (f : Flow → Flow) : (s.updFlow i f).qcfg = s.qcfg := rfl
@[simp] theorem State.updFlow_qm (i : Fin 255) (f : Flow → Flow) : (s.updFlow i f).qm = s.qm := rfl
@[simp] theorem State.updFlow_cal (i : Fin 255) (f : Flow → Flow) : (s.updFlow i f).cal = s.cal := rfl
@[simp] theorem State.updFlow_time (i : Fin 255) (f : Flow → Flow) : (s.updFlow i f).time = s.time := rfl
@[simp] theorem State.updFlow_trk (i : Fin 255) (f : Flow → Flow) : (s.updFlow i f).trk = s.trk := rfl
@[simp] theorem State.updFlow_delay (i : Fin 255) (f : Flow → Flow) : (s.updFlow i f).delay = s.delay := rfl
@[simp] theorem State.updFlow_slots (i : Fin 255) (f : Flow → Flow) : (s.updFlow i f).slots = s.slots := rfl
@[simp] theorem State.updFlow_side (i : Fin 255) (f : Flow → Flow) : (s.updFlow i f).side = s.side := rfl
@[simp] theorem State.updFlow_mon (i : Fin 255) (f : Flow → Flow) : (s.updFlow i f).mon = s.mon := rfl
@[simp] theorem State.updFlow_alarm (i : Fin 255) (f : Flow → Flow) : (s.updFlow i f).alarm = s.alarm := rfl
@[simp] theorem State.updFlow_agent (i : Fin 255) (f : Flow → Flow) : (s.updFlow i f).agent = s.agent := rfl
@[simp] theorem State.updFlow_out (i : Fin 255) (f : Flow → Flow) : (s.updFlow i f).out = s.out := rfl
@[simp] theorem State.updFlow_free (i : Fin 255) (f : Flow → Flow) : (s.updFlow i f).free = s.free := rfl
@[simp] theorem State.updFlow_fwd (i : Fin 255) (f : Flow → Flow) : (s.updFlow i f).fwd = { s.fwd with flows := s.fwd.flows.update i f } := rfl

@[simp] theorem State.port_updFlow (i : Fin 255) (f : Flow → Flow) (j : Slot) : (s.updFlow i f).port j = s.port j := rfl
@[simp] theorem State.sq_updFlow (i : Fin 255) (f : Flow → Flow) (j : Slot) : (s.updFlow i f).sq j = s.sq j := rfl
@[simp] theorem State.queueConfig_updFlow (i : Fin 255) (f : Flow → Flow) (j : Slot) : (s.updFlow i f).queueConfig j = s.queueConfig j := rfl
@[simp] theorem State.source_updFlow (i : Fin 255) (f : Flow → Flow) (j : Source) : (s.updFlow i f).source j = s.source j := rfl
@[simp] theorem State.slotDelay_updFlow (i : Fin 255) (f : Flow → Flow) (j : Slot) : (s.updFlow i f).slotDelay j = s.slotDelay j := rfl
@[simp] theorem State.slot_updFlow (i : Fin 255) (f : Flow → Flow) (j : Slot) : (s.updFlow i f).slot j = s.slot j := rfl
@[simp] theorem State.channel_updFlow (i : Fin 255) (f : Flow → Flow) (j : Channel) : (s.updFlow i f).channel j = s.channel j := rfl
@[simp] theorem State.point_updFlow (i : Fin 255) (f : Flow → Flow) (j : PointId) : (s.updFlow i f).point j = s.point j := rfl
@[simp] theorem State.input_updFlow (i : Fin 255) (f : Flow → Flow) (j : Fin 4) : (s.updFlow i f).input j = s.input j := rfl

@[simp] theorem State.flow_updFlow_same (i : Fin 255) (f : Flow → Flow) : (s.updFlow i f).flow i = f (s.flow i) := Table.read_update_same _ _ _
theorem State.flow_updFlow_ne (i : Fin 255) (f : Flow → Flow) {j : Fin 255} (h : j ≠ i) : (s.updFlow i f).flow j = s.flow j := Table.read_update_ne _ _ h

/-! ### `updDrops` -/

@[simp] theorem State.updDrops_pending (n : Slot) (f : DropCounters → DropCounters) : (s.updDrops n f).pending = s.pending := rfl
@[simp] theorem State.updDrops_ports (n : Slot) (f : DropCounters → DropCounters) : (s.updDrops n f).ports = s.ports := rfl
@[simp] theorem State.updDrops_qcfg (n : Slot) (f : DropCounters → DropCounters) : (s.updDrops n f).qcfg = s.qcfg := rfl
@[simp] theorem State.updDrops_qm (n : Slot) (f : DropCounters → DropCounters) : (s.updDrops n f).qm = s.qm := rfl
@[simp] theorem State.updDrops_cal (n : Slot) (f : DropCounters → DropCounters) : (s.updDrops n f).cal = s.cal := rfl
@[simp] theorem State.updDrops_time (n : Slot) (f : DropCounters → DropCounters) : (s.updDrops n f).time = s.time := rfl
@[simp] theorem State.updDrops_trk (n : Slot) (f : DropCounters → DropCounters) : (s.updDrops n f).trk = s.trk := rfl
@[simp] theorem State.updDrops_delay (n : Slot) (f : DropCounters → DropCounters) : (s.updDrops n f).delay = s.delay := rfl
@[simp] theorem State.updDrops_slots (n : Slot) (f : DropCounters → DropCounters) : (s.updDrops n f).slots = s.slots := rfl
@[simp] theorem State.updDrops_side (n : Slot) (f : DropCounters → DropCounters) : (s.updDrops n f).side = s.side := rfl
@[simp] theorem State.updDrops_mon (n : Slot) (f : DropCounters → DropCounters) : (s.updDrops n f).mon = s.mon := rfl
@[simp] theorem State.updDrops_alarm (n : Slot) (f : DropCounters → DropCounters) : (s.updDrops n f).alarm = s.alarm := rfl
@[simp] theorem State.updDrops_agent (n : Slot) (f : DropCounters → DropCounters) : (s.updDrops n f).agent = s.agent := rfl
@[simp] theorem State.updDrops_out (n : Slot) (f : DropCounters → DropCounters) : (s.updDrops n f).out = s.out := rfl
@[simp] theorem State.updDrops_free (n : Slot) (f : DropCounters → DropCounters) : (s.updDrops n f).free = s.free := rfl
@[simp] theorem State.updDrops_fwd (n : Slot) (f : DropCounters → DropCounters) : (s.updDrops n f).fwd = { s.fwd with drops := s.fwd.drops.update n f } := rfl

@[simp] theorem State.port_updDrops (n : Slot) (f : DropCounters → DropCounters) (j : Slot) : (s.updDrops n f).port j = s.port j := rfl
@[simp] theorem State.sq_updDrops (n : Slot) (f : DropCounters → DropCounters) (j : Slot) : (s.updDrops n f).sq j = s.sq j := rfl
@[simp] theorem State.queueConfig_updDrops (n : Slot) (f : DropCounters → DropCounters) (j : Slot) : (s.updDrops n f).queueConfig j = s.queueConfig j := rfl
@[simp] theorem State.source_updDrops (n : Slot) (f : DropCounters → DropCounters) (j : Source) : (s.updDrops n f).source j = s.source j := rfl
@[simp] theorem State.slotDelay_updDrops (n : Slot) (f : DropCounters → DropCounters) (j : Slot) : (s.updDrops n f).slotDelay j = s.slotDelay j := rfl
@[simp] theorem State.slot_updDrops (n : Slot) (f : DropCounters → DropCounters) (j : Slot) : (s.updDrops n f).slot j = s.slot j := rfl
@[simp] theorem State.channel_updDrops (n : Slot) (f : DropCounters → DropCounters) (j : Channel) : (s.updDrops n f).channel j = s.channel j := rfl
@[simp] theorem State.point_updDrops (n : Slot) (f : DropCounters → DropCounters) (j : PointId) : (s.updDrops n f).point j = s.point j := rfl
@[simp] theorem State.input_updDrops (n : Slot) (f : DropCounters → DropCounters) (j : Fin 4) : (s.updDrops n f).input j = s.input j := rfl

/-! ### `updSource` -/

@[simp] theorem State.updSource_pending (src : Source) (f : SourceRecord → SourceRecord) : (s.updSource src f).pending = s.pending := by cases src <;> rfl
@[simp] theorem State.updSource_ports (src : Source) (f : SourceRecord → SourceRecord) : (s.updSource src f).ports = s.ports := by cases src <;> rfl
@[simp] theorem State.updSource_fwd (src : Source) (f : SourceRecord → SourceRecord) : (s.updSource src f).fwd = s.fwd := by cases src <;> rfl
@[simp] theorem State.updSource_qcfg (src : Source) (f : SourceRecord → SourceRecord) : (s.updSource src f).qcfg = s.qcfg := by cases src <;> rfl
@[simp] theorem State.updSource_qm (src : Source) (f : SourceRecord → SourceRecord) : (s.updSource src f).qm = s.qm := by cases src <;> rfl
@[simp] theorem State.updSource_cal (src : Source) (f : SourceRecord → SourceRecord) : (s.updSource src f).cal = s.cal := by cases src <;> rfl
@[simp] theorem State.updSource_time (src : Source) (f : SourceRecord → SourceRecord) : (s.updSource src f).time = s.time := by cases src <;> rfl
@[simp] theorem State.updSource_delay (src : Source) (f : SourceRecord → SourceRecord) : (s.updSource src f).delay = s.delay := by cases src <;> rfl
@[simp] theorem State.updSource_slots (src : Source) (f : SourceRecord → SourceRecord) : (s.updSource src f).slots = s.slots := by cases src <;> rfl
@[simp] theorem State.updSource_side (src : Source) (f : SourceRecord → SourceRecord) : (s.updSource src f).side = s.side := by cases src <;> rfl
@[simp] theorem State.updSource_mon (src : Source) (f : SourceRecord → SourceRecord) : (s.updSource src f).mon = s.mon := by cases src <;> rfl
@[simp] theorem State.updSource_alarm (src : Source) (f : SourceRecord → SourceRecord) : (s.updSource src f).alarm = s.alarm := by cases src <;> rfl
@[simp] theorem State.updSource_agent (src : Source) (f : SourceRecord → SourceRecord) : (s.updSource src f).agent = s.agent := by cases src <;> rfl
@[simp] theorem State.updSource_out (src : Source) (f : SourceRecord → SourceRecord) : (s.updSource src f).out = s.out := by cases src <;> rfl
@[simp] theorem State.updSource_free (src : Source) (f : SourceRecord → SourceRecord) : (s.updSource src f).free = s.free := by cases src <;> rfl

@[simp] theorem State.port_updSource (src : Source) (f : SourceRecord → SourceRecord) (j : Slot) : (s.updSource src f).port j = s.port j := by cases src <;> rfl
@[simp] theorem State.sq_updSource (src : Source) (f : SourceRecord → SourceRecord) (j : Slot) : (s.updSource src f).sq j = s.sq j := by cases src <;> rfl
@[simp] theorem State.queueConfig_updSource (src : Source) (f : SourceRecord → SourceRecord) (j : Slot) : (s.updSource src f).queueConfig j = s.queueConfig j := by cases src <;> rfl
@[simp] theorem State.flow_updSource (src : Source) (f : SourceRecord → SourceRecord) (j : Fin 255) : (s.updSource src f).flow j = s.flow j := by cases src <;> rfl
@[simp] theorem State.slotDelay_updSource (src : Source) (f : SourceRecord → SourceRecord) (j : Slot) : (s.updSource src f).slotDelay j = s.slotDelay j := by cases src <;> rfl
@[simp] theorem State.slot_updSource (src : Source) (f : SourceRecord → SourceRecord) (j : Slot) : (s.updSource src f).slot j = s.slot j := by cases src <;> rfl
@[simp] theorem State.channel_updSource (src : Source) (f : SourceRecord → SourceRecord) (j : Channel) : (s.updSource src f).channel j = s.channel j := by cases src <;> rfl
@[simp] theorem State.point_updSource (src : Source) (f : SourceRecord → SourceRecord) (j : PointId) : (s.updSource src f).point j = s.point j := by cases src <;> rfl
@[simp] theorem State.input_updSource (src : Source) (f : SourceRecord → SourceRecord) (j : Fin 4) : (s.updSource src f).input j = s.input j := by cases src <;> rfl

/-! ### `updTrk` -/

@[simp] theorem State.updTrk_pending (f : Tracker → Tracker) : (s.updTrk f).pending = s.pending := rfl
@[simp] theorem State.updTrk_ports (f : Tracker → Tracker) : (s.updTrk f).ports = s.ports := rfl
@[simp] theorem State.updTrk_fwd (f : Tracker → Tracker) : (s.updTrk f).fwd = s.fwd := rfl
@[simp] theorem State.updTrk_qcfg (f : Tracker → Tracker) : (s.updTrk f).qcfg = s.qcfg := rfl
@[simp] theorem State.updTrk_qm (f : Tracker → Tracker) : (s.updTrk f).qm = s.qm := rfl
@[simp] theorem State.updTrk_cal (f : Tracker → Tracker) : (s.updTrk f).cal = s.cal := rfl
@[simp] theorem State.updTrk_time (f : Tracker → Tracker) : (s.updTrk f).time = s.time := rfl
@[simp] theorem State.updTrk_delay (f : Tracker → Tracker) : (s.updTrk f).delay = s.delay := rfl
@[simp] theorem State.updTrk_slots (f : Tracker → Tracker) : (s.updTrk f).slots = s.slots := rfl
@[simp] theorem State.updTrk_side (f : Tracker → Tracker) : (s.updTrk f).side = s.side := rfl
@[simp] theorem State.updTrk_mon (f : Tracker → Tracker) : (s.updTrk f).mon = s.mon := rfl
@[simp] theorem State.updTrk_alarm (f : Tracker → Tracker) : (s.updTrk f).alarm = s.alarm := rfl
@[simp] theorem State.updTrk_agent (f : Tracker → Tracker) : (s.updTrk f).agent = s.agent := rfl
@[simp] theorem State.updTrk_out (f : Tracker → Tracker) : (s.updTrk f).out = s.out := rfl
@[simp] theorem State.updTrk_free (f : Tracker → Tracker) : (s.updTrk f).free = s.free := rfl
@[simp] theorem State.updTrk_trk (f : Tracker → Tracker) : (s.updTrk f).trk = f s.trk := rfl

@[simp] theorem State.port_updTrk (f : Tracker → Tracker) (j : Slot) : (s.updTrk f).port j = s.port j := rfl
@[simp] theorem State.sq_updTrk (f : Tracker → Tracker) (j : Slot) : (s.updTrk f).sq j = s.sq j := rfl
@[simp] theorem State.queueConfig_updTrk (f : Tracker → Tracker) (j : Slot) : (s.updTrk f).queueConfig j = s.queueConfig j := rfl
@[simp] theorem State.flow_updTrk (f : Tracker → Tracker) (j : Fin 255) : (s.updTrk f).flow j = s.flow j := rfl
@[simp] theorem State.slotDelay_updTrk (f : Tracker → Tracker) (j : Slot) : (s.updTrk f).slotDelay j = s.slotDelay j := rfl
@[simp] theorem State.slot_updTrk (f : Tracker → Tracker) (j : Slot) : (s.updTrk f).slot j = s.slot j := rfl
@[simp] theorem State.channel_updTrk (f : Tracker → Tracker) (j : Channel) : (s.updTrk f).channel j = s.channel j := rfl
@[simp] theorem State.point_updTrk (f : Tracker → Tracker) (j : PointId) : (s.updTrk f).point j = s.point j := rfl
@[simp] theorem State.input_updTrk (f : Tracker → Tracker) (j : Fin 4) : (s.updTrk f).input j = s.input j := rfl

/-! ### `updDelay` -/

@[simp] theorem State.updDelay_pending (n : Slot) (f : SlotDelay → SlotDelay) : (s.updDelay n f).pending = s.pending := rfl
@[simp] theorem State.updDelay_ports (n : Slot) (f : SlotDelay → SlotDelay) : (s.updDelay n f).ports = s.ports := rfl
@[simp] theorem State.updDelay_fwd (n : Slot) (f : SlotDelay → SlotDelay) : (s.updDelay n f).fwd = s.fwd := rfl
@[simp] theorem State.updDelay_qcfg (n : Slot) (f : SlotDelay → SlotDelay) : (s.updDelay n f).qcfg = s.qcfg := rfl
@[simp] theorem State.updDelay_qm (n : Slot) (f : SlotDelay → SlotDelay) : (s.updDelay n f).qm = s.qm := rfl
@[simp] theorem State.updDelay_cal (n : Slot) (f : SlotDelay → SlotDelay) : (s.updDelay n f).cal = s.cal := rfl
@[simp] theorem State.updDelay_time (n : Slot) (f : SlotDelay → SlotDelay) : (s.updDelay n f).time = s.time := rfl
@[simp] theorem State.updDelay_trk (n : Slot) (f : SlotDelay → SlotDelay) : (s.updDelay n f).trk = s.trk := rfl
@[simp] theorem State.updDelay_slots (n : Slot) (f : SlotDelay → SlotDelay) : (s.updDelay n f).slots = s.slots := rfl
@[simp] theorem State.updDelay_side (n : Slot) (f : SlotDelay → SlotDelay) : (s.updDelay n f).side = s.side := rfl
@[simp] theorem State.updDelay_mon (n : Slot) (f : SlotDelay → SlotDelay) : (s.updDelay n f).mon = s.mon := rfl
@[simp] theorem State.updDelay_alarm (n : Slot) (f : SlotDelay → SlotDelay) : (s.updDelay n f).alarm = s.alarm := rfl
@[simp] theorem State.updDelay_agent (n : Slot) (f : SlotDelay → SlotDelay) : (s.updDelay n f).agent = s.agent := rfl
@[simp] theorem State.updDelay_out (n : Slot) (f : SlotDelay → SlotDelay) : (s.updDelay n f).out = s.out := rfl
@[simp] theorem State.updDelay_free (n : Slot) (f : SlotDelay → SlotDelay) : (s.updDelay n f).free = s.free := rfl
@[simp] theorem State.updDelay_delay (n : Slot) (f : SlotDelay → SlotDelay) : (s.updDelay n f).delay = { s.delay with slot := s.delay.slot.update n f } := rfl

@[simp] theorem State.port_updDelay (n : Slot) (f : SlotDelay → SlotDelay) (j : Slot) : (s.updDelay n f).port j = s.port j := rfl
@[simp] theorem State.sq_updDelay (n : Slot) (f : SlotDelay → SlotDelay) (j : Slot) : (s.updDelay n f).sq j = s.sq j := rfl
@[simp] theorem State.queueConfig_updDelay (n : Slot) (f : SlotDelay → SlotDelay) (j : Slot) : (s.updDelay n f).queueConfig j = s.queueConfig j := rfl
@[simp] theorem State.flow_updDelay (n : Slot) (f : SlotDelay → SlotDelay) (j : Fin 255) : (s.updDelay n f).flow j = s.flow j := rfl
@[simp] theorem State.source_updDelay (n : Slot) (f : SlotDelay → SlotDelay) (j : Source) : (s.updDelay n f).source j = s.source j := rfl
@[simp] theorem State.slot_updDelay (n : Slot) (f : SlotDelay → SlotDelay) (j : Slot) : (s.updDelay n f).slot j = s.slot j := rfl
@[simp] theorem State.channel_updDelay (n : Slot) (f : SlotDelay → SlotDelay) (j : Channel) : (s.updDelay n f).channel j = s.channel j := rfl
@[simp] theorem State.point_updDelay (n : Slot) (f : SlotDelay → SlotDelay) (j : PointId) : (s.updDelay n f).point j = s.point j := rfl
@[simp] theorem State.input_updDelay (n : Slot) (f : SlotDelay → SlotDelay) (j : Fin 4) : (s.updDelay n f).input j = s.input j := rfl

@[simp] theorem State.slotDelay_updDelay_same (n : Slot) (f : SlotDelay → SlotDelay) : (s.updDelay n f).slotDelay n = f (s.slotDelay n) := Table.read_update_same _ _ _
theorem State.slotDelay_updDelay_ne (n : Slot) (f : SlotDelay → SlotDelay) {j : Slot} (h : j ≠ n) : (s.updDelay n f).slotDelay j = s.slotDelay j := Table.read_update_ne _ _ h

/-! ### `updSlot` -/

@[simp] theorem State.updSlot_pending (n : Slot) (f : SlotRecord → SlotRecord) : (s.updSlot n f).pending = s.pending := rfl
@[simp] theorem State.updSlot_ports (n : Slot) (f : SlotRecord → SlotRecord) : (s.updSlot n f).ports = s.ports := rfl
@[simp] theorem State.updSlot_fwd (n : Slot) (f : SlotRecord → SlotRecord) : (s.updSlot n f).fwd = s.fwd := rfl
@[simp] theorem State.updSlot_qcfg (n : Slot) (f : SlotRecord → SlotRecord) : (s.updSlot n f).qcfg = s.qcfg := rfl
@[simp] theorem State.updSlot_qm (n : Slot) (f : SlotRecord → SlotRecord) : (s.updSlot n f).qm = s.qm := rfl
@[simp] theorem State.updSlot_cal (n : Slot) (f : SlotRecord → SlotRecord) : (s.updSlot n f).cal = s.cal := rfl
@[simp] theorem State.updSlot_time (n : Slot) (f : SlotRecord → SlotRecord) : (s.updSlot n f).time = s.time := rfl
@[simp] theorem State.updSlot_trk (n : Slot) (f : SlotRecord → SlotRecord) : (s.updSlot n f).trk = s.trk := rfl
@[simp] theorem State.updSlot_delay (n : Slot) (f : SlotRecord → SlotRecord) : (s.updSlot n f).delay = s.delay := rfl
@[simp] theorem State.updSlot_side (n : Slot) (f : SlotRecord → SlotRecord) : (s.updSlot n f).side = s.side := rfl
@[simp] theorem State.updSlot_mon (n : Slot) (f : SlotRecord → SlotRecord) : (s.updSlot n f).mon = s.mon := rfl
@[simp] theorem State.updSlot_alarm (n : Slot) (f : SlotRecord → SlotRecord) : (s.updSlot n f).alarm = s.alarm := rfl
@[simp] theorem State.updSlot_agent (n : Slot) (f : SlotRecord → SlotRecord) : (s.updSlot n f).agent = s.agent := rfl
@[simp] theorem State.updSlot_out (n : Slot) (f : SlotRecord → SlotRecord) : (s.updSlot n f).out = s.out := rfl
@[simp] theorem State.updSlot_free (n : Slot) (f : SlotRecord → SlotRecord) : (s.updSlot n f).free = s.free := rfl
@[simp] theorem State.updSlot_slots (n : Slot) (f : SlotRecord → SlotRecord) : (s.updSlot n f).slots = { s.slots with slot := s.slots.slot.update n f } := rfl

@[simp] theorem State.port_updSlot (n : Slot) (f : SlotRecord → SlotRecord) (j : Slot) : (s.updSlot n f).port j = s.port j := rfl
@[simp] theorem State.sq_updSlot (n : Slot) (f : SlotRecord → SlotRecord) (j : Slot) : (s.updSlot n f).sq j = s.sq j := rfl
@[simp] theorem State.queueConfig_updSlot (n : Slot) (f : SlotRecord → SlotRecord) (j : Slot) : (s.updSlot n f).queueConfig j = s.queueConfig j := rfl
@[simp] theorem State.flow_updSlot (n : Slot) (f : SlotRecord → SlotRecord) (j : Fin 255) : (s.updSlot n f).flow j = s.flow j := rfl
@[simp] theorem State.source_updSlot (n : Slot) (f : SlotRecord → SlotRecord) (j : Source) : (s.updSlot n f).source j = s.source j := rfl
@[simp] theorem State.slotDelay_updSlot (n : Slot) (f : SlotRecord → SlotRecord) (j : Slot) : (s.updSlot n f).slotDelay j = s.slotDelay j := rfl
@[simp] theorem State.channel_updSlot (n : Slot) (f : SlotRecord → SlotRecord) (j : Channel) : (s.updSlot n f).channel j = s.channel j := rfl
@[simp] theorem State.point_updSlot (n : Slot) (f : SlotRecord → SlotRecord) (j : PointId) : (s.updSlot n f).point j = s.point j := rfl
@[simp] theorem State.input_updSlot (n : Slot) (f : SlotRecord → SlotRecord) (j : Fin 4) : (s.updSlot n f).input j = s.input j := rfl

@[simp] theorem State.slot_updSlot_same (n : Slot) (f : SlotRecord → SlotRecord) : (s.updSlot n f).slot n = f (s.slot n) := Table.read_update_same _ _ _
theorem State.slot_updSlot_ne (n : Slot) (f : SlotRecord → SlotRecord) {j : Slot} (h : j ≠ n) : (s.updSlot n f).slot j = s.slot j := Table.read_update_ne _ _ h

/-! ### `updChannel` -/

@[simp] theorem State.updChannel_pending (c : Channel) (f : ChannelRecord → ChannelRecord) : (s.updChannel c f).pending = s.pending := rfl
@[simp] theorem State.updChannel_ports (c : Channel) (f : ChannelRecord → ChannelRecord) : (s.updChannel c f).ports = s.ports := rfl
@[simp] theorem State.updChannel_fwd (c : Channel) (f : ChannelRecord → ChannelRecord) : (s.updChannel c f).fwd = s.fwd := rfl
@[simp] theorem State.updChannel_qcfg (c : Channel) (f : ChannelRecord → ChannelRecord) : (s.updChannel c f).qcfg = s.qcfg := rfl
@[simp] theorem State.updChannel_qm (c : Channel) (f : ChannelRecord → ChannelRecord) : (s.updChannel c f).qm = s.qm := rfl
@[simp] theorem State.updChannel_cal (c : Channel) (f : ChannelRecord → ChannelRecord) : (s.updChannel c f).cal = s.cal := rfl
@[simp] theorem State.updChannel_time (c : Channel) (f : ChannelRecord → ChannelRecord) : (s.updChannel c f).time = s.time := rfl
@[simp] theorem State.updChannel_trk (c : Channel) (f : ChannelRecord → ChannelRecord) : (s.updChannel c f).trk = s.trk := rfl
@[simp] theorem State.updChannel_delay (c : Channel) (f : ChannelRecord → ChannelRecord) : (s.updChannel c f).delay = s.delay := rfl
@[simp] theorem State.updChannel_slots (c : Channel) (f : ChannelRecord → ChannelRecord) : (s.updChannel c f).slots = s.slots := rfl
@[simp] theorem State.updChannel_side (c : Channel) (f : ChannelRecord → ChannelRecord) : (s.updChannel c f).side = s.side := rfl
@[simp] theorem State.updChannel_alarm (c : Channel) (f : ChannelRecord → ChannelRecord) : (s.updChannel c f).alarm = s.alarm := rfl
@[simp] theorem State.updChannel_agent (c : Channel) (f : ChannelRecord → ChannelRecord) : (s.updChannel c f).agent = s.agent := rfl
@[simp] theorem State.updChannel_out (c : Channel) (f : ChannelRecord → ChannelRecord) : (s.updChannel c f).out = s.out := rfl
@[simp] theorem State.updChannel_free (c : Channel) (f : ChannelRecord → ChannelRecord) : (s.updChannel c f).free = s.free := rfl
@[simp] theorem State.updChannel_mon (c : Channel) (f : ChannelRecord → ChannelRecord) : (s.updChannel c f).mon = { s.mon with channel := s.mon.channel.update c f } := rfl

@[simp] theorem State.port_updChannel (c : Channel) (f : ChannelRecord → ChannelRecord) (j : Slot) : (s.updChannel c f).port j = s.port j := rfl
@[simp] theorem State.sq_updChannel (c : Channel) (f : ChannelRecord → ChannelRecord) (j : Slot) : (s.updChannel c f).sq j = s.sq j := rfl
@[simp] theorem State.queueConfig_updChannel (c : Channel) (f : ChannelRecord → ChannelRecord) (j : Slot) : (s.updChannel c f).queueConfig j = s.queueConfig j := rfl
@[simp] theorem State.flow_updChannel (c : Channel) (f : ChannelRecord → ChannelRecord) (j : Fin 255) : (s.updChannel c f).flow j = s.flow j := rfl
@[simp] theorem State.source_updChannel (c : Channel) (f : ChannelRecord → ChannelRecord) (j : Source) : (s.updChannel c f).source j = s.source j := rfl
@[simp] theorem State.slotDelay_updChannel (c : Channel) (f : ChannelRecord → ChannelRecord) (j : Slot) : (s.updChannel c f).slotDelay j = s.slotDelay j := rfl
@[simp] theorem State.slot_updChannel (c : Channel) (f : ChannelRecord → ChannelRecord) (j : Slot) : (s.updChannel c f).slot j = s.slot j := rfl
@[simp] theorem State.point_updChannel (c : Channel) (f : ChannelRecord → ChannelRecord) (j : PointId) : (s.updChannel c f).point j = s.point j := rfl
@[simp] theorem State.input_updChannel (c : Channel) (f : ChannelRecord → ChannelRecord) (j : Fin 4) : (s.updChannel c f).input j = s.input j := rfl

@[simp] theorem State.channel_updChannel_same (c : Channel) (f : ChannelRecord → ChannelRecord) : (s.updChannel c f).channel c = f (s.channel c) := Table.read_update_same _ _ _
theorem State.channel_updChannel_ne (c : Channel) (f : ChannelRecord → ChannelRecord) {j : Channel} (h : j ≠ c) : (s.updChannel c f).channel j = s.channel j := Table.read_update_ne _ _ h

/-! ### `updInput` -/

@[simp] theorem State.updInput_pending (i : Fin 4) (f : ExtInput → ExtInput) : (s.updInput i f).pending = s.pending := rfl
@[simp] theorem State.updInput_ports (i : Fin 4) (f : ExtInput → ExtInput) : (s.updInput i f).ports = s.ports := rfl
@[simp] theorem State.updInput_fwd (i : Fin 4) (f : ExtInput → ExtInput) : (s.updInput i f).fwd = s.fwd := rfl
@[simp] theorem State.updInput_qcfg (i : Fin 4) (f : ExtInput → ExtInput) : (s.updInput i f).qcfg = s.qcfg := rfl
@[simp] theorem State.updInput_qm (i : Fin 4) (f : ExtInput → ExtInput) : (s.updInput i f).qm = s.qm := rfl
@[simp] theorem State.updInput_cal (i : Fin 4) (f : ExtInput → ExtInput) : (s.updInput i f).cal = s.cal := rfl
@[simp] theorem State.updInput_time (i : Fin 4) (f : ExtInput → ExtInput) : (s.updInput i f).time = s.time := rfl
@[simp] theorem State.updInput_trk (i : Fin 4) (f : ExtInput → ExtInput) : (s.updInput i f).trk = s.trk := rfl
@[simp] theorem State.updInput_delay (i : Fin 4) (f : ExtInput → ExtInput) : (s.updInput i f).delay = s.delay := rfl
@[simp] theorem State.updInput_slots (i : Fin 4) (f : ExtInput → ExtInput) : (s.updInput i f).slots = s.slots := rfl
@[simp] theorem State.updInput_side (i : Fin 4) (f : ExtInput → ExtInput) : (s.updInput i f).side = s.side := rfl
@[simp] theorem State.updInput_mon (i : Fin 4) (f : ExtInput → ExtInput) : (s.updInput i f).mon = s.mon := rfl
@[simp] theorem State.updInput_agent (i : Fin 4) (f : ExtInput → ExtInput) : (s.updInput i f).agent = s.agent := rfl
@[simp] theorem State.updInput_out (i : Fin 4) (f : ExtInput → ExtInput) : (s.updInput i f).out = s.out := rfl
@[simp] theorem State.updInput_free (i : Fin 4) (f : ExtInput → ExtInput) : (s.updInput i f).free = s.free := rfl
@[simp] theorem State.updInput_alarm (i : Fin 4) (f : ExtInput → ExtInput) : (s.updInput i f).alarm = { s.alarm with inputs := s.alarm.inputs.update i f } := rfl

@[simp] theorem State.port_updInput (i : Fin 4) (f : ExtInput → ExtInput) (j : Slot) : (s.updInput i f).port j = s.port j := rfl
@[simp] theorem State.sq_updInput (i : Fin 4) (f : ExtInput → ExtInput) (j : Slot) : (s.updInput i f).sq j = s.sq j := rfl
@[simp] theorem State.queueConfig_updInput (i : Fin 4) (f : ExtInput → ExtInput) (j : Slot) : (s.updInput i f).queueConfig j = s.queueConfig j := rfl
@[simp] theorem State.flow_updInput (i : Fin 4) (f : ExtInput → ExtInput) (j : Fin 255) : (s.updInput i f).flow j = s.flow j := rfl
@[simp] theorem State.source_updInput (i : Fin 4) (f : ExtInput → ExtInput) (j : Source) : (s.updInput i f).source j = s.source j := rfl
@[simp] theorem State.slotDelay_updInput (i : Fin 4) (f : ExtInput → ExtInput) (j : Slot) : (s.updInput i f).slotDelay j = s.slotDelay j := rfl
@[simp] theorem State.slot_updInput (i : Fin 4) (f : ExtInput → ExtInput) (j : Slot) : (s.updInput i f).slot j = s.slot j := rfl
@[simp] theorem State.channel_updInput (i : Fin 4) (f : ExtInput → ExtInput) (j : Channel) : (s.updInput i f).channel j = s.channel j := rfl

@[simp] theorem State.input_updInput_same (i : Fin 4) (f : ExtInput → ExtInput) : (s.updInput i f).input i = f (s.input i) := Table.read_update_same _ _ _
theorem State.input_updInput_ne (i : Fin 4) (f : ExtInput → ExtInput) {j : Fin 4} (h : j ≠ i) : (s.updInput i f).input j = s.input j := Table.read_update_ne _ _ h

/-! ### `updAlarm` -/

@[simp] theorem State.updAlarm_pending (f : AlarmUnit → AlarmUnit) : (s.updAlarm f).pending = s.pending := rfl
@[simp] theorem State.updAlarm_ports (f : AlarmUnit → AlarmUnit) : (s.updAlarm f).ports = s.ports := rfl
@[simp] theorem State.updAlarm_fwd (f : AlarmUnit → AlarmUnit) : (s.updAlarm f).fwd = s.fwd := rfl
@[simp] theorem State.updAlarm_qcfg (f : AlarmUnit → AlarmUnit) : (s.updAlarm f).qcfg = s.qcfg := rfl
@[simp] theorem State.updAlarm_qm (f : AlarmUnit → AlarmUnit) : (s.updAlarm f).qm = s.qm := rfl
@[simp] theorem State.updAlarm_cal (f : AlarmUnit → AlarmUnit) : (s.updAlarm f).cal = s.cal := rfl
@[simp] theorem State.updAlarm_time (f : AlarmUnit → AlarmUnit) : (s.updAlarm f).time = s.time := rfl
@[simp] theorem State.updAlarm_trk (f : AlarmUnit → AlarmUnit) : (s.updAlarm f).trk = s.trk := rfl
@[simp] theorem State.updAlarm_delay (f : AlarmUnit → AlarmUnit) : (s.updAlarm f).delay = s.delay := rfl
@[simp] theorem State.updAlarm_slots (f : AlarmUnit → AlarmUnit) : (s.updAlarm f).slots = s.slots := rfl
@[simp] theorem State.updAlarm_side (f : AlarmUnit → AlarmUnit) : (s.updAlarm f).side = s.side := rfl
@[simp] theorem State.updAlarm_mon (f : AlarmUnit → AlarmUnit) : (s.updAlarm f).mon = s.mon := rfl
@[simp] theorem State.updAlarm_agent (f : AlarmUnit → AlarmUnit) : (s.updAlarm f).agent = s.agent := rfl
@[simp] theorem State.updAlarm_out (f : AlarmUnit → AlarmUnit) : (s.updAlarm f).out = s.out := rfl
@[simp] theorem State.updAlarm_free (f : AlarmUnit → AlarmUnit) : (s.updAlarm f).free = s.free := rfl
@[simp] theorem State.updAlarm_alarm (f : AlarmUnit → AlarmUnit) : (s.updAlarm f).alarm = f s.alarm := rfl

@[simp] theorem State.port_updAlarm (f : AlarmUnit → AlarmUnit) (j : Slot) : (s.updAlarm f).port j = s.port j := rfl
@[simp] theorem State.sq_updAlarm (f : AlarmUnit → AlarmUnit) (j : Slot) : (s.updAlarm f).sq j = s.sq j := rfl
@[simp] theorem State.queueConfig_updAlarm (f : AlarmUnit → AlarmUnit) (j : Slot) : (s.updAlarm f).queueConfig j = s.queueConfig j := rfl
@[simp] theorem State.flow_updAlarm (f : AlarmUnit → AlarmUnit) (j : Fin 255) : (s.updAlarm f).flow j = s.flow j := rfl
@[simp] theorem State.source_updAlarm (f : AlarmUnit → AlarmUnit) (j : Source) : (s.updAlarm f).source j = s.source j := rfl
@[simp] theorem State.slotDelay_updAlarm (f : AlarmUnit → AlarmUnit) (j : Slot) : (s.updAlarm f).slotDelay j = s.slotDelay j := rfl
@[simp] theorem State.slot_updAlarm (f : AlarmUnit → AlarmUnit) (j : Slot) : (s.updAlarm f).slot j = s.slot j := rfl
@[simp] theorem State.channel_updAlarm (f : AlarmUnit → AlarmUnit) (j : Channel) : (s.updAlarm f).channel j = s.channel j := rfl

/-! ### `updAgent` -/

@[simp] theorem State.updAgent_pending (f : Agent → Agent) : (s.updAgent f).pending = s.pending := rfl
@[simp] theorem State.updAgent_ports (f : Agent → Agent) : (s.updAgent f).ports = s.ports := rfl
@[simp] theorem State.updAgent_fwd (f : Agent → Agent) : (s.updAgent f).fwd = s.fwd := rfl
@[simp] theorem State.updAgent_qcfg (f : Agent → Agent) : (s.updAgent f).qcfg = s.qcfg := rfl
@[simp] theorem State.updAgent_qm (f : Agent → Agent) : (s.updAgent f).qm = s.qm := rfl
@[simp] theorem State.updAgent_cal (f : Agent → Agent) : (s.updAgent f).cal = s.cal := rfl
@[simp] theorem State.updAgent_time (f : Agent → Agent) : (s.updAgent f).time = s.time := rfl
@[simp] theorem State.updAgent_trk (f : Agent → Agent) : (s.updAgent f).trk = s.trk := rfl
@[simp] theorem State.updAgent_delay (f : Agent → Agent) : (s.updAgent f).delay = s.delay := rfl
@[simp] theorem State.updAgent_slots (f : Agent → Agent) : (s.updAgent f).slots = s.slots := rfl
@[simp] theorem State.updAgent_side (f : Agent → Agent) : (s.updAgent f).side = s.side := rfl
@[simp] theorem State.updAgent_mon (f : Agent → Agent) : (s.updAgent f).mon = s.mon := rfl
@[simp] theorem State.updAgent_alarm (f : Agent → Agent) : (s.updAgent f).alarm = s.alarm := rfl
@[simp] theorem State.updAgent_out (f : Agent → Agent) : (s.updAgent f).out = s.out := rfl
@[simp] theorem State.updAgent_free (f : Agent → Agent) : (s.updAgent f).free = s.free := rfl
@[simp] theorem State.updAgent_agent (f : Agent → Agent) : (s.updAgent f).agent = f s.agent := rfl

@[simp] theorem State.port_updAgent (f : Agent → Agent) (j : Slot) : (s.updAgent f).port j = s.port j := rfl
@[simp] theorem State.sq_updAgent (f : Agent → Agent) (j : Slot) : (s.updAgent f).sq j = s.sq j := rfl
@[simp] theorem State.queueConfig_updAgent (f : Agent → Agent) (j : Slot) : (s.updAgent f).queueConfig j = s.queueConfig j := rfl
@[simp] theorem State.flow_updAgent (f : Agent → Agent) (j : Fin 255) : (s.updAgent f).flow j = s.flow j := rfl
@[simp] theorem State.source_updAgent (f : Agent → Agent) (j : Source) : (s.updAgent f).source j = s.source j := rfl
@[simp] theorem State.slotDelay_updAgent (f : Agent → Agent) (j : Slot) : (s.updAgent f).slotDelay j = s.slotDelay j := rfl
@[simp] theorem State.slot_updAgent (f : Agent → Agent) (j : Slot) : (s.updAgent f).slot j = s.slot j := rfl
@[simp] theorem State.channel_updAgent (f : Agent → Agent) (j : Channel) : (s.updAgent f).channel j = s.channel j := rfl
@[simp] theorem State.point_updAgent (f : Agent → Agent) (j : PointId) : (s.updAgent f).point j = s.point j := rfl
@[simp] theorem State.input_updAgent (f : Agent → Agent) (j : Fin 4) : (s.updAgent f).input j = s.input j := rfl

/-! ### `updMon` -/

@[simp] theorem State.updMon_pending (f : Monitor → Monitor) : (s.updMon f).pending = s.pending := rfl
@[simp] theorem State.updMon_ports (f : Monitor → Monitor) : (s.updMon f).ports = s.ports := rfl
@[simp] theorem State.updMon_fwd (f : Monitor → Monitor) : (s.updMon f).fwd = s.fwd := rfl
@[simp] theorem State.updMon_qcfg (f : Monitor → Monitor) : (s.updMon f).qcfg = s.qcfg := rfl
@[simp] theorem State.updMon_qm (f : Monitor → Monitor) : (s.updMon f).qm = s.qm := rfl
@[simp] theorem State.updMon_cal (f : Monitor → Monitor) : (s.updMon f).cal = s.cal := rfl
@[simp] theorem State.updMon_time (f : Monitor → Monitor) : (s.updMon f).time = s.time := rfl
@[simp] theorem State.updMon_trk (f : Monitor → Monitor) : (s.updMon f).trk = s.trk := rfl
@[simp] theorem State.updMon_delay (f : Monitor → Monitor) : (s.updMon f).delay = s.delay := rfl
@[simp] theorem State.updMon_slots (f : Monitor → Monitor) : (s.updMon f).slots = s.slots := rfl
@[simp] theorem State.updMon_side (f : Monitor → Monitor) : (s.updMon f).side = s.side := rfl
@[simp] theorem State.updMon_alarm (f : Monitor → Monitor) : (s.updMon f).alarm = s.alarm := rfl
@[simp] theorem State.updMon_agent (f : Monitor → Monitor) : (s.updMon f).agent = s.agent := rfl
@[simp] theorem State.updMon_out (f : Monitor → Monitor) : (s.updMon f).out = s.out := rfl
@[simp] theorem State.updMon_free (f : Monitor → Monitor) : (s.updMon f).free = s.free := rfl
@[simp] theorem State.updMon_mon (f : Monitor → Monitor) : (s.updMon f).mon = f s.mon := rfl

@[simp] theorem State.port_updMon (f : Monitor → Monitor) (j : Slot) : (s.updMon f).port j = s.port j := rfl
@[simp] theorem State.sq_updMon (f : Monitor → Monitor) (j : Slot) : (s.updMon f).sq j = s.sq j := rfl
@[simp] theorem State.queueConfig_updMon (f : Monitor → Monitor) (j : Slot) : (s.updMon f).queueConfig j = s.queueConfig j := rfl
@[simp] theorem State.flow_updMon (f : Monitor → Monitor) (j : Fin 255) : (s.updMon f).flow j = s.flow j := rfl
@[simp] theorem State.source_updMon (f : Monitor → Monitor) (j : Source) : (s.updMon f).source j = s.source j := rfl
@[simp] theorem State.slotDelay_updMon (f : Monitor → Monitor) (j : Slot) : (s.updMon f).slotDelay j = s.slotDelay j := rfl
@[simp] theorem State.slot_updMon (f : Monitor → Monitor) (j : Slot) : (s.updMon f).slot j = s.slot j := rfl
@[simp] theorem State.point_updMon (f : Monitor → Monitor) (j : PointId) : (s.updMon f).point j = s.point j := rfl
@[simp] theorem State.input_updMon (f : Monitor → Monitor) (j : Fin 4) : (s.updMon f).input j = s.input j := rfl

/-! ### `updSide` -/

@[simp] theorem State.updSide_pending (f : Sideband → Sideband) : (s.updSide f).pending = s.pending := rfl
@[simp] theorem State.updSide_ports (f : Sideband → Sideband) : (s.updSide f).ports = s.ports := rfl
@[simp] theorem State.updSide_fwd (f : Sideband → Sideband) : (s.updSide f).fwd = s.fwd := rfl
@[simp] theorem State.updSide_qcfg (f : Sideband → Sideband) : (s.updSide f).qcfg = s.qcfg := rfl
@[simp] theorem State.updSide_qm (f : Sideband → Sideband) : (s.updSide f).qm = s.qm := rfl
@[simp] theorem State.updSide_cal (f : Sideband → Sideband) : (s.updSide f).cal = s.cal := rfl
@[simp] theorem State.updSide_time (f : Sideband → Sideband) : (s.updSide f).time = s.time := rfl
@[simp] theorem State.updSide_trk (f : Sideband → Sideband) : (s.updSide f).trk = s.trk := rfl
@[simp] theorem State.updSide_delay (f : Sideband → Sideband) : (s.updSide f).delay = s.delay := rfl
@[simp] theorem State.updSide_slots (f : Sideband → Sideband) : (s.updSide f).slots = s.slots := rfl
@[simp] theorem State.updSide_mon (f : Sideband → Sideband) : (s.updSide f).mon = s.mon := rfl
@[simp] theorem State.updSide_alarm (f : Sideband → Sideband) : (s.updSide f).alarm = s.alarm := rfl
@[simp] theorem State.updSide_agent (f : Sideband → Sideband) : (s.updSide f).agent = s.agent := rfl
@[simp] theorem State.updSide_out (f : Sideband → Sideband) : (s.updSide f).out = s.out := rfl
@[simp] theorem State.updSide_free (f : Sideband → Sideband) : (s.updSide f).free = s.free := rfl
@[simp] theorem State.updSide_side (f : Sideband → Sideband) : (s.updSide f).side = f s.side := rfl

@[simp] theorem State.port_updSide (f : Sideband → Sideband) (j : Slot) : (s.updSide f).port j = s.port j := rfl
@[simp] theorem State.sq_updSide (f : Sideband → Sideband) (j : Slot) : (s.updSide f).sq j = s.sq j := rfl
@[simp] theorem State.queueConfig_updSide (f : Sideband → Sideband) (j : Slot) : (s.updSide f).queueConfig j = s.queueConfig j := rfl
@[simp] theorem State.flow_updSide (f : Sideband → Sideband) (j : Fin 255) : (s.updSide f).flow j = s.flow j := rfl
@[simp] theorem State.source_updSide (f : Sideband → Sideband) (j : Source) : (s.updSide f).source j = s.source j := rfl
@[simp] theorem State.slotDelay_updSide (f : Sideband → Sideband) (j : Slot) : (s.updSide f).slotDelay j = s.slotDelay j := rfl
@[simp] theorem State.slot_updSide (f : Sideband → Sideband) (j : Slot) : (s.updSide f).slot j = s.slot j := rfl
@[simp] theorem State.channel_updSide (f : Sideband → Sideband) (j : Channel) : (s.updSide f).channel j = s.channel j := rfl
@[simp] theorem State.point_updSide (f : Sideband → Sideband) (j : PointId) : (s.updSide f).point j = s.point j := rfl
@[simp] theorem State.input_updSide (f : Sideband → Sideband) (j : Fin 4) : (s.updSide f).input j = s.input j := rfl

/-! ### `updCal` -/

@[simp] theorem State.updCal_pending (f : Calendar → Calendar) : (s.updCal f).pending = s.pending := rfl
@[simp] theorem State.updCal_ports (f : Calendar → Calendar) : (s.updCal f).ports = s.ports := rfl
@[simp] theorem State.updCal_fwd (f : Calendar → Calendar) : (s.updCal f).fwd = s.fwd := rfl
@[simp] theorem State.updCal_qcfg (f : Calendar → Calendar) : (s.updCal f).qcfg = s.qcfg := rfl
@[simp] theorem State.updCal_qm (f : Calendar → Calendar) : (s.updCal f).qm = s.qm := rfl
@[simp] theorem State.updCal_time (f : Calendar → Calendar) : (s.updCal f).time = s.time := rfl
@[simp] theorem State.updCal_trk (f : Calendar → Calendar) : (s.updCal f).trk = s.trk := rfl
@[simp] theorem State.updCal_delay (f : Calendar → Calendar) : (s.updCal f).delay = s.delay := rfl
@[simp] theorem State.updCal_slots (f : Calendar → Calendar) : (s.updCal f).slots = s.slots := rfl
@[simp] theorem State.updCal_side (f : Calendar → Calendar) : (s.updCal f).side = s.side := rfl
@[simp] theorem State.updCal_mon (f : Calendar → Calendar) : (s.updCal f).mon = s.mon := rfl
@[simp] theorem State.updCal_alarm (f : Calendar → Calendar) : (s.updCal f).alarm = s.alarm := rfl
@[simp] theorem State.updCal_agent (f : Calendar → Calendar) : (s.updCal f).agent = s.agent := rfl
@[simp] theorem State.updCal_out (f : Calendar → Calendar) : (s.updCal f).out = s.out := rfl
@[simp] theorem State.updCal_free (f : Calendar → Calendar) : (s.updCal f).free = s.free := rfl
@[simp] theorem State.updCal_cal (f : Calendar → Calendar) : (s.updCal f).cal = f s.cal := rfl

@[simp] theorem State.port_updCal (f : Calendar → Calendar) (j : Slot) : (s.updCal f).port j = s.port j := rfl
@[simp] theorem State.sq_updCal (f : Calendar → Calendar) (j : Slot) : (s.updCal f).sq j = s.sq j := rfl
@[simp] theorem State.queueConfig_updCal (f : Calendar → Calendar) (j : Slot) : (s.updCal f).queueConfig j = s.queueConfig j := rfl
@[simp] theorem State.flow_updCal (f : Calendar → Calendar) (j : Fin 255) : (s.updCal f).flow j = s.flow j := rfl
@[simp] theorem State.source_updCal (f : Calendar → Calendar) (j : Source) : (s.updCal f).source j = s.source j := rfl
@[simp] theorem State.slotDelay_updCal (f : Calendar → Calendar) (j : Slot) : (s.updCal f).slotDelay j = s.slotDelay j := rfl
@[simp] theorem State.slot_updCal (f : Calendar → Calendar) (j : Slot) : (s.updCal f).slot j = s.slot j := rfl
@[simp] theorem State.channel_updCal (f : Calendar → Calendar) (j : Channel) : (s.updCal f).channel j = s.channel j := rfl
@[simp] theorem State.point_updCal (f : Calendar → Calendar) (j : PointId) : (s.updCal f).point j = s.point j := rfl
@[simp] theorem State.input_updCal (f : Calendar → Calendar) (j : Fin 4) : (s.updCal f).input j = s.input j := rfl

/-! ### `setFreq` -/

@[simp] theorem State.setFreq_pending (f : Int) : (s.setFreq f).pending = s.pending := rfl
@[simp] theorem State.setFreq_ports (f : Int) : (s.setFreq f).ports = s.ports := rfl
@[simp] theorem State.setFreq_fwd (f : Int) : (s.setFreq f).fwd = s.fwd := rfl
@[simp] theorem State.setFreq_qcfg (f : Int) : (s.setFreq f).qcfg = s.qcfg := rfl
@[simp] theorem State.setFreq_qm (f : Int) : (s.setFreq f).qm = s.qm := rfl
@[simp] theorem State.setFreq_cal (f : Int) : (s.setFreq f).cal = s.cal := rfl
@[simp] theorem State.setFreq_trk (f : Int) : (s.setFreq f).trk = s.trk := rfl
@[simp] theorem State.setFreq_delay (f : Int) : (s.setFreq f).delay = s.delay := rfl
@[simp] theorem State.setFreq_slots (f : Int) : (s.setFreq f).slots = s.slots := rfl
@[simp] theorem State.setFreq_side (f : Int) : (s.setFreq f).side = s.side := rfl
@[simp] theorem State.setFreq_mon (f : Int) : (s.setFreq f).mon = s.mon := rfl
@[simp] theorem State.setFreq_alarm (f : Int) : (s.setFreq f).alarm = s.alarm := rfl
@[simp] theorem State.setFreq_agent (f : Int) : (s.setFreq f).agent = s.agent := rfl
@[simp] theorem State.setFreq_out (f : Int) : (s.setFreq f).out = s.out := rfl
@[simp] theorem State.setFreq_free (f : Int) : (s.setFreq f).free = s.free := rfl
@[simp] theorem State.setFreq_time (f : Int) : (s.setFreq f).time = { s.time with freq := f, increment := incrementOf f } := rfl

@[simp] theorem State.port_setFreq (f : Int) (j : Slot) : (s.setFreq f).port j = s.port j := rfl
@[simp] theorem State.sq_setFreq (f : Int) (j : Slot) : (s.setFreq f).sq j = s.sq j := rfl
@[simp] theorem State.queueConfig_setFreq (f : Int) (j : Slot) : (s.setFreq f).queueConfig j = s.queueConfig j := rfl
@[simp] theorem State.flow_setFreq (f : Int) (j : Fin 255) : (s.setFreq f).flow j = s.flow j := rfl
@[simp] theorem State.source_setFreq (f : Int) (j : Source) : (s.setFreq f).source j = s.source j := rfl
@[simp] theorem State.slotDelay_setFreq (f : Int) (j : Slot) : (s.setFreq f).slotDelay j = s.slotDelay j := rfl
@[simp] theorem State.slot_setFreq (f : Int) (j : Slot) : (s.setFreq f).slot j = s.slot j := rfl
@[simp] theorem State.channel_setFreq (f : Int) (j : Channel) : (s.setFreq f).channel j = s.channel j := rfl
@[simp] theorem State.point_setFreq (f : Int) (j : PointId) : (s.setFreq f).point j = s.point j := rfl
@[simp] theorem State.input_setFreq (f : Int) (j : Fin 4) : (s.setFreq f).input j = s.input j := rfl

/-! ### `emit` -/

@[simp] theorem State.emit_pending (o : Output) : (s.emit o).pending = s.pending := rfl
@[simp] theorem State.emit_ports (o : Output) : (s.emit o).ports = s.ports := rfl
@[simp] theorem State.emit_fwd (o : Output) : (s.emit o).fwd = s.fwd := rfl
@[simp] theorem State.emit_qcfg (o : Output) : (s.emit o).qcfg = s.qcfg := rfl
@[simp] theorem State.emit_qm (o : Output) : (s.emit o).qm = s.qm := rfl
@[simp] theorem State.emit_cal (o : Output) : (s.emit o).cal = s.cal := rfl
@[simp] theorem State.emit_time (o : Output) : (s.emit o).time = s.time := rfl
@[simp] theorem State.emit_trk (o : Output) : (s.emit o).trk = s.trk := rfl
@[simp] theorem State.emit_delay (o : Output) : (s.emit o).delay = s.delay := rfl
@[simp] theorem State.emit_slots (o : Output) : (s.emit o).slots = s.slots := rfl
@[simp] theorem State.emit_side (o : Output) : (s.emit o).side = s.side := rfl
@[simp] theorem State.emit_mon (o : Output) : (s.emit o).mon = s.mon := rfl
@[simp] theorem State.emit_alarm (o : Output) : (s.emit o).alarm = s.alarm := rfl
@[simp] theorem State.emit_agent (o : Output) : (s.emit o).agent = s.agent := rfl
@[simp] theorem State.emit_free (o : Output) : (s.emit o).free = s.free := rfl
@[simp] theorem State.emit_out (o : Output) : (s.emit o).out = s.out ++ [o] := rfl

@[simp] theorem State.port_emit (o : Output) (j : Slot) : (s.emit o).port j = s.port j := rfl
@[simp] theorem State.sq_emit (o : Output) (j : Slot) : (s.emit o).sq j = s.sq j := rfl
@[simp] theorem State.queueConfig_emit (o : Output) (j : Slot) : (s.emit o).queueConfig j = s.queueConfig j := rfl
@[simp] theorem State.flow_emit (o : Output) (j : Fin 255) : (s.emit o).flow j = s.flow j := rfl
@[simp] theorem State.source_emit (o : Output) (j : Source) : (s.emit o).source j = s.source j := rfl
@[simp] theorem State.slotDelay_emit (o : Output) (j : Slot) : (s.emit o).slotDelay j = s.slotDelay j := rfl
@[simp] theorem State.slot_emit (o : Output) (j : Slot) : (s.emit o).slot j = s.slot j := rfl
@[simp] theorem State.channel_emit (o : Output) (j : Channel) : (s.emit o).channel j = s.channel j := rfl
@[simp] theorem State.point_emit (o : Output) (j : PointId) : (s.emit o).point j = s.point j := rfl
@[simp] theorem State.input_emit (o : Output) (j : Fin 4) : (s.emit o).input j = s.input j := rfl

/-! ### `begin` -/

@[simp] theorem State.begin_pending : s.begin.pending = s.pending := rfl
@[simp] theorem State.begin_ports : s.begin.ports = s.ports := rfl
@[simp] theorem State.begin_fwd : s.begin.fwd = s.fwd := rfl
@[simp] theorem State.begin_qcfg : s.begin.qcfg = s.qcfg := rfl
@[simp] theorem State.begin_qm : s.begin.qm = s.qm := rfl
@[simp] theorem State.begin_cal : s.begin.cal = s.cal := rfl
@[simp] theorem State.begin_time : s.begin.time = s.time := rfl
@[simp] theorem State.begin_trk : s.begin.trk = s.trk := rfl
@[simp] theorem State.begin_delay : s.begin.delay = s.delay := rfl
@[simp] theorem State.begin_slots : s.begin.slots = s.slots := rfl
@[simp] theorem State.begin_side : s.begin.side = s.side := rfl
@[simp] theorem State.begin_mon : s.begin.mon = s.mon := rfl
@[simp] theorem State.begin_alarm : s.begin.alarm = s.alarm := rfl
@[simp] theorem State.begin_agent : s.begin.agent = s.agent := rfl
@[simp] theorem State.begin_free : s.begin.free = s.free := rfl
@[simp] theorem State.begin_out : s.begin.out = [] := rfl

@[simp] theorem State.port_begin (j : Slot) : s.begin.port j = s.port j := rfl
@[simp] theorem State.sq_begin (j : Slot) : s.begin.sq j = s.sq j := rfl
@[simp] theorem State.queueConfig_begin (j : Slot) : s.begin.queueConfig j = s.queueConfig j := rfl
@[simp] theorem State.flow_begin (j : Fin 255) : s.begin.flow j = s.flow j := rfl
@[simp] theorem State.source_begin (j : Source) : s.begin.source j = s.source j := rfl
@[simp] theorem State.slotDelay_begin (j : Slot) : s.begin.slotDelay j = s.slotDelay j := rfl
@[simp] theorem State.slot_begin (j : Slot) : s.begin.slot j = s.slot j := rfl
@[simp] theorem State.channel_begin (j : Channel) : s.begin.channel j = s.channel j := rfl
@[simp] theorem State.point_begin (j : PointId) : s.begin.point j = s.point j := rfl
@[simp] theorem State.input_begin (j : Fin 4) : s.begin.input j = s.input j := rfl

/-! ### `drawn` -/

@[simp] theorem State.drawn_pending : s.drawn.pending = s.pending := rfl
@[simp] theorem State.drawn_ports : s.drawn.ports = s.ports := rfl
@[simp] theorem State.drawn_fwd : s.drawn.fwd = s.fwd := rfl
@[simp] theorem State.drawn_qcfg : s.drawn.qcfg = s.qcfg := rfl
@[simp] theorem State.drawn_qm : s.drawn.qm = s.qm := rfl
@[simp] theorem State.drawn_cal : s.drawn.cal = s.cal := rfl
@[simp] theorem State.drawn_time : s.drawn.time = s.time := rfl
@[simp] theorem State.drawn_trk : s.drawn.trk = s.trk := rfl
@[simp] theorem State.drawn_delay : s.drawn.delay = s.delay := rfl
@[simp] theorem State.drawn_slots : s.drawn.slots = s.slots := rfl
@[simp] theorem State.drawn_side : s.drawn.side = s.side := rfl
@[simp] theorem State.drawn_mon : s.drawn.mon = s.mon := rfl
@[simp] theorem State.drawn_alarm : s.drawn.alarm = s.alarm := rfl
@[simp] theorem State.drawn_agent : s.drawn.agent = s.agent := rfl
@[simp] theorem State.drawn_out : s.drawn.out = s.out := rfl
@[simp] theorem State.drawn_free : s.drawn.free = s.free + 1 := rfl

@[simp] theorem State.port_drawn (j : Slot) : s.drawn.port j = s.port j := rfl
@[simp] theorem State.sq_drawn (j : Slot) : s.drawn.sq j = s.sq j := rfl
@[simp] theorem State.queueConfig_drawn (j : Slot) : s.drawn.queueConfig j = s.queueConfig j := rfl
@[simp] theorem State.flow_drawn (j : Fin 255) : s.drawn.flow j = s.flow j := rfl
@[simp] theorem State.source_drawn (j : Source) : s.drawn.source j = s.source j := rfl
@[simp] theorem State.slotDelay_drawn (j : Slot) : s.drawn.slotDelay j = s.slotDelay j := rfl
@[simp] theorem State.slot_drawn (j : Slot) : s.drawn.slot j = s.slot j := rfl
@[simp] theorem State.channel_drawn (j : Channel) : s.drawn.channel j = s.channel j := rfl
@[simp] theorem State.point_drawn (j : PointId) : s.drawn.point j = s.point j := rfl
@[simp] theorem State.input_drawn (j : Fin 4) : s.drawn.input j = s.input j := rfl

end Sys2Proof.Machine
end

