-- ==== Sys2Proof/Laws/Frames.lean ====
section
/-! SUPPORT. Frames: for each shared operation the parts of the state that it may change. A part outside the list is
the same after the operation as before it, which `OnlyChanges.same` turns into an equation. -/

namespace Sys2Proof.Machine

/-! ### The calculus of frames -/

theorem OnlyChanges.refl {ps : List Part} (s : State) : OnlyChanges ps s s := fun p => .inr (by cases p <;> rfl)

theorem Part.Same.trans {p : Part} {s t u : State} (h : p.Same s t) (k : p.Same t u) : p.Same s u := by
  cases p <;> exact Eq.trans k h

/-- Two changes in a row. -/
theorem OnlyChanges.seq {ps : List Part} {s t u : State} (h : OnlyChanges ps s t) (k : OnlyChanges ps t u) :
    OnlyChanges ps s u := fun p => by
  rcases h p with h | h
  · exact .inl h
  · exact (k p).imp id fun k => h.trans k

/-- A frame with more parts allowed to change. -/
theorem OnlyChanges.weaken {ps qs : List Part} {s t : State} (h : OnlyChanges ps s t)
    (sub : (ps.all fun p => qs.contains p) = true) : OnlyChanges qs s t := fun p => by
  rcases h p with h | h
  · exact .inl (by simpa using List.all_eq_true.1 sub p h)
  · exact .inr h

/-- A change after others. -/
theorem OnlyChanges.after {ps rs : List Part} {s t u : State} (k : OnlyChanges ps t u) (h : OnlyChanges rs s t)
    (sub : (ps.all fun p => rs.contains p) = true) : OnlyChanges rs s u := h.seq (k.weaken sub)

/-- A part outside the list is the same. -/
theorem OnlyChanges.same {ps : List Part} {s t : State} (h : OnlyChanges ps s t) (p : Part)
    (out : ps.contains p = false) : p.Same s t :=
  (h p).resolve_left fun m => by simp [m] at out

/-- An operation repeated over a list. -/
theorem OnlyChanges.forEach {α : Type} {ps : List Part} {f : α → State → State} (h : ∀ a t, OnlyChanges ps t (f a t))
    (xs : List α) (s : State) : OnlyChanges ps s (forEach xs f s) := by
  unfold Machine.forEach
  induction xs generalizing s with
  | nil => exact .refl s
  | cons x xs ih => exact .seq (h x s) (ih _)

/-- An operation repeated over the slots. -/
theorem OnlyChanges.forSlots {ps : List Part} {f : Slot → State → State} (h : ∀ n t, OnlyChanges ps t (f n t))
    (s : State) : OnlyChanges ps s (forSlots f s) := OnlyChanges.forEach h allSlots s

/-! ### The parts that the blocks' operations reach -/

/-- What freeing cells reaches: the frames, and the pauses that follow them. -/
def pauseParts : List Part := [.ports, .qm, .out]

/-- What a response of the agent reaches. -/
def agentParts : List Part := [.ports, .qm, .delay, .agent, .out]

/-- What an answer to a request reaches: a response, and where its payload is empty a free value. -/
def answerParts : List Part := [.ports, .qm, .delay, .agent, .out, .free]

/-- What a notice reaches: the alarm unit, and the waits that it completes. -/
def noticeParts : List Part := [.ports, .qm, .delay, .alarm, .agent, .out]

/-- What a change of the suspension sets reaches. -/
def flowParts : List Part := [.ports, .fwd, .qm, .delay, .alarm, .agent, .out]

/-- What a change of a port's reported width reaches. -/
def widthParts : List Part := [.ports, .fwd, .qm, .delay, .slots, .alarm, .agent, .out]

/-- What a change of the timing state reaches. -/
def timingParts : List Part := [.ports, .fwd, .qm, .time, .trk, .delay, .alarm, .agent, .out]

/-- What an event of a source reaches, a phase step included. -/
def eventParts : List Part := [.ports, .fwd, .qm, .cal, .time, .trk, .delay, .mon, .alarm, .agent, .out]

/-- What a slot state change reaches. -/
def slotParts : List Part := [.ports, .fwd, .qm, .time, .trk, .delay, .slots, .side, .mon, .alarm, .agent, .out]

/-! ### Updates of one part -/

theorem with_pending_changes (s : State) (x : List Instr) : OnlyChanges [.pending] s { s with pending := x } := fun q => by
  cases q <;> first | exact .inl (by decide) | exact .inr rfl

theorem with_ports_changes (s : State) (x : PerSlot Port) : OnlyChanges [.ports] s { s with ports := x } := fun q => by
  cases q <;> first | exact .inl (by decide) | exact .inr rfl

theorem with_fwd_changes (s : State) (x : Forwarding) : OnlyChanges [.fwd] s { s with fwd := x } := fun q => by
  cases q <;> first | exact .inl (by decide) | exact .inr rfl

theorem with_qcfg_changes (s : State) (x : PerSlot QueueConfig) : OnlyChanges [.qcfg] s { s with qcfg := x } := fun q => by
  cases q <;> first | exact .inl (by decide) | exact .inr rfl

theorem with_qm_changes (s : State) (x : QueueManager) : OnlyChanges [.qm] s { s with qm := x } := fun q => by
  cases q <;> first | exact .inl (by decide) | exact .inr rfl

theorem with_cal_changes (s : State) (x : Calendar) : OnlyChanges [.cal] s { s with cal := x } := fun q => by
  cases q <;> first | exact .inl (by decide) | exact .inr rfl

theorem with_time_changes (s : State) (x : TimeBase) : OnlyChanges [.time] s { s with time := x } := fun q => by
  cases q <;> first | exact .inl (by decide) | exact .inr rfl

theorem with_trk_changes (s : State) (x : Tracker) : OnlyChanges [.trk] s { s with trk := x } := fun q => by
  cases q <;> first | exact .inl (by decide) | exact .inr rfl

theorem with_delay_changes (s : State) (x : DelayUnit) : OnlyChanges [.delay] s { s with delay := x } := fun q => by
  cases q <;> first | exact .inl (by decide) | exact .inr rfl

theorem with_slots_changes (s : State) (x : SlotController) : OnlyChanges [.slots] s { s with slots := x } := fun q => by
  cases q <;> first | exact .inl (by decide) | exact .inr rfl

theorem with_side_changes (s : State) (x : Sideband) : OnlyChanges [.side] s { s with side := x } := fun q => by
  cases q <;> first | exact .inl (by decide) | exact .inr rfl

theorem with_mon_changes (s : State) (x : Monitor) : OnlyChanges [.mon] s { s with mon := x } := fun q => by
  cases q <;> first | exact .inl (by decide) | exact .inr rfl

theorem with_alarm_changes (s : State) (x : AlarmUnit) : OnlyChanges [.alarm] s { s with alarm := x } := fun q => by
  cases q <;> first | exact .inl (by decide) | exact .inr rfl

theorem with_agent_changes (s : State) (x : Agent) : OnlyChanges [.agent] s { s with agent := x } := fun q => by
  cases q <;> first | exact .inl (by decide) | exact .inr rfl

theorem with_out_changes (s : State) (x : List Output) : OnlyChanges [.out] s { s with out := x } := fun q => by
  cases q <;> first | exact .inl (by decide) | exact .inr rfl

theorem with_free_changes (s : State) (x : Nat) : OnlyChanges [.free] s { s with free := x } := fun q => by
  cases q <;> first | exact .inl (by decide) | exact .inr rfl

theorem updPort_changes (p : Slot) (f : Port → Port) (s : State) : OnlyChanges [.ports] s (s.updPort p f) := with_ports_changes _ _

theorem updSq_changes (p : Slot) (f : SlotQueues → SlotQueues) (s : State) : OnlyChanges [.qm] s (s.updSq p f) := with_qm_changes _ _

theorem updQueueConfig_changes (n : Slot) (f : QueueConfig → QueueConfig) (s : State) : OnlyChanges [.qcfg] s (s.updQueueConfig n f) := with_qcfg_changes _ _

theorem updFlow_changes (i : Fin 255) (f : Flow → Flow) (s : State) : OnlyChanges [.fwd] s (s.updFlow i f) := with_fwd_changes _ _

theorem updDrops_changes (n : Slot) (f : DropCounters → DropCounters) (s : State) : OnlyChanges [.fwd] s (s.updDrops n f) := with_fwd_changes _ _

theorem updSource_changes (src : Source) (f : SourceRecord → SourceRecord) (s : State) : OnlyChanges [.trk] s (s.updSource src f) := by
  cases src <;> exact with_trk_changes _ _

theorem updTrk_changes (f : Tracker → Tracker) (s : State) : OnlyChanges [.trk] s (s.updTrk f) := with_trk_changes _ _

theorem updDelay_changes (n : Slot) (f : SlotDelay → SlotDelay) (s : State) : OnlyChanges [.delay] s (s.updDelay n f) := with_delay_changes _ _

theorem updSlot_changes (n : Slot) (f : SlotRecord → SlotRecord) (s : State) : OnlyChanges [.slots] s (s.updSlot n f) := with_slots_changes _ _

theorem updChannel_changes (c : Channel) (f : ChannelRecord → ChannelRecord) (s : State) : OnlyChanges [.mon] s (s.updChannel c f) := with_mon_changes _ _

theorem updInput_changes (i : Fin 4) (f : ExtInput → ExtInput) (s : State) : OnlyChanges [.alarm] s (s.updInput i f) := with_alarm_changes _ _

theorem updAlarm_changes (f : AlarmUnit → AlarmUnit) (s : State) : OnlyChanges [.alarm] s (s.updAlarm f) := with_alarm_changes _ _

theorem updAgent_changes (f : Agent → Agent) (s : State) : OnlyChanges [.agent] s (s.updAgent f) := with_agent_changes _ _

theorem updMon_changes (f : Monitor → Monitor) (s : State) : OnlyChanges [.mon] s (s.updMon f) := with_mon_changes _ _

theorem updSide_changes (f : Sideband → Sideband) (s : State) : OnlyChanges [.side] s (s.updSide f) := with_side_changes _ _

theorem updCal_changes (f : Calendar → Calendar) (s : State) : OnlyChanges [.cal] s (s.updCal f) := with_cal_changes _ _

theorem setFreq_changes (f : Int) (s : State) : OnlyChanges [.time] s (s.setFreq f) := with_time_changes _ _

theorem emit_changes (o : Output) (s : State) : OnlyChanges [.out] s (s.emit o) := with_out_changes _ _

theorem begin_changes (s : State) : OnlyChanges [.out] s s.begin := with_out_changes _ _

theorem drawn_changes (s : State) : OnlyChanges [.free] s s.drawn := with_free_changes _ _

/-! ### The queue manager and the arbiter -/

theorem setPauseAsserted_changes (p : Slot) (b : Bool) (s : State) :
    OnlyChanges [.ports, .out] s (setPauseAsserted p b s) := by
  unfold setPauseAsserted
  try dsimp only
  repeat' first
    | with_reducible apply OnlyChanges.refl
    | exact Eq.refl true
    | with_reducible apply OnlyChanges.after (updPort_changes _ _ _)
    | with_reducible apply OnlyChanges.after (emit_changes _ _)
    | split

theorem setPaused_changes (n : Slot) (b : Bool) (s : State) : OnlyChanges pauseParts s (setPaused n b s) := by
  unfold setPaused
  try dsimp only
  repeat' first
    | with_reducible apply OnlyChanges.refl
    | exact Eq.refl true
    | with_reducible apply OnlyChanges.after (updSq_changes _ _ _)
    | with_reducible apply OnlyChanges.after (setPauseAsserted_changes _ _ _)
    | split

theorem reexaminePause_changes (n : Slot) (s : State) : OnlyChanges pauseParts s (reexaminePause n s) := by
  unfold reexaminePause
  try dsimp only
  repeat' first
    | with_reducible apply OnlyChanges.refl
    | exact Eq.refl true
    | with_reducible apply OnlyChanges.after (setPaused_changes _ _ _)
    | split

theorem updFrame_changes (id : Nat) (f : StoredFrame → StoredFrame) (s : State) :
    OnlyChanges [.qm] s (updFrame id f s) := by
  unfold updFrame
  try dsimp only
  repeat' first
    | with_reducible apply OnlyChanges.refl
    | exact Eq.refl true
    | with_reducible apply OnlyChanges.after (with_qm_changes _ _)
    | split

theorem freeFrame_changes (f : StoredFrame) (s : State) : OnlyChanges pauseParts s (freeFrame f s) := by
  unfold freeFrame
  have h : OnlyChanges pauseParts s { s with qm := { s.qm with frames := s.qm.frames.filter fun g => g.id != f.id } } :=
    (with_qm_changes _ _).weaken rfl
  split
  · split
    · exact h
    · exact h.seq (reexaminePause_changes _ _)
  · exact h

theorem release_changes (id : Nat) (s : State) : OnlyChanges pauseParts s (release id s) := by
  unfold release
  try dsimp only
  repeat' first
    | with_reducible apply OnlyChanges.refl
    | exact Eq.refl true
    | with_reducible apply OnlyChanges.after (updFrame_changes _ _ _)
    | with_reducible apply OnlyChanges.after (freeFrame_changes _ _)
    | split

theorem probeSent_changes (n : Slot) (seq : Byte) (t : Stamp) (s : State) :
    OnlyChanges [.delay] s (probeSent n seq t s) := by
  unfold probeSent
  try dsimp only
  repeat' first
    | with_reducible apply OnlyChanges.refl
    | exact Eq.refl true
    | with_reducible apply OnlyChanges.after (updDelay_changes _ _ _)
    | split

theorem reportEgress_changes (b : FrameBody) (s : State) : OnlyChanges [.delay] s (reportEgress b s) := by
  unfold reportEgress
  try dsimp only
  repeat' first
    | with_reducible apply OnlyChanges.refl
    | exact Eq.refl true
    | with_reducible apply OnlyChanges.after (probeSent_changes _ _ _ _)
    | split

theorem startFrame_changes (p : Slot) (c : FrameClass) (s : State) :
    OnlyChanges sendingParts s (startFrame p c s) := by
  unfold startFrame
  try dsimp only
  repeat' first
    | with_reducible apply OnlyChanges.refl
    | exact Eq.refl true
    | with_reducible apply OnlyChanges.after (updPort_changes _ _ _)
    | with_reducible apply OnlyChanges.after (updSq_changes _ _ _)
    | with_reducible apply OnlyChanges.after (emit_changes _ _)
    | with_reducible apply OnlyChanges.after (reportEgress_changes _ _)
    | split

theorem arbitrate_changes (p : Slot) (s : State) : OnlyChanges sendingParts s (arbitrate p s) := by
  unfold arbitrate
  try dsimp only
  repeat' first
    | with_reducible apply OnlyChanges.refl
    | exact Eq.refl true
    | with_reducible apply OnlyChanges.after (startFrame_changes _ _ _)
    | split

theorem discardCopy_changes (p : Slot) (id : Nat) (s : State) : OnlyChanges pauseParts s (discardCopy p id s) := by
  unfold discardCopy
  try dsimp only
  repeat' first
    | with_reducible apply OnlyChanges.refl
    | exact Eq.refl true
    | with_reducible apply OnlyChanges.after (updSq_changes _ _ _)
    | with_reducible apply OnlyChanges.after (release_changes _ _)
    | split

theorem flushAll_changes (p : Slot) (s : State) : OnlyChanges pauseParts s (flushAll p s) := by
  unfold flushAll
  try dsimp only
  repeat' first
    | with_reducible apply OnlyChanges.refl
    | exact Eq.refl true
    | with_reducible apply OnlyChanges.after (updSq_changes _ _ _)
    | with_reducible apply OnlyChanges.after (discardCopy_changes _ _ _)
    | with_reducible apply OnlyChanges.after (OnlyChanges.forEach (discardCopy_changes _) _ _)
    | split

theorem flushSample_changes (p : Slot) (s : State) : OnlyChanges pauseParts s (flushSample p s) := by
  unfold flushSample
  try dsimp only
  repeat' first
    | with_reducible apply OnlyChanges.refl
    | exact Eq.refl true
    | with_reducible apply OnlyChanges.after (updSq_changes _ _ _)
    | with_reducible apply OnlyChanges.after (discardCopy_changes _ _ _)
    | with_reducible apply OnlyChanges.after (OnlyChanges.forEach (discardCopy_changes _) _ _)
    | split

theorem countDiscard_changes (p : Slot) (s : State) : OnlyChanges [.qm] s (countDiscard p s) := by
  unfold countDiscard
  try dsimp only
  repeat' first
    | with_reducible apply OnlyChanges.refl
    | exact Eq.refl true
    | with_reducible apply OnlyChanges.after (updSq_changes _ _ _)
    | split

theorem markExhaustion_changes (s : State) : OnlyChanges [.qm] s (markExhaustion s) := by
  unfold markExhaustion
  try dsimp only
  repeat' first
    | with_reducible apply OnlyChanges.refl
    | exact Eq.refl true
    | with_reducible apply OnlyChanges.after (with_qm_changes _ _)
    | split

theorem countRefusal_changes (p : Slot) (s : State) : OnlyChanges [.qm] s (countRefusal p s) := by
  unfold countRefusal
  try dsimp only
  repeat' first
    | with_reducible apply OnlyChanges.refl
    | exact Eq.refl true
    | with_reducible apply OnlyChanges.after (updSq_changes _ _ _)
    | with_reducible apply OnlyChanges.after (markExhaustion_changes _)
    | split

theorem storeFrame_changes (body : FrameBody) (c : FrameClass) (cells : Nat) (ports : List Slot) (s : State) :
    OnlyChanges [.qm] s (storeFrame body c cells ports s) :=
  (with_qm_changes s _).seq (.forEach (fun p u => updSq_changes p _ u) _ _)

theorem admitHub_changes (h : HubFrame) (s : State) : OnlyChanges sendingParts s (admitHub h s) := by
  unfold admitHub
  try dsimp only
  repeat' first
    | with_reducible apply OnlyChanges.refl
    | exact Eq.refl true
    | with_reducible apply OnlyChanges.after (arbitrate_changes _ _)
    | with_reducible apply OnlyChanges.after (storeFrame_changes _ _ _ _ _)
    | split

theorem offerHub_changes (h : HubFrame) (s : State) : OnlyChanges sendingParts s (offerHub h s) := by
  unfold offerHub
  try dsimp only
  repeat' first
    | with_reducible apply OnlyChanges.refl
    | exact Eq.refl true
    | with_reducible apply OnlyChanges.after (countDiscard_changes _ _)
    | with_reducible apply OnlyChanges.after (admitHub_changes _ _)
    | split

theorem joinWaiting_changes (m : Maker) (s : State) : OnlyChanges [.qm] s (joinWaiting m s) := by
  unfold joinWaiting
  split
  · exact .refl _
  · exact with_qm_changes _ _

theorem withdrawMaker_changes (m : Maker) (s : State) : OnlyChanges [.qm] s (withdrawMaker m s) := by
  unfold withdrawMaker
  try dsimp only
  repeat' first
    | with_reducible apply OnlyChanges.refl
    | exact Eq.refl true
    | with_reducible apply OnlyChanges.after (with_qm_changes _ _)
    | split

theorem startTest_changes (p : Slot) (s : State) : OnlyChanges [.ports, .out] s (startTest p s) := by
  unfold startTest
  try dsimp only
  repeat' first
    | with_reducible apply OnlyChanges.refl
    | exact Eq.refl true
    | with_reducible apply OnlyChanges.after (updPort_changes _ _ _)
    | with_reducible apply OnlyChanges.after (emit_changes _ _)
    | split

theorem buildTest_changes (p : Slot) (s : State) : OnlyChanges [.ports] s (buildTest p s) := by
  unfold buildTest
  try dsimp only
  repeat' first
    | with_reducible apply OnlyChanges.refl
    | exact Eq.refl true
    | with_reducible apply OnlyChanges.after (updPort_changes _ _ _)
    | split

theorem buildTests_changes (k : Nat) (p : Slot) (s : State) : OnlyChanges [.ports, .qm] s (buildTests k p s) := by
  induction k generalizing s with
  | zero => exact .refl _
  | succ k ih =>
    unfold buildTests; split
    · split
      · exact .seq ((buildTest_changes _ _).weaken rfl) (ih _)
      · exact (joinWaiting_changes _ _).weaken rfl
    · exact .refl _

/-! ### The agent -/

theorem sendResponse_changes (r : Response) (s : State) : OnlyChanges agentParts s (sendResponse r s) := by
  unfold sendResponse
  try dsimp only
  repeat' first
    | with_reducible apply OnlyChanges.refl
    | exact Eq.refl true
    | with_reducible apply OnlyChanges.after (updAgent_changes _ _)
    | with_reducible apply OnlyChanges.after (countDiscard_changes _ _)
    | with_reducible apply OnlyChanges.after (admitHub_changes _ _)
    | split

theorem makeResponse_changes (kind : ResponseKind) (dest : Slot) (seq : Byte) (payload : List Byte) (s : State) :
    OnlyChanges agentParts s (makeResponse kind dest seq payload s) := by
  unfold makeResponse
  try dsimp only
  repeat' first
    | with_reducible apply OnlyChanges.refl
    | exact Eq.refl true
    | with_reducible apply OnlyChanges.after (updAgent_changes _ _)
    | with_reducible apply OnlyChanges.after (joinWaiting_changes _ _)
    | with_reducible apply OnlyChanges.after (sendResponse_changes _ _)
    | split

theorem grantAgent_changes (s : State) : OnlyChanges agentParts s (grantAgent s) := by
  unfold grantAgent
  try dsimp only
  repeat' first
    | with_reducible apply OnlyChanges.refl
    | exact Eq.refl true
    | with_reducible apply OnlyChanges.after (updAgent_changes _ _)
    | with_reducible apply OnlyChanges.after (joinWaiting_changes _ _)
    | with_reducible apply OnlyChanges.after (withdrawMaker_changes _ _)
    | with_reducible apply OnlyChanges.after (sendResponse_changes _ _)
    | split

theorem withdrawResponses_changes (n : Slot) (s : State) : OnlyChanges [.qm, .agent] s (withdrawResponses n s) := by
  unfold withdrawResponses
  try dsimp only
  repeat' first
    | with_reducible apply OnlyChanges.refl
    | exact Eq.refl true
    | with_reducible apply OnlyChanges.after (updAgent_changes _ _)
    | with_reducible apply OnlyChanges.after (joinWaiting_changes _ _)
    | with_reducible apply OnlyChanges.after (withdrawMaker_changes _ _)
    | split

theorem answer_changes (kind : ResponseKind) (r : Request) (status : Status) (results : List Byte) (s : State) :
    OnlyChanges answerParts s (answer kind r status results s) := by
  unfold answer
  try dsimp only
  repeat' first
    | with_reducible apply OnlyChanges.refl
    | exact Eq.refl true
    | with_reducible apply OnlyChanges.after (drawn_changes _)
    | with_reducible apply OnlyChanges.after (makeResponse_changes _ _ _ _ _)
    | split

theorem addInFlight_changes (kind : InFlightKind) (r : Request) (s : State) :
    OnlyChanges [.agent] s (addInFlight kind r s) := by
  unfold addInFlight
  try dsimp only
  repeat' first
    | with_reducible apply OnlyChanges.refl
    | exact Eq.refl true
    | with_reducible apply OnlyChanges.after (updAgent_changes _ _)
    | split

theorem complete_changes (record : Nat) (status : Status) (results : List Byte) (s : State) :
    OnlyChanges agentParts s (complete record status results s) := by
  unfold complete
  try dsimp only
  repeat' first
    | with_reducible apply OnlyChanges.refl
    | exact Eq.refl true
    | with_reducible apply OnlyChanges.after (updAgent_changes _ _)
    | with_reducible apply OnlyChanges.after (makeResponse_changes _ _ _ _ _)
    | split

theorem dropController_changes (n : Slot) (s : State) : OnlyChanges [.agent] s (dropController n s) := by
  unfold dropController
  try dsimp only
  repeat' first
    | with_reducible apply OnlyChanges.refl
    | exact Eq.refl true
    | with_reducible apply OnlyChanges.after (updAgent_changes _ _)
    | split

theorem acceptRequest_changes (r : Request) (s : State) : OnlyChanges answerParts s (acceptRequest r s) := by
  unfold acceptRequest
  try dsimp only
  repeat' first
    | with_reducible apply OnlyChanges.refl
    | exact Eq.refl true
    | with_reducible apply OnlyChanges.after (updAgent_changes _ _)
    | with_reducible apply OnlyChanges.after (answer_changes _ _ _ _ _)
    | split

/-! ### The alarm unit -/

theorem setRelays_changes (s : State) : OnlyChanges [.alarm] s (setRelays s) := by
  unfold setRelays
  try dsimp only
  repeat' first
    | with_reducible apply OnlyChanges.refl
    | exact Eq.refl true
    | with_reducible apply OnlyChanges.after (updAlarm_changes _ _)
    | split

theorem movePoint_changes (id : PointId) (new : Point) (s : State) : OnlyChanges [.alarm] s (movePoint id new s) := by
  unfold movePoint
  try dsimp only
  repeat' first
    | with_reducible apply OnlyChanges.refl
    | exact Eq.refl true
    | with_reducible apply OnlyChanges.after (updAlarm_changes _ _)
    | with_reducible apply OnlyChanges.after (setRelays_changes _)
    | split

theorem pendNotice_changes (n : Notice) (s : State) : OnlyChanges [.alarm] s (pendNotice n s) := by
  unfold pendNotice
  try dsimp only
  repeat' first
    | with_reducible apply OnlyChanges.refl
    | exact Eq.refl true
    | with_reducible apply OnlyChanges.after (updAlarm_changes _ _)
    | split

theorem completeWait_changes (w : Wait) (ns : List Notice) (s : State) :
    OnlyChanges noticeParts s (completeWait w ns s) := by
  unfold completeWait
  try dsimp only
  repeat' first
    | with_reducible apply OnlyChanges.refl
    | exact Eq.refl true
    | with_reducible apply OnlyChanges.after (updAlarm_changes _ _)
    | with_reducible apply OnlyChanges.after (complete_changes _ _ _ _)
    | split

theorem deliver_changes (ws : List Wait) (ns : List Notice) (s : State) :
    OnlyChanges noticeParts s (deliver ws ns s) := by
  induction ws generalizing ns s with
  | nil => exact .forEach (fun n t => (pendNotice_changes n t).weaken rfl) _ _
  | cons w ws ih =>
    unfold deliver; split
    · exact .refl _
    · exact .seq ((completeWait_changes _ _ _).weaken rfl) (ih _ _)

theorem produce_changes (bodies : List NoticeBody) (s : State) : OnlyChanges noticeParts s (produce bodies s) := by
  unfold produce
  try dsimp only
  repeat' first
    | with_reducible apply OnlyChanges.refl
    | exact Eq.refl true
    | with_reducible apply OnlyChanges.after (updAlarm_changes _ _)
    | with_reducible apply OnlyChanges.after (deliver_changes _ _ _)
    | split

theorem changePoint_changes (id : PointId) (new : Point) (s : State) :
    OnlyChanges noticeParts s (changePoint id new s) := by
  unfold changePoint
  try dsimp only
  repeat' first
    | with_reducible apply OnlyChanges.refl
    | exact Eq.refl true
    | with_reducible apply OnlyChanges.after (movePoint_changes _ _ _)
    | with_reducible apply OnlyChanges.after (produce_changes _ _)
    | split

theorem samplePoint_changes (id : PointId) (b : Bool) (s : State) :
    OnlyChanges noticeParts s (samplePoint id b s) := by
  unfold samplePoint
  try dsimp only
  repeat' first
    | with_reducible apply OnlyChanges.refl
    | exact Eq.refl true
    | with_reducible apply OnlyChanges.after (changePoint_changes _ _ _)
    | split

theorem reportCondition_changes (id : PointId) (b : Bool) (s : State) :
    OnlyChanges noticeParts s (reportCondition id b s) := by
  unfold reportCondition
  try dsimp only
  repeat' first
    | with_reducible apply OnlyChanges.refl
    | exact Eq.refl true
    | with_reducible apply OnlyChanges.after (changePoint_changes _ _ _)
    | split

theorem occurPoint_changes (id : PointId) (s : State) : OnlyChanges noticeParts s (occurPoint id s) := by
  unfold occurPoint
  try dsimp only
  repeat' first
    | with_reducible apply OnlyChanges.refl
    | exact Eq.refl true
    | with_reducible apply OnlyChanges.after (changePoint_changes _ _ _)
    | split

theorem alarmTiming_changes (state : TimingState) (selected : Option Source) (s : State) :
    OnlyChanges noticeParts s (alarmTiming state selected s) := by
  unfold alarmTiming
  try dsimp only
  repeat' first
    | with_reducible apply OnlyChanges.refl
    | exact Eq.refl true
    | with_reducible apply OnlyChanges.after (movePoint_changes _ _ _)
    | with_reducible apply OnlyChanges.after (produce_changes _ _)
    | split

theorem makeAck_changes (dest : Slot) (result : MailResult) (answers : Byte) (s : State) :
    OnlyChanges [.ports, .qm, .delay, .alarm, .out, .free] s (makeAck dest result answers s) := by
  unfold makeAck
  try dsimp only
  repeat' first
    | with_reducible apply OnlyChanges.refl
    | exact Eq.refl true
    | with_reducible apply OnlyChanges.after (updAlarm_changes _ _)
    | with_reducible apply OnlyChanges.after (drawn_changes _)
    | with_reducible apply OnlyChanges.after (offerHub_changes _ _)
    | with_reducible apply OnlyChanges.after (joinWaiting_changes _ _)
    | split

theorem grantAlarm_changes (s : State) : OnlyChanges [.ports, .qm, .delay, .alarm, .out] s (grantAlarm s) := by
  unfold grantAlarm
  try dsimp only
  repeat' first
    | with_reducible apply OnlyChanges.refl
    | exact Eq.refl true
    | with_reducible apply OnlyChanges.after (updAlarm_changes _ _)
    | with_reducible apply OnlyChanges.after (offerHub_changes _ _)
    | with_reducible apply OnlyChanges.after (joinWaiting_changes _ _)
    | with_reducible apply OnlyChanges.after (withdrawMaker_changes _ _)
    | split

theorem withdrawAcks_changes (n : Slot) (s : State) : OnlyChanges [.qm, .alarm] s (withdrawAcks n s) := by
  unfold withdrawAcks
  try dsimp only
  repeat' first
    | with_reducible apply OnlyChanges.refl
    | exact Eq.refl true
    | with_reducible apply OnlyChanges.after (updAlarm_changes _ _)
    | with_reducible apply OnlyChanges.after (joinWaiting_changes _ _)
    | with_reducible apply OnlyChanges.after (withdrawMaker_changes _ _)
    | split

theorem takeMail_changes (n : Slot) (seq : Byte) (payload : List Byte) (s : State) :
    OnlyChanges [.ports, .qm, .delay, .alarm, .agent, .out, .free] s (takeMail n seq payload s) := by
  unfold takeMail
  try dsimp only
  repeat' first
    | with_reducible apply OnlyChanges.refl
    | exact Eq.refl true
    | with_reducible apply OnlyChanges.after (updAlarm_changes _ _)
    | with_reducible apply OnlyChanges.after (produce_changes _ _)
    | with_reducible apply OnlyChanges.after (makeAck_changes _ _ _ _)
    | split

/-! ### The flow table -/

theorem reexamineFlows_changes (s : State) : OnlyChanges noticeParts s (reexamineFlows s) := by
  unfold reexamineFlows
  try dsimp only
  repeat' first
    | with_reducible apply OnlyChanges.refl
    | exact Eq.refl true
    | with_reducible apply OnlyChanges.after (reportCondition_changes _ _ _)
    | split

theorem resuspendFlows_changes (g : FlowRecord → Suspension → Suspension) (s : State) :
    OnlyChanges flowParts s (resuspendFlows g s) := by
  unfold resuspendFlows
  try dsimp only
  repeat' first
    | with_reducible apply OnlyChanges.refl
    | exact Eq.refl true
    | with_reducible apply OnlyChanges.after (reexamineFlows_changes _)
    | with_reducible apply OnlyChanges.after (with_fwd_changes _ _)
    | split

theorem flowsSlotChange_changes (n : Slot) (active : Bool) (s : State) :
    OnlyChanges flowParts s (flowsSlotChange n active s) := by
  unfold flowsSlotChange
  try dsimp only
  repeat' first
    | with_reducible apply OnlyChanges.refl
    | exact Eq.refl true
    | with_reducible apply OnlyChanges.after (resuspendFlows_changes _ _)
    | split

theorem flowsTimingChange_changes (old new : TimingState) (s : State) :
    OnlyChanges flowParts s (flowsTimingChange old new s) := by
  unfold flowsTimingChange
  try dsimp only
  repeat' first
    | with_reducible apply OnlyChanges.refl
    | exact Eq.refl true
    | with_reducible apply OnlyChanges.after (resuspendFlows_changes _ _)
    | split

theorem evaluateFit_changes (s : State) : OnlyChanges flowParts s (evaluateFit s) := by
  unfold evaluateFit
  try dsimp only
  repeat' first
    | with_reducible apply OnlyChanges.refl
    | exact Eq.refl true
    | with_reducible apply OnlyChanges.after (resuspendFlows_changes _ _)
    | split

/-! ### The delay unit -/

theorem countDelay_changes (n : Slot) (f : DelayCounters → DelayCounters) (s : State) :
    OnlyChanges [.delay] s (countDelay n f s) := by
  unfold countDelay
  try dsimp only
  repeat' first
    | with_reducible apply OnlyChanges.refl
    | exact Eq.refl true
    | with_reducible apply OnlyChanges.after (updDelay_changes _ _ _)
    | split

theorem withdrawMark_changes (n : Slot) (id : Nat) (s : State) :
    OnlyChanges sendingParts s (withdrawMark n id s) := by
  unfold withdrawMark
  try dsimp only
  repeat' first
    | with_reducible apply OnlyChanges.refl
    | exact Eq.refl true
    | with_reducible apply OnlyChanges.after (release_changes _ _)
    | with_reducible apply OnlyChanges.after (countDelay_changes _ _ _)
    | split

theorem withdrawMarks_changes (n : Slot) (s : State) : OnlyChanges sendingParts s (withdrawMarks n s) := by
  unfold withdrawMarks
  try dsimp only
  repeat' first
    | with_reducible apply OnlyChanges.refl
    | exact Eq.refl true
    | with_reducible apply OnlyChanges.after (updSq_changes _ _ _)
    | with_reducible apply OnlyChanges.after (arbitrate_changes _ _)
    | with_reducible apply OnlyChanges.after (withdrawMark_changes _ _ _)
    | with_reducible apply OnlyChanges.after (OnlyChanges.forEach (withdrawMark_changes _) _ _)
    | split

theorem abandonProbe_changes (n : Slot) (s : State) : OnlyChanges [.delay] s (abandonProbe n s) := by
  unfold abandonProbe
  try dsimp only
  repeat' first
    | with_reducible apply OnlyChanges.refl
    | exact Eq.refl true
    | with_reducible apply OnlyChanges.after (updDelay_changes _ _ _)
    | split

theorem abandonProbes_changes (s : State) : OnlyChanges [.delay] s (abandonProbes s) := by
  unfold abandonProbes
  try dsimp only
  repeat' first
    | with_reducible apply OnlyChanges.refl
    | exact Eq.refl true
    | with_reducible apply OnlyChanges.after (abandonProbe_changes _ _)
    | with_reducible apply OnlyChanges.after (OnlyChanges.forSlots abandonProbe_changes _)
    | split

theorem delayArrival_changes (n : Slot) (s : State) : OnlyChanges [.delay] s (delayArrival n s) := by
  unfold delayArrival
  try dsimp only
  repeat' first
    | with_reducible apply OnlyChanges.refl
    | exact Eq.refl true
    | with_reducible apply OnlyChanges.after (updDelay_changes _ _ _)
    | split

theorem delayDeparture_changes (n : Slot) (s : State) : OnlyChanges sendingParts s (delayDeparture n s) := by
  unfold delayDeparture
  try dsimp only
  repeat' first
    | with_reducible apply OnlyChanges.refl
    | exact Eq.refl true
    | with_reducible apply OnlyChanges.after (updDelay_changes _ _ _)
    | with_reducible apply OnlyChanges.after (withdrawMarks_changes _ _)
    | with_reducible apply OnlyChanges.after (abandonProbe_changes _ _)
    | split

theorem countMiss_changes (n : Slot) (s : State) : OnlyChanges sendingParts s (countMiss n s) := by
  unfold countMiss
  try dsimp only
  repeat' first
    | with_reducible apply OnlyChanges.refl
    | exact Eq.refl true
    | with_reducible apply OnlyChanges.after (updDelay_changes _ _ _)
    | with_reducible apply OnlyChanges.after (countDelay_changes _ _ _)
    | with_reducible apply OnlyChanges.after (withdrawMarks_changes _ _)
    | split

theorem takeRoundTrip_changes (n : Slot) (r : Int) (s : State) :
    OnlyChanges sendingParts s (takeRoundTrip n r s) := by
  unfold takeRoundTrip
  try dsimp only
  repeat' first
    | with_reducible apply OnlyChanges.refl
    | exact Eq.refl true
    | with_reducible apply OnlyChanges.after (updDelay_changes _ _ _)
    | with_reducible apply OnlyChanges.after (countDelay_changes _ _ _)
    | with_reducible apply OnlyChanges.after (countMiss_changes _ _)
    | split

theorem takeReply_changes (n : Slot) (seq : Byte) (payload : List Byte) (length : Nat) (t4 : Stamp) (s : State) :
    OnlyChanges sendingParts s (takeReply n seq payload length t4 s) := by
  unfold takeReply
  try dsimp only
  repeat' first
    | with_reducible apply OnlyChanges.refl
    | exact Eq.refl true
    | with_reducible apply OnlyChanges.after (updDelay_changes _ _ _)
    | with_reducible apply OnlyChanges.after (countDelay_changes _ _ _)
    | with_reducible apply OnlyChanges.after (takeRoundTrip_changes _ _ _)
    | split

theorem probeClient_changes (n : Slot) (s : State) : OnlyChanges sendingParts s (probeClient n s) := by
  unfold probeClient
  try dsimp only
  repeat' first
    | with_reducible apply OnlyChanges.refl
    | exact Eq.refl true
    | with_reducible apply OnlyChanges.after (updDelay_changes _ _ _)
    | with_reducible apply OnlyChanges.after (admitHub_changes _ _)
    | with_reducible apply OnlyChanges.after (countDelay_changes _ _ _)
    | with_reducible apply OnlyChanges.after (countMiss_changes _ _)
    | split

theorem markClient_changes (n : Slot) (s : State) :
    OnlyChanges [.ports, .qm, .delay, .out, .free] s (markClient n s) := by
  unfold markClient
  try dsimp only
  repeat' first
    | with_reducible apply OnlyChanges.refl
    | exact Eq.refl true
    | with_reducible apply OnlyChanges.after (drawn_changes _)
    | with_reducible apply OnlyChanges.after (admitHub_changes _ _)
    | with_reducible apply OnlyChanges.after (countDelay_changes _ _ _)
    | split

/-! ### The calendar -/

theorem arbitrateAll_changes (s : State) : OnlyChanges sendingParts s (arbitrateAll s) := by
  unfold arbitrateAll
  try dsimp only
  repeat' first
    | with_reducible apply OnlyChanges.refl
    | exact Eq.refl true
    | with_reducible apply OnlyChanges.after (arbitrate_changes _ _)
    | with_reducible apply OnlyChanges.after (OnlyChanges.forSlots arbitrate_changes _)
    | split

theorem swapBanks_changes (s : State) :
    OnlyChanges [.ports, .fwd, .qm, .cal, .delay, .alarm, .agent, .out] s (swapBanks s) := by
  unfold swapBanks
  dsimp only
  split
  · refine .seq ?_ ((complete_changes _ _ _ _).weaken rfl)
    refine .seq ?_ ((evaluateFit_changes _).weaken rfl)
    refine ((updCal_changes _ s).weaken rfl).seq (.forSlots (fun p t => ?_) _)
    split
    · exact (flushSample_changes _ _).weaken rfl
    · exact .refl _
  · exact .refl _

theorem phaseStep_changes (before after : Stamp) (s : State) :
    OnlyChanges [.ports, .fwd, .qm, .cal, .delay, .mon, .alarm, .agent, .out] s (phaseStep before after s) := by
  unfold phaseStep
  try dsimp only
  repeat' first
    | with_reducible apply OnlyChanges.refl
    | exact Eq.refl true
    | with_reducible apply OnlyChanges.after (updMon_changes _ _)
    | with_reducible apply OnlyChanges.after (occurPoint_changes _ _)
    | with_reducible apply OnlyChanges.after (abandonProbes_changes _)
    | with_reducible apply OnlyChanges.after (arbitrateAll_changes _)
    | with_reducible apply OnlyChanges.after (swapBanks_changes _)
    | split

/-! ### The tracker -/

theorem enterTiming_changes (new : TimingState) (s : State) : OnlyChanges timingParts s (enterTiming new s) := by
  unfold enterTiming
  dsimp only
  refine .seq ?_ ((alarmTiming_changes _ _ _).weaken rfl)
  refine .seq ?_ ((with_delay_changes _ _).weaken rfl)
  refine .seq ?_ ((flowsTimingChange_changes _ _ _).weaken rfl)
  split
  · exact ((updTrk_changes _ _).weaken rfl).seq ((setFreq_changes _ _).weaken rfl)
  · exact (updTrk_changes _ _).weaken rfl

theorem examineSelection_changes (s : State) : OnlyChanges timingParts s (examineSelection s) := by
  unfold examineSelection
  try dsimp only
  repeat' first
    | with_reducible apply OnlyChanges.refl
    | exact Eq.refl true
    | with_reducible apply OnlyChanges.after (updTrk_changes _ _)
    | with_reducible apply OnlyChanges.after (enterTiming_changes _ _)
    | split

theorem setSource_changes (src : Source) (r : SourceRecord) (s : State) :
    OnlyChanges [.ports, .qm, .trk, .delay, .alarm, .agent, .out] s (setSource src r s) := by
  unfold setSource
  try dsimp only
  repeat' first
    | with_reducible apply OnlyChanges.refl
    | exact Eq.refl true
    | with_reducible apply OnlyChanges.after (updSource_changes _ _ _)
    | with_reducible apply OnlyChanges.after (reportCondition_changes _ _ _)
    | split

theorem countSource_changes (src : Source) (f : SourceCounters → SourceCounters) (s : State) :
    OnlyChanges [.trk] s (countSource src f s) := by
  unfold countSource
  try dsimp only
  repeat' first
    | with_reducible apply OnlyChanges.refl
    | exact Eq.refl true
    | with_reducible apply OnlyChanges.after (updTrk_changes _ _)
    | split

theorem failSource_changes (src : Source) (s : State) : OnlyChanges timingParts s (failSource src s) := by
  unfold failSource
  try dsimp only
  repeat' first
    | with_reducible apply OnlyChanges.refl
    | exact Eq.refl true
    | with_reducible apply OnlyChanges.after (examineSelection_changes _)
    | with_reducible apply OnlyChanges.after (setSource_changes _ _ _)
    | with_reducible apply OnlyChanges.after (countSource_changes _ _ _)
    | split

theorem reworkProvider_changes (src : Source) (s : State) :
    OnlyChanges [.ports, .qm, .trk, .delay, .alarm, .agent, .out] s (reworkProvider src s) := by
  unfold reworkProvider
  try dsimp only
  repeat' first
    | with_reducible apply OnlyChanges.refl
    | exact Eq.refl true
    | with_reducible apply OnlyChanges.after (setSource_changes _ _ _)
    | split

theorem reworkProviders_changes (s : State) : OnlyChanges timingParts s (reworkProviders s) := by
  unfold reworkProviders
  try dsimp only
  repeat' first
    | with_reducible apply OnlyChanges.refl
    | exact Eq.refl true
    | with_reducible apply OnlyChanges.after (examineSelection_changes _)
    | with_reducible apply OnlyChanges.after (reworkProvider_changes _ _)
    | split

theorem servoUpdate_changes (e : Int) (s : State) : OnlyChanges [.time, .trk] s (servoUpdate e s) := by
  unfold servoUpdate
  try dsimp only
  repeat' first
    | with_reducible apply OnlyChanges.refl
    | exact Eq.refl true
    | with_reducible apply OnlyChanges.after (updTrk_changes _ _)
    | with_reducible apply OnlyChanges.after (setFreq_changes _ _)
    | split

theorem lockAccounting_changes (e : Int) (s : State) : OnlyChanges timingParts s (lockAccounting e s) := by
  unfold lockAccounting
  try dsimp only
  repeat' first
    | with_reducible apply OnlyChanges.refl
    | exact Eq.refl true
    | with_reducible apply OnlyChanges.after (updTrk_changes _ _)
    | with_reducible apply OnlyChanges.after (enterTiming_changes _ _)
    | split

theorem stepTime_changes (e : Int) (s : State) : OnlyChanges eventParts s (stepTime e s) := by
  unfold stepTime
  try dsimp only
  repeat' first
    | with_reducible apply OnlyChanges.refl
    | exact Eq.refl true
    | with_reducible apply OnlyChanges.after (updTrk_changes _ _)
    | with_reducible apply OnlyChanges.after (phaseStep_changes _ _ _)
    | with_reducible apply OnlyChanges.after (with_time_changes _ _)
    | split

theorem applyEvent_changes (e : Int) (s : State) : OnlyChanges eventParts s (applyEvent e s) := by
  unfold applyEvent
  try dsimp only
  repeat' first
    | with_reducible apply OnlyChanges.refl
    | exact Eq.refl true
    | with_reducible apply OnlyChanges.after (servoUpdate_changes _ _)
    | with_reducible apply OnlyChanges.after (lockAccounting_changes _ _)
    | with_reducible apply OnlyChanges.after (stepTime_changes _ _)
    | split

theorem unusableEvent_changes (src : Source) (s : State) : OnlyChanges [.trk] s (unusableEvent src s) := by
  unfold unusableEvent
  try dsimp only
  repeat' first
    | with_reducible apply OnlyChanges.refl
    | exact Eq.refl true
    | with_reducible apply OnlyChanges.after (updSource_changes _ _ _)
    | with_reducible apply OnlyChanges.after (countSource_changes _ _ _)
    | split

theorem jumpEvent_changes (src : Source) (s : State) : OnlyChanges timingParts s (jumpEvent src s) := by
  unfold jumpEvent
  try dsimp only
  repeat' first
    | with_reducible apply OnlyChanges.refl
    | exact Eq.refl true
    | with_reducible apply OnlyChanges.after (updSource_changes _ _ _)
    | with_reducible apply OnlyChanges.after (countSource_changes _ _ _)
    | with_reducible apply OnlyChanges.after (failSource_changes _ _)
    | split

theorem goodEvent_changes (src : Source) (e : Int) (s : State) : OnlyChanges eventParts s (goodEvent src e s) := by
  unfold goodEvent
  try dsimp only
  repeat' first
    | with_reducible apply OnlyChanges.refl
    | exact Eq.refl true
    | with_reducible apply OnlyChanges.after (updSource_changes _ _ _)
    | with_reducible apply OnlyChanges.after (examineSelection_changes _)
    | with_reducible apply OnlyChanges.after (setSource_changes _ _ _)
    | with_reducible apply OnlyChanges.after (countSource_changes _ _ _)
    | with_reducible apply OnlyChanges.after (applyEvent_changes _ _)
    | split

theorem takeEvent_changes (src : Source) (error : Option Int) (s : State) :
    OnlyChanges eventParts s (takeEvent src error s) := by
  unfold takeEvent
  try dsimp only
  repeat' first
    | with_reducible apply OnlyChanges.refl
    | exact Eq.refl true
    | with_reducible apply OnlyChanges.after (updSource_changes _ _ _)
    | with_reducible apply OnlyChanges.after (unusableEvent_changes _ _)
    | with_reducible apply OnlyChanges.after (jumpEvent_changes _ _)
    | with_reducible apply OnlyChanges.after (goodEvent_changes _ _ _)
    | split

theorem takeRefTime_changes (n : Slot) (payload : List Byte) (length : Nat) (arrival : Stamp) (s : State) :
    OnlyChanges eventParts s (takeRefTime n payload length arrival s) := by
  unfold takeRefTime
  try dsimp only
  repeat' first
    | with_reducible apply OnlyChanges.refl
    | exact Eq.refl true
    | with_reducible apply OnlyChanges.after (updSource_changes _ _ _)
    | with_reducible apply OnlyChanges.after (updTrk_changes _ _)
    | with_reducible apply OnlyChanges.after (takeEvent_changes _ _ _)
    | split

/-! ### The sideband -/

theorem startTransaction_changes (s : State) : OnlyChanges [.side] s (startTransaction s) := by
  unfold startTransaction
  try dsimp only
  repeat' first
    | with_reducible apply OnlyChanges.refl
    | exact Eq.refl true
    | with_reducible apply OnlyChanges.after (updSide_changes _ _)
    | split

theorem endTransaction_changes (s : State) : OnlyChanges [.side] s (endTransaction s) := by
  unfold endTransaction
  try dsimp only
  repeat' first
    | with_reducible apply OnlyChanges.refl
    | exact Eq.refl true
    | with_reducible apply OnlyChanges.after (updSide_changes _ _)
    | split

theorem joinSideband_changes (e : SidebandEntry) (s : State) : OnlyChanges [.side] s (joinSideband e s) := by
  unfold joinSideband
  try dsimp only
  repeat' first
    | with_reducible apply OnlyChanges.refl
    | exact Eq.refl true
    | with_reducible apply OnlyChanges.after (updSide_changes _ _)
    | with_reducible apply OnlyChanges.after (startTransaction_changes _)
    | split

theorem abortTransaction_changes (s : State) : OnlyChanges [.side] s (abortTransaction s) := by
  unfold abortTransaction
  try dsimp only
  repeat' first
    | with_reducible apply OnlyChanges.refl
    | exact Eq.refl true
    | with_reducible apply OnlyChanges.after (updSide_changes _ _)
    | with_reducible apply OnlyChanges.after (endTransaction_changes _)
    | split

theorem removeEntries_changes (gone : SidebandEntry → Bool) (s : State) :
    OnlyChanges [.side] s (removeEntries gone s) := by
  unfold removeEntries
  try dsimp only
  repeat' first
    | with_reducible apply OnlyChanges.refl
    | exact Eq.refl true
    | with_reducible apply OnlyChanges.after (updSide_changes _ _)
    | with_reducible apply OnlyChanges.after (startTransaction_changes _)
    | with_reducible apply OnlyChanges.after (abortTransaction_changes _)
    | split

theorem answerGone_changes (e : SidebandEntry) (s : State) : OnlyChanges agentParts s (answerGone e s) := by
  unfold answerGone
  try dsimp only
  repeat' first
    | with_reducible apply OnlyChanges.refl
    | exact Eq.refl true
    | with_reducible apply OnlyChanges.after (complete_changes _ _ _ _)
    | split

theorem sidebandSlotChange_changes (n : Slot) (old new : SlotState) (s : State) :
    OnlyChanges [.ports, .qm, .delay, .side, .agent, .out] s (sidebandSlotChange n old new s) := by
  unfold sidebandSlotChange
  try dsimp only
  repeat' first
    | with_reducible apply OnlyChanges.refl
    | exact Eq.refl true
    | with_reducible apply OnlyChanges.after (joinSideband_changes _ _)
    | with_reducible apply OnlyChanges.after (removeEntries_changes _ _)
    | with_reducible apply OnlyChanges.after (answerGone_changes _ _)
    | with_reducible apply OnlyChanges.after (OnlyChanges.forEach answerGone_changes _ _)
    | split

theorem sidebandDeparture_changes (n : Slot) (s : State) : OnlyChanges [.side] s (sidebandDeparture n s) := by
  unfold sidebandDeparture
  try dsimp only
  repeat' first
    | with_reducible apply OnlyChanges.refl
    | exact Eq.refl true
    | with_reducible apply OnlyChanges.after (updSide_changes _ _)
    | split

theorem countSideband_changes (n : Slot) (f : SidebandCounters → SidebandCounters) (s : State) :
    OnlyChanges [.side] s (countSideband n f s) := by
  unfold countSideband
  try dsimp only
  repeat' first
    | with_reducible apply OnlyChanges.refl
    | exact Eq.refl true
    | with_reducible apply OnlyChanges.after (updSide_changes _ _)
    | split

theorem recordAttempt_changes (n : Slot) (outcome : SidebandOutcome) (map : AckMap) (s : State) :
    OnlyChanges [.side] s (recordAttempt n outcome map s) := by
  unfold recordAttempt
  try dsimp only
  repeat' first
    | with_reducible apply OnlyChanges.refl
    | exact Eq.refl true
    | with_reducible apply OnlyChanges.after (updSide_changes _ _)
    | split

theorem setCurrentThresholds_changes (n : Slot) (i : Identity) (s : State) :
    OnlyChanges [.mon] s (setCurrentThresholds n i s) := by
  unfold setCurrentThresholds
  try dsimp only
  repeat' first
    | with_reducible apply OnlyChanges.refl
    | exact Eq.refl true
    | with_reducible apply OnlyChanges.after (updChannel_changes _ _ _)
    | split

theorem resetSideband_changes (s : State) : OnlyChanges [.side] s (resetSideband s) := by
  unfold resetSideband
  try dsimp only
  repeat' first
    | with_reducible apply OnlyChanges.refl
    | exact Eq.refl true
    | with_reducible apply OnlyChanges.after (updSide_changes _ _)
    | with_reducible apply OnlyChanges.after (startTransaction_changes _)
    | with_reducible apply OnlyChanges.after (abortTransaction_changes _)
    | split

/-! ### Reports of a slot state change -/

theorem agentSlotChange_changes (n : Slot) (old new : SlotState) (s : State) :
    OnlyChanges [.qm, .agent] s (agentSlotChange n old new s) := by
  unfold agentSlotChange
  try dsimp only
  repeat' first
    | with_reducible apply OnlyChanges.refl
    | exact Eq.refl true
    | with_reducible apply OnlyChanges.after (withdrawResponses_changes _ _)
    | with_reducible apply OnlyChanges.after (dropController_changes _ _)
    | split

theorem cancelWaits_changes (n : Slot) (s : State) : OnlyChanges [.alarm] s (cancelWaits n s) := by
  unfold cancelWaits
  try dsimp only
  repeat' first
    | with_reducible apply OnlyChanges.refl
    | exact Eq.refl true
    | with_reducible apply OnlyChanges.after (updAlarm_changes _ _)
    | split

theorem alarmSlotChange_changes (n : Slot) (old new : SlotState) (reason : Option FaultReason) (s : State) :
    OnlyChanges noticeParts s (alarmSlotChange n old new reason s) := by
  unfold alarmSlotChange
  try dsimp only
  repeat' first
    | with_reducible apply OnlyChanges.refl
    | exact Eq.refl true
    | with_reducible apply OnlyChanges.after (updAlarm_changes _ _)
    | with_reducible apply OnlyChanges.after (movePoint_changes _ _ _)
    | with_reducible apply OnlyChanges.after (produce_changes _ _)
    | with_reducible apply OnlyChanges.after (withdrawAcks_changes _ _)
    | with_reducible apply OnlyChanges.after (cancelWaits_changes _ _)
    | split

theorem flowsSlotReport_changes (n : Slot) (old new : SlotState) (s : State) :
    OnlyChanges flowParts s (flowsSlotReport n old new s) := by
  unfold flowsSlotReport
  try dsimp only
  repeat' first
    | with_reducible apply OnlyChanges.refl
    | exact Eq.refl true
    | with_reducible apply OnlyChanges.after (flowsSlotChange_changes _ _ _)
    | with_reducible apply OnlyChanges.after (evaluateFit_changes _)
    | split

theorem queueSlotChange_changes (n : Slot) (old new : SlotState) (s : State) :
    OnlyChanges pauseParts s (queueSlotChange n old new s) := by
  unfold queueSlotChange
  try dsimp only
  repeat' first
    | with_reducible apply OnlyChanges.refl
    | exact Eq.refl true
    | with_reducible apply OnlyChanges.after (updSq_changes _ _ _)
    | with_reducible apply OnlyChanges.after (setPaused_changes _ _ _)
    | with_reducible apply OnlyChanges.after (flushAll_changes _ _)
    | split

theorem delaySlotChange_changes (n : Slot) (old new : SlotState) (s : State) :
    OnlyChanges sendingParts s (delaySlotChange n old new s) := by
  unfold delaySlotChange
  try dsimp only
  repeat' first
    | with_reducible apply OnlyChanges.refl
    | exact Eq.refl true
    | with_reducible apply OnlyChanges.after (delayArrival_changes _ _)
    | with_reducible apply OnlyChanges.after (delayDeparture_changes _ _)
    | split

theorem monitorSlotChange_changes (n : Slot) (new : SlotState) (s : State) :
    OnlyChanges [.mon] s (monitorSlotChange n new s) := by
  unfold monitorSlotChange
  try dsimp only
  repeat' first
    | with_reducible apply OnlyChanges.refl
    | exact Eq.refl true
    | with_reducible apply OnlyChanges.after (updMon_changes _ _)
    | split

theorem trackerSlotChange_changes (old new : SlotState) (s : State) :
    OnlyChanges timingParts s (trackerSlotChange old new s) := by
  unfold trackerSlotChange
  try dsimp only
  repeat' first
    | with_reducible apply OnlyChanges.refl
    | exact Eq.refl true
    | with_reducible apply OnlyChanges.after (reworkProviders_changes _)
    | split

theorem sidebandReport_changes (n : Slot) (old new : SlotState) (s : State) :
    OnlyChanges [.ports, .qm, .delay, .side, .agent, .out] s (sidebandReport n old new s) := by
  unfold sidebandReport
  try dsimp only
  repeat' first
    | with_reducible apply OnlyChanges.refl
    | exact Eq.refl true
    | with_reducible apply OnlyChanges.after (sidebandSlotChange_changes _ _ _ _)
    | with_reducible apply OnlyChanges.after (sidebandDeparture_changes _ _)
    | split

theorem changeSlot_changes (n : Slot) (new : SlotState) (reason : Option FaultReason) (s : State) :
    OnlyChanges slotParts s (changeSlot n new reason s) := by
  unfold changeSlot
  try dsimp only
  repeat' first
    | with_reducible apply OnlyChanges.refl
    | exact Eq.refl true
    | with_reducible apply OnlyChanges.after (updSlot_changes _ _ _)
    | with_reducible apply OnlyChanges.after (agentSlotChange_changes _ _ _ _)
    | with_reducible apply OnlyChanges.after (alarmSlotChange_changes _ _ _ _ _)
    | with_reducible apply OnlyChanges.after (flowsSlotReport_changes _ _ _ _)
    | with_reducible apply OnlyChanges.after (queueSlotChange_changes _ _ _ _)
    | with_reducible apply OnlyChanges.after (delaySlotChange_changes _ _ _ _)
    | with_reducible apply OnlyChanges.after (monitorSlotChange_changes _ _ _)
    | with_reducible apply OnlyChanges.after (trackerSlotChange_changes _ _ _)
    | with_reducible apply OnlyChanges.after (sidebandReport_changes _ _ _ _)
    | split

theorem cutTransmission_changes (p : Slot) (s : State) : OnlyChanges pauseParts s (cutTransmission p s) := by
  unfold cutTransmission
  try dsimp only
  repeat' first
    | with_reducible apply OnlyChanges.refl
    | exact Eq.refl true
    | with_reducible apply OnlyChanges.after (updPort_changes _ _ _)
    | with_reducible apply OnlyChanges.after (updSq_changes _ _ _)
    | with_reducible apply OnlyChanges.after (release_changes _ _)
    | split

theorem dropTests_changes (p : Slot) (s : State) : OnlyChanges [.ports, .qm] s (dropTests p s) := by
  unfold dropTests
  try dsimp only
  repeat' first
    | with_reducible apply OnlyChanges.refl
    | exact Eq.refl true
    | with_reducible apply OnlyChanges.after (updPort_changes _ _ _)
    | with_reducible apply OnlyChanges.after (withdrawMaker_changes _ _)
    | split

theorem discardAssembly_changes (p : Slot) (s : State) : OnlyChanges pauseParts s (discardAssembly p s) := by
  unfold discardAssembly
  try dsimp only
  repeat' first
    | with_reducible apply OnlyChanges.refl
    | exact Eq.refl true
    | with_reducible apply OnlyChanges.after (updPort_changes _ _ _)
    | with_reducible apply OnlyChanges.after (reexaminePause_changes _ _)
    | split

theorem setReportedWidth_changes (p : Slot) (w : Option Width) (s : State) :
    OnlyChanges widthParts s (setReportedWidth p w s) := by
  unfold setReportedWidth
  try dsimp only
  repeat' first
    | with_reducible apply OnlyChanges.refl
    | exact Eq.refl true
    | with_reducible apply OnlyChanges.after (updPort_changes _ _ _)
    | with_reducible apply OnlyChanges.after (updSlot_changes _ _ _)
    | with_reducible apply OnlyChanges.after (evaluateFit_changes _)
    | split

theorem enterTraining_changes (p : Slot) (s : State) : OnlyChanges [.ports] s (enterTraining p s) := by
  unfold enterTraining
  try dsimp only
  repeat' first
    | with_reducible apply OnlyChanges.refl
    | exact Eq.refl true
    | with_reducible apply OnlyChanges.after (updPort_changes _ _ _)
    | split

theorem stopPort_changes (p : Slot) (link : LinkState) (s : State) :
    OnlyChanges widthParts s (stopPort p link s) := by
  unfold stopPort
  try dsimp only
  repeat' first
    | with_reducible apply OnlyChanges.refl
    | exact Eq.refl true
    | with_reducible apply OnlyChanges.after (updPort_changes _ _ _)
    | with_reducible apply OnlyChanges.after (cutTransmission_changes _ _)
    | with_reducible apply OnlyChanges.after (dropTests_changes _ _)
    | with_reducible apply OnlyChanges.after (discardAssembly_changes _ _)
    | with_reducible apply OnlyChanges.after (setReportedWidth_changes _ _ _)
    | split

theorem takeDown_changes (p : Slot) (s : State) : OnlyChanges widthParts s (takeDown p s) := by
  unfold takeDown
  try dsimp only
  repeat' first
    | with_reducible apply OnlyChanges.refl
    | exact Eq.refl true
    | with_reducible apply OnlyChanges.after (stopPort_changes _ _ _)
    | split

theorem bringUp_changes (p : Slot) (s : State) : OnlyChanges widthParts s (bringUp p s) := by
  unfold bringUp
  try dsimp only
  repeat' first
    | with_reducible apply OnlyChanges.refl
    | exact Eq.refl true
    | with_reducible apply OnlyChanges.after (updPort_changes _ _ _)
    | with_reducible apply OnlyChanges.after (enterTraining_changes _ _)
    | with_reducible apply OnlyChanges.after (stopPort_changes _ _ _)
    | split

/-! ### The slot controller -/

theorem countSlot_changes (n : Slot) (f : SlotCounters → SlotCounters) (s : State) :
    OnlyChanges [.slots] s (countSlot n f s) := by
  unfold countSlot
  try dsimp only
  repeat' first
    | with_reducible apply OnlyChanges.refl
    | exact Eq.refl true
    | with_reducible apply OnlyChanges.after (updSlot_changes _ _ _)
    | split

theorem releasePower_changes (n : Slot) (s : State) : OnlyChanges [.slots] s (releasePower n s) := by
  unfold releasePower
  try dsimp only
  repeat' first
    | with_reducible apply OnlyChanges.refl
    | exact Eq.refl true
    | with_reducible apply OnlyChanges.after (updSlot_changes _ _ _)
    | with_reducible apply OnlyChanges.after (with_slots_changes _ _)
    | split

theorem leavePower_changes (n : Slot) (s : State) : OnlyChanges widthParts s (leavePower n s) := by
  unfold leavePower
  try dsimp only
  repeat' first
    | with_reducible apply OnlyChanges.refl
    | exact Eq.refl true
    | with_reducible apply OnlyChanges.after (takeDown_changes _ _)
    | with_reducible apply OnlyChanges.after (releasePower_changes _ _)
    | split

theorem leaveWaiting_changes (n : Slot) (s : State) : OnlyChanges [.slots] s (leaveWaiting n s) := by
  unfold leaveWaiting
  try dsimp only
  repeat' first
    | with_reducible apply OnlyChanges.refl
    | exact Eq.refl true
    | with_reducible apply OnlyChanges.after (with_slots_changes _ _)
    | split

theorem reportOverBudget_changes (s : State) : OnlyChanges noticeParts s (reportOverBudget s) :=
  reportCondition_changes _ _ _

theorem reportWaiting_changes (s : State) : OnlyChanges noticeParts s (reportWaiting s) :=
  reportCondition_changes _ _ _

theorem enterFaulted_changes (n : Slot) (reason : FaultReason) (kind : Option SidebandOutcome) (s : State) :
    OnlyChanges slotParts s (enterFaulted n reason kind s) := by
  unfold enterFaulted
  try dsimp only
  repeat' first
    | with_reducible apply OnlyChanges.refl
    | exact Eq.refl true
    | with_reducible apply OnlyChanges.after (updSlot_changes _ _ _)
    | with_reducible apply OnlyChanges.after (changeSlot_changes _ _ _ _)
    | with_reducible apply OnlyChanges.after (leavePower_changes _ _)
    | split

theorem enterLinking_changes (n : Slot) (s : State) : OnlyChanges slotParts s (enterLinking n s) := by
  unfold enterLinking
  try dsimp only
  repeat' first
    | with_reducible apply OnlyChanges.refl
    | exact Eq.refl true
    | with_reducible apply OnlyChanges.after (updSlot_changes _ _ _)
    | with_reducible apply OnlyChanges.after (changeSlot_changes _ _ _ _)
    | with_reducible apply OnlyChanges.after (bringUp_changes _ _)
    | split

theorem grantPower_changes (n : Slot) (s : State) : OnlyChanges slotParts s (grantPower n s) := by
  unfold grantPower
  dsimp only
  have h : OnlyChanges slotParts s (reportWaiting (changeSlot n .powering none (State.updSlot { leaveWaiting n s with
      slots := { (leaveWaiting n s).slots with committed := (leaveWaiting n s).slots.committed + s.classOf n } } n fun r =>
      { r with
        pullGuard := true
        softStart := some (s.now + ((s.slot n).identity.map Identity.softStart).getD 0 * Config.softStartTicks)
        counters := { r.counters with grants := count32 r.counters.grants } }))) := by
    refine .seq ?_ ((reportWaiting_changes _).weaken rfl)
    refine .seq ?_ (changeSlot_changes _ _ _ _)
    refine .seq ?_ ((updSlot_changes _ _ _).weaken rfl)
    exact ((leaveWaiting_changes n s).weaken rfl).seq ((with_slots_changes _ _).weaken rfl)
  split
  · exact h.seq (enterFaulted_changes _ _ _ _)
  · split
    · exact h.seq (enterLinking_changes _ _)
    · exact h

theorem examineWaiting_changes (k : Nat) (s : State) : OnlyChanges slotParts s (examineWaiting k s) := by
  induction k generalizing s with
  | zero => exact .refl _
  | succ k ih =>
    unfold examineWaiting; split
    · exact .refl _
    · split
      · exact .seq ((grantPower_changes _ _).weaken rfl) (ih _)
      · exact .refl _

theorem servePower_changes (s : State) : OnlyChanges slotParts s (servePower s) := by
  unfold servePower
  try dsimp only
  repeat' first
    | with_reducible apply OnlyChanges.refl
    | exact Eq.refl true
    | with_reducible apply OnlyChanges.after (reportWaiting_changes _)
    | with_reducible apply OnlyChanges.after (reportOverBudget_changes _)
    | with_reducible apply OnlyChanges.after (examineWaiting_changes _ _)
    | split

theorem faultSlot_changes (n : Slot) (reason : FaultReason) (kind : Option SidebandOutcome) (s : State) :
    OnlyChanges slotParts s (faultSlot n reason kind s) := by
  unfold faultSlot
  try dsimp only
  repeat' first
    | with_reducible apply OnlyChanges.refl
    | exact Eq.refl true
    | with_reducible apply OnlyChanges.after (enterFaulted_changes _ _ _ _)
    | with_reducible apply OnlyChanges.after (servePower_changes _)
    | split

theorem enterIdentifying_changes (n : Slot) (s : State) : OnlyChanges slotParts s (enterIdentifying n s) := by
  unfold enterIdentifying
  try dsimp only
  repeat' first
    | with_reducible apply OnlyChanges.refl
    | exact Eq.refl true
    | with_reducible apply OnlyChanges.after (updSlot_changes _ _ _)
    | with_reducible apply OnlyChanges.after (changeSlot_changes _ _ _ _)
    | split

theorem enterInserted_changes (n : Slot) (s : State) : OnlyChanges slotParts s (enterInserted n s) := by
  unfold enterInserted
  try dsimp only
  repeat' first
    | with_reducible apply OnlyChanges.refl
    | exact Eq.refl true
    | with_reducible apply OnlyChanges.after (updSlot_changes _ _ _)
    | with_reducible apply OnlyChanges.after (changeSlot_changes _ _ _ _)
    | split

theorem enterWaiting_changes (n : Slot) (s : State) : OnlyChanges slotParts s (enterWaiting n s) := by
  unfold enterWaiting
  try dsimp only
  repeat' first
    | with_reducible apply OnlyChanges.refl
    | exact Eq.refl true
    | with_reducible apply OnlyChanges.after (changeSlot_changes _ _ _ _)
    | with_reducible apply OnlyChanges.after (servePower_changes _)
    | with_reducible apply OnlyChanges.after (with_slots_changes _ _)
    | split

theorem takeIdentity_changes (n : Slot) (o : IdentityOutcome) (s : State) :
    OnlyChanges slotParts s (takeIdentity n o s) := by
  unfold takeIdentity
  try dsimp only
  repeat' first
    | with_reducible apply OnlyChanges.refl
    | exact Eq.refl true
    | with_reducible apply OnlyChanges.after (updSlot_changes _ _ _)
    | with_reducible apply OnlyChanges.after (setCurrentThresholds_changes _ _ _)
    | with_reducible apply OnlyChanges.after (faultSlot_changes _ _ _ _)
    | with_reducible apply OnlyChanges.after (enterWaiting_changes _ _)
    | split

theorem endDrain_changes (n : Slot) (s : State) : OnlyChanges slotParts s (endDrain n s) := by
  unfold endDrain
  try dsimp only
  repeat' first
    | with_reducible apply OnlyChanges.refl
    | exact Eq.refl true
    | with_reducible apply OnlyChanges.after (updSlot_changes _ _ _)
    | with_reducible apply OnlyChanges.after (changeSlot_changes _ _ _ _)
    | with_reducible apply OnlyChanges.after (leavePower_changes _ _)
    | with_reducible apply OnlyChanges.after (servePower_changes _)
    | split

theorem checkDrain_changes (n : Slot) (s : State) : OnlyChanges slotParts s (checkDrain n s) := by
  unfold checkDrain
  try dsimp only
  repeat' first
    | with_reducible apply OnlyChanges.refl
    | exact Eq.refl true
    | with_reducible apply OnlyChanges.after (countSlot_changes _ _ _)
    | with_reducible apply OnlyChanges.after (endDrain_changes _ _)
    | split

theorem checkDrains_changes (s : State) : OnlyChanges slotParts s (checkDrains s) := by
  unfold checkDrains
  try dsimp only
  repeat' first
    | with_reducible apply OnlyChanges.refl
    | exact Eq.refl true
    | with_reducible apply OnlyChanges.after (checkDrain_changes _ _)
    | with_reducible apply OnlyChanges.after (OnlyChanges.forSlots checkDrain_changes _)
    | split

theorem timeOutDrain_changes (n : Slot) (s : State) : OnlyChanges slotParts s (timeOutDrain n s) := by
  unfold timeOutDrain
  try dsimp only
  repeat' first
    | with_reducible apply OnlyChanges.refl
    | exact Eq.refl true
    | with_reducible apply OnlyChanges.after (flushAll_changes _ _)
    | with_reducible apply OnlyChanges.after (countSlot_changes _ _ _)
    | with_reducible apply OnlyChanges.after (endDrain_changes _ _)
    | split

theorem enterDraining_changes (n : Slot) (s : State) : OnlyChanges slotParts s (enterDraining n s) := by
  unfold enterDraining
  try dsimp only
  repeat' first
    | with_reducible apply OnlyChanges.refl
    | exact Eq.refl true
    | with_reducible apply OnlyChanges.after (updSlot_changes _ _ _)
    | with_reducible apply OnlyChanges.after (changeSlot_changes _ _ _ _)
    | with_reducible apply OnlyChanges.after (checkDrain_changes _ _)
    | split

theorem backToInserted_changes (n : Slot) (s : State) : OnlyChanges slotParts s (backToInserted n s) := by
  unfold backToInserted
  try dsimp only
  repeat' first
    | with_reducible apply OnlyChanges.refl
    | exact Eq.refl true
    | with_reducible apply OnlyChanges.after (leavePower_changes _ _)
    | with_reducible apply OnlyChanges.after (leaveWaiting_changes _ _)
    | with_reducible apply OnlyChanges.after (servePower_changes _)
    | with_reducible apply OnlyChanges.after (enterInserted_changes _ _)
    | split

theorem toEmpty_changes (n : Slot) (s : State) : OnlyChanges slotParts s (toEmpty n s) := by
  unfold toEmpty
  try dsimp only
  repeat' first
    | with_reducible apply OnlyChanges.refl
    | exact Eq.refl true
    | with_reducible apply OnlyChanges.after (updSlot_changes _ _ _)
    | with_reducible apply OnlyChanges.after (occurPoint_changes _ _)
    | with_reducible apply OnlyChanges.after (changeSlot_changes _ _ _ _)
    | with_reducible apply OnlyChanges.after (countSlot_changes _ _ _)
    | with_reducible apply OnlyChanges.after (leavePower_changes _ _)
    | with_reducible apply OnlyChanges.after (leaveWaiting_changes _ _)
    | with_reducible apply OnlyChanges.after (servePower_changes _)
    | split

theorem linkUp_changes (n : Slot) (s : State) : OnlyChanges slotParts s (linkUp n s) := by
  unfold linkUp
  try dsimp only
  repeat' first
    | with_reducible apply OnlyChanges.refl
    | exact Eq.refl true
    | with_reducible apply OnlyChanges.after (updSlot_changes _ _ _)
    | with_reducible apply OnlyChanges.after (changeSlot_changes _ _ _ _)
    | split

theorem linkDown_changes (n : Slot) (s : State) : OnlyChanges slotParts s (linkDown n s) := by
  unfold linkDown
  try dsimp only
  repeat' first
    | with_reducible apply OnlyChanges.refl
    | exact Eq.refl true
    | with_reducible apply OnlyChanges.after (faultSlot_changes _ _ _ _)
    | split

theorem updateBudget_changes (s : State) : OnlyChanges slotParts s (updateBudget s) := by
  unfold updateBudget
  dsimp only
  generalize (if (s.point rectifierPoint).state.inList = true then Budget.battery else .mains) = b
  split
  · exact .refl _
  · exact ((with_slots_changes s _).weaken rfl).seq (servePower_changes _)

theorem criticalEntered_changes (id : PointId) (old : PointState) (s : State) :
    OnlyChanges slotParts s (criticalEntered id old s) := by
  unfold criticalEntered
  try dsimp only
  repeat' first
    | with_reducible apply OnlyChanges.refl
    | exact Eq.refl true
    | with_reducible apply OnlyChanges.after (faultSlot_changes _ _ _ _)
    | split

/-! ### The ports -/

theorem countLink_changes (p : Slot) (f : LinkCounters → LinkCounters) (s : State) :
    OnlyChanges [.ports] s (countLink p f s) := by
  unfold countLink
  try dsimp only
  repeat' first
    | with_reducible apply OnlyChanges.refl
    | exact Eq.refl true
    | with_reducible apply OnlyChanges.after (updPort_changes _ _ _)
    | split

theorem giveUp_changes (p : Slot) (s : State) : OnlyChanges slotParts s (giveUp p s) := by
  unfold giveUp
  try dsimp only
  repeat' first
    | with_reducible apply OnlyChanges.refl
    | exact Eq.refl true
    | with_reducible apply OnlyChanges.after (updPort_changes _ _ _)
    | with_reducible apply OnlyChanges.after (setReportedWidth_changes _ _ _)
    | with_reducible apply OnlyChanges.after (linkDown_changes _ _)
    | split

theorem failAttempt_changes (k : Nat) (p : Slot) (s : State) : OnlyChanges slotParts s (failAttempt k p s) := by
  induction k generalizing s with
  | zero =>
    unfold failAttempt
    dsimp only
    repeat' first
      | with_reducible apply OnlyChanges.refl
      | exact Eq.refl true
      | with_reducible apply OnlyChanges.after (updPort_changes _ _ _)
      | with_reducible apply OnlyChanges.after (dropTests_changes _ _)
      | with_reducible apply OnlyChanges.after (discardAssembly_changes _ _)
      | with_reducible apply OnlyChanges.after (enterTraining_changes _ _)
      | with_reducible apply OnlyChanges.after (countLink_changes _ _ _)
      | with_reducible apply OnlyChanges.after (giveUp_changes _ _)
      | split
  | succ k ih =>
    unfold failAttempt
    dsimp only
    repeat' first
      | with_reducible apply OnlyChanges.refl
      | exact Eq.refl true
      | with_reducible apply OnlyChanges.after (updPort_changes _ _ _)
      | with_reducible apply OnlyChanges.after (dropTests_changes _ _)
      | with_reducible apply OnlyChanges.after (discardAssembly_changes _ _)
      | with_reducible apply OnlyChanges.after (enterTraining_changes _ _)
      | with_reducible apply OnlyChanges.after (countLink_changes _ _ _)
      | with_reducible apply OnlyChanges.after (giveUp_changes _ _)
      | split
      | with_reducible apply OnlyChanges.after (ih _)

theorem attemptFails_changes (p : Slot) (s : State) : OnlyChanges slotParts s (attemptFails p s) := by
  unfold attemptFails
  try dsimp only
  repeat' first
    | with_reducible apply OnlyChanges.refl
    | exact Eq.refl true
    | with_reducible apply OnlyChanges.after (failAttempt_changes _ _ _)
    | split

theorem selectWidth_changes (p : Slot) (s : State) : OnlyChanges [.ports] s (selectWidth p s) := by
  unfold selectWidth
  try dsimp only
  repeat' first
    | with_reducible apply OnlyChanges.refl
    | exact Eq.refl true
    | with_reducible apply OnlyChanges.after (updPort_changes _ _ _)
    | split

theorem enterTesting_changes (p : Slot) (s : State) : OnlyChanges pauseParts s (enterTesting p s) := by
  unfold enterTesting
  try dsimp only
  repeat' first
    | with_reducible apply OnlyChanges.refl
    | exact Eq.refl true
    | with_reducible apply OnlyChanges.after (updPort_changes _ _ _)
    | with_reducible apply OnlyChanges.after (startTest_changes _ _)
    | with_reducible apply OnlyChanges.after (buildTests_changes _ _ _)
    | split

theorem endTraining_changes (p : Slot) (s : State) : OnlyChanges slotParts s (endTraining p s) := by
  unfold endTraining
  try dsimp only
  repeat' first
    | with_reducible apply OnlyChanges.refl
    | exact Eq.refl true
    | with_reducible apply OnlyChanges.after (updPort_changes _ _ _)
    | with_reducible apply OnlyChanges.after (attemptFails_changes _ _)
    | with_reducible apply OnlyChanges.after (selectWidth_changes _ _)
    | with_reducible apply OnlyChanges.after (enterTesting_changes _ _)
    | split

theorem beginTraining_changes (p : Slot) (s : State) : OnlyChanges slotParts s (beginTraining p s) := by
  unfold beginTraining
  try dsimp only
  repeat' first
    | with_reducible apply OnlyChanges.refl
    | exact Eq.refl true
    | with_reducible apply OnlyChanges.after (enterTraining_changes _ _)
    | with_reducible apply OnlyChanges.after (endTraining_changes _ _)
    | split

theorem enterUp_changes (p : Slot) (s : State) : OnlyChanges slotParts s (enterUp p s) := by
  unfold enterUp
  try dsimp only
  repeat' first
    | with_reducible apply OnlyChanges.refl
    | exact Eq.refl true
    | with_reducible apply OnlyChanges.after (updPort_changes _ _ _)
    | with_reducible apply OnlyChanges.after (emit_changes _ _)
    | with_reducible apply OnlyChanges.after (arbitrate_changes _ _)
    | with_reducible apply OnlyChanges.after (setReportedWidth_changes _ _ _)
    | with_reducible apply OnlyChanges.after (linkUp_changes _ _)
    | split

theorem judgeReturn_changes (p : Slot) (truncated : Bool) (bytes : List Byte) (s : State) :
    OnlyChanges slotParts s (judgeReturn p truncated bytes s) := by
  unfold judgeReturn
  try dsimp only
  repeat' first
    | with_reducible apply OnlyChanges.refl
    | exact Eq.refl true
    | with_reducible apply OnlyChanges.after (updPort_changes _ _ _)
    | with_reducible apply OnlyChanges.after (attemptFails_changes _ _)
    | with_reducible apply OnlyChanges.after (enterUp_changes _ _)
    | split

theorem retrain_changes (p : Slot) (s : State) : OnlyChanges slotParts s (retrain p s) := by
  unfold retrain
  try dsimp only
  repeat' first
    | with_reducible apply OnlyChanges.refl
    | exact Eq.refl true
    | with_reducible apply OnlyChanges.after (updPort_changes _ _ _)
    | with_reducible apply OnlyChanges.after (cutTransmission_changes _ _)
    | with_reducible apply OnlyChanges.after (discardAssembly_changes _ _)
    | with_reducible apply OnlyChanges.after (countLink_changes _ _ _)
    | with_reducible apply OnlyChanges.after (beginTraining_changes _ _)
    | split

theorem failLane_changes (p : Slot) (l : Lane) (s : State) : OnlyChanges slotParts s (failLane p l s) := by
  unfold failLane
  try dsimp only
  repeat' first
    | with_reducible apply OnlyChanges.refl
    | exact Eq.refl true
    | with_reducible apply OnlyChanges.after (updPort_changes _ _ _)
    | with_reducible apply OnlyChanges.after (countLink_changes _ _ _)
    | with_reducible apply OnlyChanges.after (attemptFails_changes _ _)
    | with_reducible apply OnlyChanges.after (endTraining_changes _ _)
    | with_reducible apply OnlyChanges.after (retrain_changes _ _)
    | split

theorem grantTest_changes (p : Slot) (s : State) : OnlyChanges pauseParts s (grantTest p s) := by
  unfold grantTest
  try dsimp only
  repeat' first
    | with_reducible apply OnlyChanges.refl
    | exact Eq.refl true
    | with_reducible apply OnlyChanges.after (withdrawMaker_changes _ _)
    | with_reducible apply OnlyChanges.after (startTest_changes _ _)
    | with_reducible apply OnlyChanges.after (buildTest_changes _ _)
    | with_reducible apply OnlyChanges.after (buildTests_changes _ _ _)
    | split

theorem serveReserve_changes (k : Nat) (s : State) : OnlyChanges noticeParts s (serveReserve k s) := by
  induction k generalizing s with
  | zero => exact .refl _
  | succ k ih =>
    unfold serveReserve; split
    · split
      · refine .seq ?_ (ih _)
        split
        · exact (grantTest_changes _ _).weaken rfl
        · exact (grantAgent_changes _).weaken rfl
        · exact (grantAlarm_changes _).weaken rfl
      · exact .refl _
    · exact .refl _

/-! ### Received frames -/

theorem countDrop_changes (n : Slot) (reason : DropReason) (f : FlowRef) (s : State) :
    OnlyChanges [.fwd] s (countDrop n reason f s) := by
  unfold countDrop
  dsimp only
  split
  · exact updDrops_changes _ _ _
  · exact (updDrops_changes _ _ _).seq (with_fwd_changes _ _)
  · exact (updDrops_changes _ _ _).seq (updFlow_changes _ _ _)

theorem countForwarded_changes (f : FlowRef) (s : State) : OnlyChanges [.fwd] s (countForwarded f s) := by
  unfold countForwarded
  split
  · exact .refl _
  · exact with_fwd_changes _ _
  · exact updFlow_changes _ _ _

theorem dropFrame_changes (n : Slot) (reason : DropReason) (f : FlowRef) (s : State) :
    OnlyChanges [.ports, .fwd, .qm, .out] s (dropFrame n reason f s) := by
  unfold dropFrame
  try dsimp only
  repeat' first
    | with_reducible apply OnlyChanges.refl
    | exact Eq.refl true
    | with_reducible apply OnlyChanges.after (discardAssembly_changes _ _)
    | with_reducible apply OnlyChanges.after (countDrop_changes _ _ _ _)
    | split

theorem dispatchFrame_changes (n : Slot) {block : State → State} {ps : List Part}
    (h : ∀ u, OnlyChanges ps u (block u)) (sub : ([Part.ports, .fwd, .qm, .out].all fun p => ps.contains p) = true)
    (s : State) : OnlyChanges ps s (dispatchFrame n block s) :=
  .seq (.seq (((updDrops_changes n _ s).weaken rfl : OnlyChanges [Part.ports, .fwd, .qm, .out] s _).weaken sub)
    (((discardAssembly_changes _ _).weaken rfl : OnlyChanges [Part.ports, .fwd, .qm, .out] _ _).weaken sub)) (h _)

theorem dispatchByKind_changes (n : Slot) (bytes : List Byte) (arrival : Stamp) (s : State) :
    OnlyChanges [.ports, .fwd, .qm, .cal, .time, .trk, .delay, .mon, .alarm, .agent, .out, .free] s (dispatchByKind n bytes arrival s) := by
  unfold dispatchByKind
  split
  · exact dispatchFrame_changes n (fun u => (acceptRequest_changes _ u).weaken rfl) rfl s
  · exact dispatchFrame_changes n (fun u => (takeReply_changes _ _ _ _ _ u).weaken rfl) rfl s
  · exact dispatchFrame_changes n (fun u => (takeRefTime_changes _ _ _ _ u).weaken rfl) rfl s
  · exact dispatchFrame_changes n (fun u => (takeMail_changes _ _ _ u).weaken rfl) rfl s
  · exact dispatchFrame_changes n (fun u => .refl u) rfl s
  all_goals exact (dropFrame_changes _ _ _ _).weaken rfl

theorem countVerdict_changes (v : Verdict) (p : Slot) (s : State) : OnlyChanges [.qm] s (countVerdict v p s) := by
  unfold countVerdict
  try dsimp only
  repeat' first
    | with_reducible apply OnlyChanges.refl
    | exact Eq.refl true
    | with_reducible apply OnlyChanges.after (countDiscard_changes _ _)
    | with_reducible apply OnlyChanges.after (countRefusal_changes _ _)
    | split

theorem clearAssembly_changes (n : Slot) (s : State) : OnlyChanges [.ports] s (clearAssembly n s) := by
  unfold clearAssembly
  try dsimp only
  repeat' first
    | with_reducible apply OnlyChanges.refl
    | exact Eq.refl true
    | with_reducible apply OnlyChanges.after (updPort_changes _ _ _)
    | split

theorem admitCard_changes (n : Slot) (bytes : List Byte) (c : FrameClass) (ports : List Slot) (f : FlowRef) (s : State) :
    OnlyChanges [.ports, .fwd, .qm, .delay, .out] s (admitCard n bytes c ports f s) := by
  unfold admitCard
  try dsimp only
  repeat' first
    | with_reducible apply OnlyChanges.refl
    | exact Eq.refl true
    | with_reducible apply OnlyChanges.after (reexaminePause_changes _ _)
    | with_reducible apply OnlyChanges.after (arbitrate_changes _ _)
    | with_reducible apply OnlyChanges.after (markExhaustion_changes _)
    | with_reducible apply OnlyChanges.after (storeFrame_changes _ _ _ _ _)
    | with_reducible apply OnlyChanges.after (discardAssembly_changes _ _)
    | with_reducible apply OnlyChanges.after (countForwarded_changes _ _)
    | with_reducible apply OnlyChanges.after (dropFrame_changes _ _ _ _)
    | with_reducible apply OnlyChanges.after (countVerdict_changes _ _ _)
    | with_reducible apply OnlyChanges.after (clearAssembly_changes _ _)
    | with_reducible apply OnlyChanges.after (OnlyChanges.forEach (fun p u => countVerdict_changes _ p u) _ _)
    | with_reducible apply OnlyChanges.after (OnlyChanges.forEach arbitrate_changes _ _)
    | split

theorem forwardOnFlow_changes (n : Slot) (bytes : List Byte) (i : Fin 255) (f : Flow) (r : FlowRecord) (s : State) :
    OnlyChanges [.ports, .fwd, .qm, .delay, .out] s (forwardOnFlow n bytes i f r s) := by
  unfold forwardOnFlow
  try dsimp only
  repeat' first
    | with_reducible apply OnlyChanges.refl
    | exact Eq.refl true
    | with_reducible apply OnlyChanges.after (dropFrame_changes _ _ _ _)
    | with_reducible apply OnlyChanges.after (admitCard_changes _ _ _ _ _ _)
    | split

theorem forwardData_changes (n : Slot) (bytes : List Byte) (s : State) :
    OnlyChanges [.ports, .fwd, .qm, .delay, .out] s (forwardData n bytes s) := by
  unfold forwardData
  try dsimp only
  repeat' first
    | with_reducible apply OnlyChanges.refl
    | exact Eq.refl true
    | with_reducible apply OnlyChanges.after (dropFrame_changes _ _ _ _)
    | with_reducible apply OnlyChanges.after (admitCard_changes _ _ _ _ _ _)
    | with_reducible apply OnlyChanges.after (forwardOnFlow_changes _ _ _ _ _ _)
    | split

theorem forwardFrame_changes (n : Slot) (bytes : List Byte) (arrival : Stamp) (s : State) :
    OnlyChanges [.ports, .fwd, .qm, .cal, .time, .trk, .delay, .mon, .alarm, .agent, .out, .free] s (forwardFrame n bytes arrival s) := by
  unfold forwardFrame
  try dsimp only
  repeat' first
    | with_reducible apply OnlyChanges.refl
    | exact Eq.refl true
    | with_reducible apply OnlyChanges.after (dropFrame_changes _ _ _ _)
    | with_reducible apply OnlyChanges.after (dispatchByKind_changes _ _ _ _)
    | with_reducible apply OnlyChanges.after (forwardData_changes _ _ _)
    | split

theorem countError_changes (p : Slot) (s : State) : OnlyChanges [.ports] s (countError p s) := by
  unfold countError
  try dsimp only
  repeat' first
    | with_reducible apply OnlyChanges.refl
    | exact Eq.refl true
    | with_reducible apply OnlyChanges.after (updPort_changes _ _ _)
    | split

theorem receiveFrame_changes (p : Slot) (bytes : List Byte) (a : Assembly) (s : State) :
    OnlyChanges [.ports, .fwd, .qm, .cal, .time, .trk, .delay, .slots, .side, .mon, .alarm, .agent, .out, .free] s (receiveFrame p bytes a s) := by
  unfold receiveFrame
  try dsimp only
  repeat' first
    | with_reducible apply OnlyChanges.refl
    | exact Eq.refl true
    | with_reducible apply OnlyChanges.after (discardAssembly_changes _ _)
    | with_reducible apply OnlyChanges.after (countLink_changes _ _ _)
    | with_reducible apply OnlyChanges.after (judgeReturn_changes _ _ _ _)
    | with_reducible apply OnlyChanges.after (dropFrame_changes _ _ _ _)
    | with_reducible apply OnlyChanges.after (forwardFrame_changes _ _ _ _)
    | with_reducible apply OnlyChanges.after (countError_changes _ _)
    | split

/-! ### Events of the links -/

theorem receptionEnd_changes (p : Slot) (lanes : List (List Byte)) (s : State) :
    OnlyChanges [.ports, .fwd, .qm, .cal, .time, .trk, .delay, .slots, .side, .mon, .alarm, .agent, .out, .free] s (receptionEnd p lanes s) := by
  unfold receptionEnd
  try dsimp only
  repeat' first
    | with_reducible apply OnlyChanges.refl
    | exact Eq.refl true
    | with_reducible apply OnlyChanges.after (receiveFrame_changes _ _ _ _)
    | split

theorem transmissionEnd_changes (p : Slot) (s : State) : OnlyChanges sendingParts s (transmissionEnd p s) := by
  unfold transmissionEnd
  try dsimp only
  repeat' first
    | with_reducible apply OnlyChanges.refl
    | exact Eq.refl true
    | with_reducible apply OnlyChanges.after (updPort_changes _ _ _)
    | with_reducible apply OnlyChanges.after (updSq_changes _ _ _)
    | with_reducible apply OnlyChanges.after (release_changes _ _)
    | with_reducible apply OnlyChanges.after (arbitrate_changes _ _)
    | with_reducible apply OnlyChanges.after (startTest_changes _ _)
    | split

theorem holdExpiry_changes (p : Slot) (s : State) : OnlyChanges slotParts s (holdExpiry p s) := by
  unfold holdExpiry
  try dsimp only
  repeat' first
    | with_reducible apply OnlyChanges.refl
    | exact Eq.refl true
    | with_reducible apply OnlyChanges.after (updPort_changes _ _ _)
    | with_reducible apply OnlyChanges.after (updSq_changes _ _ _)
    | with_reducible apply OnlyChanges.after (flushAll_changes _ _)
    | with_reducible apply OnlyChanges.after (faultSlot_changes _ _ _ _)
    | with_reducible apply OnlyChanges.after (checkDrain_changes _ _)
    | split

/-! ### Events of the clocks -/

theorem portSecond_changes (n : Slot) (s : State) : OnlyChanges noticeParts s (portSecond n s) := by
  unfold portSecond
  try dsimp only
  repeat' first
    | with_reducible apply OnlyChanges.refl
    | exact Eq.refl true
    | with_reducible apply OnlyChanges.after (updPort_changes _ _ _)
    | with_reducible apply OnlyChanges.after (samplePoint_changes _ _ _)
    | split

theorem timingSecond_changes (n : Slot) (s : State) : OnlyChanges noticeParts s (timingSecond n s) := by
  unfold timingSecond
  try dsimp only
  repeat' first
    | with_reducible apply OnlyChanges.refl
    | exact Eq.refl true
    | with_reducible apply OnlyChanges.after (samplePoint_changes _ _ _)
    | split

theorem bufferSecond_changes (s : State) : OnlyChanges noticeParts s (bufferSecond s) := by
  unfold bufferSecond
  try dsimp only
  repeat' first
    | with_reducible apply OnlyChanges.refl
    | exact Eq.refl true
    | with_reducible apply OnlyChanges.after (samplePoint_changes _ _ _)
    | with_reducible apply OnlyChanges.after (with_qm_changes _ _)
    | split

theorem pulseEdge_changes (s : State) : OnlyChanges eventParts s (pulseEdge s) := by
  unfold pulseEdge
  try dsimp only
  repeat' first
    | with_reducible apply OnlyChanges.refl
    | exact Eq.refl true
    | with_reducible apply OnlyChanges.after (updSource_changes _ _ _)
    | with_reducible apply OnlyChanges.after (takeEvent_changes _ _ _)
    | split

theorem silenceTimeout_changes (src : Source) (s : State) : OnlyChanges timingParts s (silenceTimeout src s) := by
  unfold silenceTimeout
  try dsimp only
  repeat' first
    | with_reducible apply OnlyChanges.refl
    | exact Eq.refl true
    | with_reducible apply OnlyChanges.after (failSource_changes _ _)
    | split

theorem holdoffExpiry_changes (src : Source) (s : State) : OnlyChanges timingParts s (holdoffExpiry src s) := by
  unfold holdoffExpiry
  try dsimp only
  repeat' first
    | with_reducible apply OnlyChanges.refl
    | exact Eq.refl true
    | with_reducible apply OnlyChanges.after (examineSelection_changes _)
    | with_reducible apply OnlyChanges.after (setSource_changes _ _ _)
    | split

theorem holdoverEnd_changes (s : State) : OnlyChanges timingParts s (holdoverEnd s) := by
  unfold holdoverEnd
  try dsimp only
  repeat' first
    | with_reducible apply OnlyChanges.refl
    | exact Eq.refl true
    | with_reducible apply OnlyChanges.after (enterTiming_changes _ _)
    | split

/-! ### Events of the slots -/

theorem seatCard_changes (n : Slot) (s : State) : OnlyChanges slotParts s (seatCard n s) := by
  unfold seatCard
  try dsimp only
  repeat' first
    | with_reducible apply OnlyChanges.refl
    | exact Eq.refl true
    | with_reducible apply OnlyChanges.after (countSlot_changes _ _ _)
    | with_reducible apply OnlyChanges.after (enterIdentifying_changes _ _)
    | with_reducible apply OnlyChanges.after (enterInserted_changes _ _)
    | split

theorem presenceDebounced_changes (n : Slot) (s : State) : OnlyChanges slotParts s (presenceDebounced n s) := by
  unfold presenceDebounced
  try dsimp only
  repeat' first
    | with_reducible apply OnlyChanges.refl
    | exact Eq.refl true
    | with_reducible apply OnlyChanges.after (updSlot_changes _ _ _)
    | with_reducible apply OnlyChanges.after (toEmpty_changes _ _)
    | with_reducible apply OnlyChanges.after (seatCard_changes _ _)
    | split

theorem latchClosed_changes (n : Slot) (s : State) : OnlyChanges slotParts s (latchClosed n s) := by
  unfold latchClosed
  try dsimp only
  repeat' first
    | with_reducible apply OnlyChanges.refl
    | exact Eq.refl true
    | with_reducible apply OnlyChanges.after (enterIdentifying_changes _ _)
    | split

theorem latchOpened_changes (n : Slot) (s : State) : OnlyChanges slotParts s (latchOpened n s) := by
  unfold latchOpened
  try dsimp only
  repeat' first
    | with_reducible apply OnlyChanges.refl
    | exact Eq.refl true
    | with_reducible apply OnlyChanges.after (enterDraining_changes _ _)
    | with_reducible apply OnlyChanges.after (backToInserted_changes _ _)
    | split

theorem latchDebounced_changes (n : Slot) (s : State) : OnlyChanges slotParts s (latchDebounced n s) := by
  unfold latchDebounced
  try dsimp only
  repeat' first
    | with_reducible apply OnlyChanges.refl
    | exact Eq.refl true
    | with_reducible apply OnlyChanges.after (updSlot_changes _ _ _)
    | with_reducible apply OnlyChanges.after (latchClosed_changes _ _)
    | with_reducible apply OnlyChanges.after (latchOpened_changes _ _)
    | split

theorem powerGood_changes (n : Slot) (s : State) : OnlyChanges slotParts s (powerGood n s) := by
  unfold powerGood
  try dsimp only
  repeat' first
    | with_reducible apply OnlyChanges.refl
    | exact Eq.refl true
    | with_reducible apply OnlyChanges.after (updSlot_changes _ _ _)
    | with_reducible apply OnlyChanges.after (enterLinking_changes _ _)
    | split

theorem powerLost_changes (n : Slot) (s : State) : OnlyChanges slotParts s (powerLost n s) := by
  unfold powerLost
  try dsimp only
  repeat' first
    | with_reducible apply OnlyChanges.refl
    | exact Eq.refl true
    | with_reducible apply OnlyChanges.after (updSlot_changes _ _ _)
    | with_reducible apply OnlyChanges.after (faultSlot_changes _ _ _ _)
    | with_reducible apply OnlyChanges.after (powerGood_changes _ _)
    | split

theorem fastFault_changes (n : Slot) (active : Bool) (s : State) :
    OnlyChanges slotParts s (fastFault n active s) := by
  unfold fastFault
  try dsimp only
  repeat' first
    | with_reducible apply OnlyChanges.refl
    | exact Eq.refl true
    | with_reducible apply OnlyChanges.after (updSlot_changes _ _ _)
    | with_reducible apply OnlyChanges.after (faultSlot_changes _ _ _ _)
    | split

theorem softStartExpiry_changes (n : Slot) (s : State) : OnlyChanges slotParts s (softStartExpiry n s) := by
  unfold softStartExpiry
  try dsimp only
  repeat' first
    | with_reducible apply OnlyChanges.refl
    | exact Eq.refl true
    | with_reducible apply OnlyChanges.after (faultSlot_changes _ _ _ _)
    | split

theorem drainExpiry_changes (n : Slot) (s : State) : OnlyChanges slotParts s (drainExpiry n s) := by
  unfold drainExpiry
  try dsimp only
  repeat' first
    | with_reducible apply OnlyChanges.refl
    | exact Eq.refl true
    | with_reducible apply OnlyChanges.after (timeOutDrain_changes _ _)
    | split

theorem criticalReports_changes (id : PointId) (old : PointState) (s : State) :
    OnlyChanges slotParts s (criticalReports id old s) := by
  unfold criticalReports
  try dsimp only
  repeat' first
    | with_reducible apply OnlyChanges.refl
    | exact Eq.refl true
    | with_reducible apply OnlyChanges.after (updateBudget_changes _)
    | with_reducible apply OnlyChanges.after (criticalEntered_changes _ _ _)
    | split

theorem convert_changes (c : Channel) (r : Nat) (s : State) : OnlyChanges slotParts s (convert c r s) := by
  unfold convert
  try dsimp only
  repeat' first
    | with_reducible apply OnlyChanges.refl
    | exact Eq.refl true
    | with_reducible apply OnlyChanges.after (updChannel_changes _ _ _)
    | with_reducible apply OnlyChanges.after (updMon_changes _ _)
    | with_reducible apply OnlyChanges.after (samplePoint_changes _ _ _)
    | with_reducible apply OnlyChanges.after (criticalReports_changes _ _ _)
    | split

theorem conversionComplete_changes (result : BitVec 10) (s : State) :
    OnlyChanges slotParts s (conversionComplete result s) := by
  unfold conversionComplete
  try dsimp only
  repeat' first
    | with_reducible apply OnlyChanges.refl
    | exact Eq.refl true
    | with_reducible apply OnlyChanges.after (convert_changes _ _ _)
    | split

theorem inputDebounced_changes (i : Fin 4) (s : State) : OnlyChanges noticeParts s (inputDebounced i s) := by
  unfold inputDebounced
  try dsimp only
  repeat' first
    | with_reducible apply OnlyChanges.refl
    | exact Eq.refl true
    | with_reducible apply OnlyChanges.after (updInput_changes _ _ _)
    | with_reducible apply OnlyChanges.after (reportCondition_changes _ _ _)
    | split

/-! ### HUB_RESET and the counters -/

theorem clearBlockCounters_changes (s : State) :
    OnlyChanges [.ports, .fwd, .qm, .trk, .delay, .slots, .side, .mon, .alarm] s (clearBlockCounters s) :=
  fun q => by cases q <;> first | exact .inl (by decide) | exact .inr rfl

theorem clearAgentCounters_changes (s : State) : OnlyChanges [.agent] s (clearAgentCounters s) := by
  unfold clearAgentCounters
  try dsimp only
  repeat' first
    | with_reducible apply OnlyChanges.refl
    | exact Eq.refl true
    | with_reducible apply OnlyChanges.after (updAgent_changes _ _)
    | split

theorem resetPort_changes (p : Slot) (s : State) : OnlyChanges pauseParts s (resetPort p s) := by
  unfold resetPort
  try dsimp only
  repeat' first
    | with_reducible apply OnlyChanges.refl
    | exact Eq.refl true
    | with_reducible apply OnlyChanges.after (updPort_changes _ _ _)
    | with_reducible apply OnlyChanges.after (discardAssembly_changes _ _)
    | split

theorem restartBringUp_changes (p : Slot) (s : State) : OnlyChanges slotParts s (restartBringUp p s) := by
  unfold restartBringUp
  try dsimp only
  repeat' first
    | with_reducible apply OnlyChanges.refl
    | exact Eq.refl true
    | with_reducible apply OnlyChanges.after (updPort_changes _ _ _)
    | with_reducible apply OnlyChanges.after (dropTests_changes _ _)
    | with_reducible apply OnlyChanges.after (beginTraining_changes _ _)
    | split

theorem resetQueues_changes (p : Slot) (s : State) : OnlyChanges pauseParts s (resetQueues p s) := by
  unfold resetQueues
  try dsimp only
  repeat' first
    | with_reducible apply OnlyChanges.refl
    | exact Eq.refl true
    | with_reducible apply OnlyChanges.after (updSq_changes _ _ _)
    | with_reducible apply OnlyChanges.after (flushAll_changes _ _)
    | split

theorem resetTraffic_changes (s : State) : OnlyChanges slotParts s (resetTraffic s) := by
  unfold resetTraffic
  dsimp only
  refine .seq ?_ (.forSlots restartBringUp_changes _)
  refine .seq ?_ (.forSlots (fun n t => (setPaused_changes n false t).weaken rfl) _)
  refine .seq ?_ ((with_qm_changes _ _).weaken rfl)
  exact .seq (.forSlots (fun n t => (resetQueues_changes n t).weaken rfl) _)
    (.forSlots (fun n t => (resetPort_changes n t).weaken rfl) _)

theorem resetAlarms_changes (s : State) : OnlyChanges [.qm, .alarm] s (resetAlarms s) := by
  unfold resetAlarms
  try dsimp only
  repeat' first
    | with_reducible apply OnlyChanges.refl
    | exact Eq.refl true
    | with_reducible apply OnlyChanges.after (updAlarm_changes _ _)
    | with_reducible apply OnlyChanges.after (withdrawMaker_changes _ _)
    | split

theorem resetCalendar_changes (s : State) : OnlyChanges [.cal] s (resetCalendar s) := by
  unfold resetCalendar
  try dsimp only
  repeat' first
    | with_reducible apply OnlyChanges.refl
    | exact Eq.refl true
    | with_reducible apply OnlyChanges.after (updCal_changes _ _)
    | split

theorem resetBlocks_changes (s : State) :
    OnlyChanges [.ports, .fwd, .qm, .cal, .time, .trk, .delay, .slots, .side, .mon, .alarm, .agent, .out] s (resetBlocks s) := by
  unfold resetBlocks
  try dsimp only
  repeat' first
    | with_reducible apply OnlyChanges.refl
    | exact Eq.refl true
    | with_reducible apply OnlyChanges.after (updAgent_changes _ _)
    | with_reducible apply OnlyChanges.after (abandonProbes_changes _)
    | with_reducible apply OnlyChanges.after (resetSideband_changes _)
    | with_reducible apply OnlyChanges.after (checkDrains_changes _)
    | with_reducible apply OnlyChanges.after (clearBlockCounters_changes _)
    | with_reducible apply OnlyChanges.after (resetTraffic_changes _)
    | with_reducible apply OnlyChanges.after (resetAlarms_changes _)
    | with_reducible apply OnlyChanges.after (resetCalendar_changes _)
    | split

theorem resetAgent_changes (s : State) : OnlyChanges answerParts s (resetAgent s) := by
  unfold resetAgent
  try dsimp only
  repeat' first
    | with_reducible apply OnlyChanges.refl
    | exact Eq.refl true
    | with_reducible apply OnlyChanges.after (updAgent_changes _ _)
    | with_reducible apply OnlyChanges.after (answer_changes _ _ _ _ _)
    | with_reducible apply OnlyChanges.after (complete_changes _ _ _ _)
    | with_reducible apply OnlyChanges.after (clearAgentCounters_changes _)
    | with_reducible apply OnlyChanges.after (OnlyChanges.forEach (fun r u => complete_changes r _ _ u) _ _)
    | with_reducible apply OnlyChanges.after (OnlyChanges.forEach (fun r u => answer_changes _ r _ _ u) _ _)
    | split

/-! ### The tick -/

/-- What the tick of a sideband transaction reaches. -/
def sidebandParts : List Part := [.side, .out, .free]

theorem sendSignals_changes (signals : List SidebandSignal) (s : State) :
    OnlyChanges [.out] s (sendSignals signals s) := by
  unfold sendSignals
  split
  · exact OnlyChanges.forEach (fun g t => emit_changes _ t) _ _
  · exact .refl s

theorem toPhase_changes (p : SidebandPhase) (t : Transaction) (s : State) :
    OnlyChanges sidebandParts s (toPhase p t s) :=
  ((updSide_changes _ _).weaken rfl).seq ((sendSignals_changes _ _).weaken rfl)

theorem dataByteOver_changes (t : Transaction) (b : Byte) (s : State) :
    OnlyChanges sidebandParts s (dataByteOver t b s) :=
  ((sendSignals_changes _ _).weaken rfl).seq (toPhase_changes _ _ _)

theorem elementOver_changes (t : Transaction) (s : State) : OnlyChanges sidebandParts s (elementOver t s).1 := by
  have drawn : OnlyChanges sidebandParts s s.drawn := (drawn_changes s).weaken rfl
  unfold elementOver
  dsimp only
  split
  · split
    · dsimp only
      exact drawn.seq ((updSide_changes _ _).weaken rfl)
    · exact drawn.seq (toPhase_changes _ _ _)
  · exact toPhase_changes _ _ _
  · exact drawn.seq (toPhase_changes _ _ _)
  · exact drawn.seq (toPhase_changes _ _ _)
  · exact toPhase_changes _ _ _
  · exact drawn.seq (toPhase_changes _ _ _)
  · exact drawn.seq (dataByteOver_changes _ _ _)
  · split
    · exact ((endTransaction_changes s).weaken rfl).seq ((startTransaction_changes _).weaken rfl)
    · exact .refl s

theorem tickSideband_changes (s : State) : OnlyChanges sidebandParts s (tickSideband s).1 := by
  have drawn (f : Sideband → Sideband) : OnlyChanges sidebandParts s (s.drawn.updSide f) :=
    ((drawn_changes s).weaken rfl).seq ((updSide_changes f _).weaken rfl)
  unfold tickSideband
  dsimp only
  split
  · exact .refl s
  · split
    · dsimp only
      exact drawn _
    · split
      · exact (drawn _).seq (elementOver_changes _ _)
      · dsimp only
        exact drawn _

theorem tickMonitor_changes (s : State) : OnlyChanges [.free] s (tickMonitor s).1 := by
  unfold tickMonitor
  split
  · exact drawn_changes s
  · exact .refl s

/-- A tick changes the clocks, the transaction and the signals on the sideband, the queue of commands, and the count of
free values. -/
theorem State.tick_changes (s : State) : OnlyChanges [.pending, .time, .side, .out, .free] s s.tick := by
  have start : OnlyChanges [.pending, .time, .side, .out, .free] s { s.begin with time := s.time.advance } :=
    fun p => by cases p <;> simp [Part.Same, State.begin]
  have on : OnlyChanges [.pending, .time, .side, .out, .free] s
      (tickMonitor (tickSideband { s.begin with time := s.time.advance }).1).1 :=
    (start.seq ((tickSideband_changes _).weaken rfl)).seq ((tickMonitor_changes _).weaken rfl)
  exact on.seq fun p => by cases p <;> simp [State.tick, Part.Same]

end Sys2Proof.Machine
end

