-- ==== Sys2Proof/Laws/Operations.lean ====
section
/-! SUPPORT. What the shared operations do, said once each: the step, the taking of a request and the drains, the
pause, references and frames, the queues, the points of the alarm unit, the answers of the agent, and identity
records. -/

namespace Sys2Proof.Machine

/-! ### A step, and the commands that form it -/

/-- A step is a command, taken from the queue or come about at once, or a tick. -/
theorem step_cases {s t : State} (h : step s = .next t) :
    (∃ i rest, s.pending = i :: rest ∧ exec i { s with pending := rest } = .next t) ∨
      (∃ i, s.pending = [] ∧ s.immediate = some i ∧ exec i s = .next t) ∨
      (s.pending = [] ∧ s.immediate = none ∧ t = s.tick) := by
  unfold step at h
  cases hp : s.pending with
  | cons i rest =>
    rw [hp] at h
    exact .inl ⟨i, rest, rfl, h⟩
  | nil =>
    rw [hp] at h
    cases hi : s.immediate with
    | some i =>
      rw [hi] at h
      exact .inr (.inl ⟨i, rfl, rfl, h⟩)
    | none =>
      rw [hi] at h
      exact .inr (.inr ⟨rfl, rfl, by cases h; rfl⟩)

/-- What every command keeps from every state, whatever commands wait, and every tick keeps, every step keeps. -/
theorem step_keeps {Inv : State → Prop} (queue : ∀ (s : State) (q : List Instr), Inv s → Inv { s with pending := q })
    (command : ∀ (i : Instr) (s t : State), Inv s → exec i s = .next t → Inv t) (tick : ∀ s : State, Inv s → Inv s.tick)
    {s t : State} (hs : Inv s) (h : step s = .next t) : Inv t := by
  rcases step_cases h with ⟨i, rest, -, e⟩ | ⟨i, -, -, e⟩ | ⟨-, -, rfl⟩
  · exact command i _ t (queue s rest hs) e
  · exact command i s t hs e
  · exact tick s hs

/-! ### The taking of a request -/

/-- A request that is taken leaves the queue, has its effect, and is answered where its effect gives an answer. -/
theorem request_takes {s : State} {i : Instr} {r : Request} (h : Takes s i r) (effect : Request → State → Effect) :
    request i effect s = .next (match (effect r s.taking).2 with
      | some (status, results) => answer .taken r status results (effect r s.taking).1
      | none => (effect r s.taking).1) := by
  obtain ⟨head, may, decodes⟩ := h
  cases hq : s.agent.queue with
  | nil => rw [hq] at head; cases head
  | cons q rest =>
    rw [hq] at head
    obtain rfl : q = r := by simpa using head
    have tail : s.taking = { s with out := [], agent := { s.agent with queue := rest } } := by
      simp [State.taking, hq]
    have may' : s.begin.mayTake = true := may
    have queue' : s.begin.agent.queue = q :: rest := hq
    have takes : (s.begin.mayTake && carries q.payload i) = true := by simp [may', carries, decodes]
    unfold request takeRequest
    rw [queue', tail]
    dsimp only
    rw [if_pos takes]
    rfl

/-- Where the agent does not take a request as the command, the command only ends the outputs of the last one. -/
theorem request_waits {s : State} {i : Instr} (h : ∀ r, ¬ Takes s i r) (effect : Request → State → Effect) :
    request i effect s = .next { s with out := [] } := by
  have rest : takeRequest i effect s.begin = s.begin := by
    unfold takeRequest
    split
    · next r rs hq =>
      split
      · next hit =>
        simp only [carries, Bool.and_eq_true, decide_eq_true_eq] at hit
        exact absurd ⟨by rw [show s.agent.queue = r :: rs from hq]; rfl, hit.1, hit.2⟩ (h r)
      · rfl
    · rfl
  unfold request
  rw [rest]
  rfl

/-- A request that is taken and refused has no effect but its answer. -/
theorem request_refuses {s : State} {i : Instr} {r : Request} (h : Takes s i r) {effect : Request → State → Effect}
    {status : Status} (refused : effect r s.taking = refusedWith status s.taking) :
    request i effect s = .next (answer .taken r status [] s.taking) := by
  rw [request_takes h, refused]
  rfl

/-! ### Drains -/

/-- A slot that is not draining has no drain to end. -/
theorem checkDrain_of_not_draining {n : Slot} {s : State} (h : (s.slot n).state ≠ .draining) : checkDrain n s = s := by
  simp [checkDrain, h]

/-- A drain goes on while the port has something to send. -/
theorem checkDrain_of_busy {n : Slot} {s : State} (h : s.egressEmpty n = false) : checkDrain n s = s := by
  simp [checkDrain, h]

/-- Where no drain can end none does. -/
theorem checkDrains_of_none {s : State} (h : ∀ n : Slot, (s.slot n).state = .draining → s.egressEmpty n = false) :
    checkDrains s = s := by
  have one : ∀ n : Slot, checkDrain n s = s := fun n => by
    by_cases hn : (s.slot n).state = .draining
    · exact checkDrain_of_busy (h n hn)
    · exact checkDrain_of_not_draining hn
  unfold checkDrains forSlots
  induction allSlots with
  | nil => rfl
  | cons n ns ih => rw [List.foldl_cons, one n, ih]

/-- Without a slot draining no drain ends. -/
theorem checkDrains_of_noneDraining {s : State} (h : s.NoneDraining) : checkDrains s = s :=
  checkDrains_of_none fun n hn => absurd hn (h n)

/-! ### The pause -/

/-- Pause asserted takes its value, and a change of it goes out as a symbol of an UP link. -/
theorem setPauseAsserted_eq (p : Slot) (b : Bool) (s : State) :
    setPauseAsserted p b s = { s with
      ports := s.ports.write p { s.port p with pauseAsserted := b }
      out := s.out ++ (if b = (s.port p).pauseAsserted ∨ (s.port p).link ≠ .up then []
        else [.symbol p (if b then .pauseOn else .pauseOff)]) } := by
  have kept : s.ports.write p { s.port p with pauseAsserted := (s.port p).pauseAsserted } = s.ports :=
    Table.write_read s.ports p
  unfold setPauseAsserted
  by_cases same : (s.port p).pauseAsserted = b
  · subst same
    rw [if_pos rfl, kept, if_pos (.inl rfl), List.append_nil]
  · have other : ¬ b = (s.port p).pauseAsserted := fun e => same e.symm
    rw [if_neg same]
    by_cases up : (s.port p).link = .up
    · have told : ¬ (b = (s.port p).pauseAsserted ∨ (s.port p).link ≠ .up) := by simp [other, up]
      rw [if_pos up, if_neg told]
      rfl
    · rw [if_neg up, if_pos (.inr up), List.append_nil]; rfl

/-- The paused decision takes its value, and a change of it is told to the port. -/
theorem setPaused_eq (n : Slot) (b : Bool) (s : State) :
    setPaused n b s = { s with
      ports := s.ports.write n (s.portTold n b)
      qm := { s.qm with slot := s.qm.slot.write n { s.sq n with paused := b } }
      out := s.out ++ s.symbolsTold n b } := by
  unfold setPaused
  by_cases same : (s.sq n).paused = b
  · subst same
    have told : s.ports.write n (s.portTold n (s.sq n).paused) = s.ports := by
      simp [State.portTold, State.port]
    have kept : s.qm.slot.write n { s.sq n with paused := (s.sq n).paused } = s.qm.slot :=
      Table.write_read s.qm.slot n
    rw [if_pos rfl, told, kept]
    simp [State.symbolsTold]
  · have other : ¬ b = (s.sq n).paused := fun e => same e.symm
    rw [if_neg same, setPauseAsserted_eq]
    simp only [State.portTold, State.symbolsTold, other, if_false, false_or]
    rfl

/-- The examination of the pause gives the decision that the held cells and the settings ask for. -/
theorem reexaminePause_eq (n : Slot) (s : State) :
    reexaminePause n s = setPaused n (s.pausedAt n (s.heldCells n)) s := by
  unfold reexaminePause State.pausedAt
  cases hp : (s.sq n).paused <;> simp [setPaused, hp] <;> split <;> simp_all

/-- The examination of a pause leaves the stored frames and what stands in the queues. -/
theorem reexaminePause_frames (n : Slot) (s : State) : (reexaminePause n s).qm.frames = s.qm.frames := by
  rw [reexaminePause_eq, setPaused_eq]

theorem reexaminePause_queues (n q : Slot) (s : State) :
    ((reexaminePause n s).sq q).queues = (s.sq q).queues := by
  rw [reexaminePause_eq, setPaused_eq]
  simp only [State.sq, Table.read_write]
  split
  · next h => rw [h]
  · rfl

/-! ### References -/

theorem find_of_id {s : State} {id : Nat} {f : StoredFrame} (h : s.frame? id = some f) : f.id = id := by
  simpa using List.find?_some h

/-- Freeing a frame leaves every other stored frame and takes this one away. -/
theorem frame?_filter (frames : List StoredFrame) (id j : Nat) :
    (frames.filter fun g => g.id != id).find? (·.id == j) = if j = id then none else frames.find? (·.id == j) := by
  induction frames with
  | nil => simp
  | cons g gs ih =>
    by_cases hid : g.id = id
    · rw [List.filter_cons_of_neg (by simp [hid]), ih]
      by_cases hj : j = id
      · simp [hj]
      · rw [if_neg hj, if_neg hj, List.find?_cons_of_neg (by simp [hid]; exact fun e => hj e.symm)]
    · rw [List.filter_cons_of_pos (by simp [hid])]
      by_cases hj : g.id = j
      · rw [List.find?_cons_of_pos (by simp [hj]), List.find?_cons_of_pos (by simp [hj]), if_neg]
        exact fun e => hid (hj.trans e)
      · rw [List.find?_cons_of_neg (by simp [hj]), List.find?_cons_of_neg (by simp [hj]), ih]

theorem freeFrame_frames (f : StoredFrame) (s : State) :
    (freeFrame f s).qm.frames = s.qm.frames.filter fun g => g.id != f.id := by
  unfold freeFrame
  split
  · dsimp only
    split
    · rfl
    · rw [reexaminePause_frames]
  · rfl

theorem frame?_updFrame (id j : Nat) (f : StoredFrame → StoredFrame) (keeps : ∀ g, (f g).id = g.id) (s : State) :
    (updFrame id f s).frame? j = if j = id then (s.frame? j).map f else s.frame? j := by
  unfold updFrame State.frame?
  induction s.qm.frames with
  | nil => simp
  | cons g gs ih =>
    dsimp only at ih ⊢
    have idOf : (if g.id = id then f g else g).id = g.id := by split <;> simp [keeps]
    rw [List.map_cons]
    by_cases hj : g.id = j
    · rw [List.find?_cons_of_pos (by rw [idOf]; simp [hj]), List.find?_cons_of_pos (by simp [hj])]
      by_cases h : j = id
      · simp [hj.trans h, h]
      · have other : ¬ g.id = id := fun e => h (hj.symm.trans e)
        rw [if_neg h, if_neg other]
    · rw [List.find?_cons_of_neg (by rw [idOf]; simp [hj]), List.find?_cons_of_neg (by simp [hj]), ih]

/-- A returned reference is given back: at the last one the frame is freed, and no other frame changes. -/
theorem release_givesBack {id : Nat} {f : StoredFrame} {s : State} (h : s.frame? id = some f) :
    GivesBack id f s (release id s) := by
  have hid := find_of_id h
  unfold release
  rw [h]
  dsimp only
  by_cases last : f.refs ≤ 1
  · have at' : ∀ j, (freeFrame f s).frame? j = if j = id then none else s.frame? j := fun j => by
      unfold State.frame?
      rw [freeFrame_frames, hid, frame?_filter]
    rw [if_pos last]
    exact ⟨fun _ => by rw [at', if_pos rfl], fun more => absurd last (by omega), fun j hj => by rw [at', if_neg hj]⟩
  · have at' := fun j => frame?_updFrame id j (fun g => { g with refs := g.refs - 1 }) (fun _ => rfl) s
    rw [if_neg last]
    exact ⟨fun few => absurd few last, fun _ => by rw [at', if_pos rfl, h]; rfl, fun j hj => by rw [at', if_neg hj]⟩

/-- A returned reference leaves what stands in the queues. -/
theorem release_queues (id : Nat) (q : Slot) (s : State) : ((release id s).sq q).queues = (s.sq q).queues := by
  unfold release freeFrame updFrame
  split
  · split
    · split
      · dsimp only
        split
        · rfl
        · rw [reexaminePause_queues]; rfl
      · rfl
    · rfl
  · rfl

/-! ### The arbiter -/

/-- A decision starts the head of the queue it names, or leaves the port idle. -/
theorem arbitrate_idle {p : Slot} {s : State} (h : decision s p = none) : arbitrate p s = s := by
  simp [arbitrate, h]

theorem arbitrate_starts {p : Slot} {s : State} {c : FrameClass} (h : decision s p = some c) :
    arbitrate p s = startFrame p c s := by
  simp [arbitrate, h]

/-- A port that is not free starts nothing. -/
theorem arbitrate_of_not_free {p : Slot} {s : State} (h : s.portFree p = false) : arbitrate p s = s :=
  arbitrate_idle (by simp [decision, h])

/-- A port whose queues are empty starts nothing. -/
theorem arbitrate_of_empty {p : Slot} {s : State} (h : (s.sq p).queues = ⟨[], [], [], []⟩) : arbitrate p s = s := by
  refine arbitrate_idle ?_
  unfold decision
  simp only [h, Queues.firstOutside]
  split
  · split
    · rfl
    · split <;> rfl
  · rfl

/-! ### Queues -/

/-- A stored frame stands once more, with a reference for each port of a list. -/
theorem storeFrame_qm (body : FrameBody) (c : FrameClass) (cells : Nat) (p : Slot) (s : State) :
    storeFrame body c cells [p] s = { s with qm := { s.qm with
      frames := s.qm.frames ++ [⟨s.qm.nextFrame, body, c, cells, 1⟩], nextFrame := s.qm.nextFrame + 1
      slot := s.qm.slot.write p { s.sq p with
        queues := (s.sq p).queues.setClass c ((s.sq p).queues.ofClass c ++ [s.qm.nextFrame]) } } } := rfl

/-! ### Received frames -/

/-- A discarded assembly that held cells leaves the port, and the pause is examined. -/
theorem discardAssembly_of_cells {p : Slot} {s : State} (h : (s.port p).assemblyCells ≠ 0) :
    discardAssembly p s = reexaminePause p (s.updPort p fun q => { q with assembly := none }) := by
  unfold Port.assemblyCells at h
  unfold discardAssembly
  split
  · next a ha => simpa [ha] using fun hc => absurd hc (by simpa [ha] using h)
  · next ha => simp [ha] at h

/-- A discarded assembly that held no cell leaves the port, and the pause stays as it was. -/
theorem discardAssembly_of_no_cells {p : Slot} {s : State} {a : Assembly} (h : (s.port p).assembly = some a)
    (c : a.cells = 0) : discardAssembly p s = s.updPort p fun q => { q with assembly := none } := by
  simp [discardAssembly, h, c]

theorem discardAssembly_of_none {p : Slot} {s : State} (h : (s.port p).assembly = none) : discardAssembly p s = s := by
  simp [discardAssembly, h]

/-- A drop counted against no flow rises in its slot's counter of the reason alone. -/
theorem countDrop_none (n : Slot) (reason : DropReason) (s : State) :
    countDrop n reason .none s = { s with fwd := { s.fwd with drops := s.dropsAfter n reason } } := rfl

/-! ### Points -/

theorem setRelays_points (s : State) (id : PointId) : (setRelays s).point id = s.point id := rfl

/-- A point's move: its record is the new one, with the second of hub time where its state has changed. -/
theorem movePoint_becomes (id : PointId) (new : Point) (s : State) : PointBecomes id new s (movePoint id new s) := by
  unfold PointBecomes movePoint
  rw [setRelays_points]
  refine (Table.read_write_same _ _ _).trans ?_
  split
  · next h => rfl
  · next h => rfl

theorem movePoint_others {id j : PointId} (new : Point) (s : State) (h : j ≠ id) :
    (movePoint id new s).point j = s.point j := by
  unfold movePoint
  rw [setRelays_points]
  exact Table.read_write_ne _ _ h

/-! ### The agent -/

/-- An answer to a request that has a code carries code, tag, status and results. -/
theorem answer_of_code {kind : ResponseKind} {r : Request} {status : Status} {results : List Byte} {s : State}
    {code : Byte} {rest : List Byte} (h : r.payload = code :: rest) :
    answer kind r status results s =
      makeResponse kind r.requester r.seq (code :: (bytes16 (requestTag r.payload) ++ status.code :: results)) s := by
  unfold answer
  rw [h]
  rfl

/-- The completion of a record that stands: it is dropped, and its response is made. -/
theorem complete_of_record {record : Nat} {f : InFlight} {status : Status} {results : List Byte} {s : State}
    (h : s.agent.inflight.find? (·.record == record) = some f) :
    complete record status results s =
      makeResponse .completion f.requester f.seq (answerPayload f.kind.code f.tag status results)
        (s.updAgent fun a => { a with inflight := a.inflight.filter (·.record != record) }) := by
  unfold complete
  rw [h]

theorem complete_of_none {record : Nat} {status : Status} {results : List Byte} {s : State}
    (h : s.agent.inflight.find? (·.record == record) = none) : complete record status results s = s := by
  unfold complete
  rw [h]

/-- A response is sent at once, given up as a refusal too many, or waits for the reserve. -/
theorem makeResponse_cases (kind : ResponseKind) (dest : Slot) (seq : Byte) (payload : List Byte) (s : State) :
    let r : Response := ⟨kind, dest, seq, payload, s.hubNow⟩
    makeResponse kind dest seq payload s = sendResponse r s ∨
      (kind = .refusal ∧ makeResponse kind dest seq payload s =
        s.updAgent fun a => { a with counters := { a.counters with unsent := count32 a.counters.unsent } }) ∨
      makeResponse kind dest seq payload s =
        joinWaiting .agent (s.updAgent fun a => { a with responses := a.responses ++ [r] }) := by
  unfold makeResponse
  dsimp only
  split
  · exact .inl rfl
  · split
    · next h => exact .inr (.inl ⟨h.1, rfl⟩)
    · exact .inr (.inr rfl)

/-! ### Points and notices -/

/-- A completed wait leaves the list of waits and clears the overflow mark; the points and the rest of the alarm unit
stay. -/
theorem completeWait_alarm (w : Wait) (ns : List Notice) (s : State) :
    (completeWait w ns s).alarm =
      { s.alarm with waits := s.alarm.waits.filter (·.record != w.record), overflow := false } :=
  (complete_changes _ _ _ _).same .alarm (by decide)

theorem pendNotice_point (n : Notice) (s : State) (id : PointId) : (pendNotice n s).point id = s.point id := by
  unfold pendNotice State.point State.updAlarm
  dsimp only
  split <;> rfl

theorem deliver_point (ws : List Wait) (ns : List Notice) (s : State) (id : PointId) :
    (deliver ws ns s).point id = s.point id := by
  induction ws generalizing ns s with
  | nil =>
    unfold deliver forEach
    induction ns generalizing s with
    | nil => rfl
    | cons n ns ih => rw [List.foldl_cons, ih, pendNotice_point]
  | cons w ws ih =>
    unfold deliver
    split
    · rfl
    · rw [ih]
      unfold State.point
      rw [completeWait_alarm]

/-- The notices of an event leave the points. -/
theorem produce_point (bodies : List NoticeBody) (s : State) (id : PointId) :
    (produce bodies s).point id = s.point id := by
  unfold produce
  rw [deliver_point]
  rfl

/-- With no wait outstanding the notices of an event reach the alarm unit alone, and none becomes outstanding. -/
theorem produce_of_no_waits {s : State} (none : s.alarm.waits = []) (bodies : List NoticeBody) :
    OnlyChanges [.alarm] s (produce bodies s) ∧ (produce bodies s).alarm.waits = [] := by
  unfold produce
  dsimp only [State.updAlarm]
  rw [none]
  unfold deliver
  refine ⟨.after (OnlyChanges.forEach (fun n t => pendNotice_changes n t) _ _) (with_alarm_changes _ _) (by decide), ?_⟩
  unfold forEach
  generalize bodies.map _ = notices
  have kept : ∀ (ns : List Notice) (t : State),
      (ns.foldl (fun t n => pendNotice n t) t).alarm.waits = t.alarm.waits := by
    intro ns
    induction ns with
    | nil => exact fun _ => rfl
    | cons n ns ih =>
      intro t
      rw [List.foldl_cons, ih]
      unfold pendNotice State.updAlarm
      dsimp only
      split <;> rfl
  rw [kept]

/-- The same of a change of a point. -/
theorem changePoint_of_no_waits {s : State} (none : s.alarm.waits = []) (id : PointId) (new : Point) :
    OnlyChanges [.alarm] s (changePoint id new s) ∧ (changePoint id new s).alarm.waits = [] := by
  obtain ⟨only, quiet⟩ := produce_of_no_waits (s := movePoint id new s) none (moveNotice id (s.point id).state new)
  exact ⟨only.after (movePoint_changes id new s) (by decide), quiet⟩

theorem changePoint_becomes (id : PointId) (new : Point) (s : State) :
    PointBecomes id new s (changePoint id new s) := by
  unfold PointBecomes changePoint
  rw [produce_point]
  exact movePoint_becomes id new s

theorem changePoint_others {id j : PointId} (new : Point) (s : State) (h : j ≠ id) :
    (changePoint id new s).point j = s.point j := by
  unfold changePoint
  rw [produce_point]
  exact movePoint_others new s h

/-- Entry to ACTIVE and the end of a point, as the statements name them. -/
theorem enterActive_eq (p : Point) : p.enterActive = risen p := rfl

theorem finish_eq (p : Point) : p.finish = ended p := by
  unfold Point.finish ended Point.enterClear
  cases p.latched <;> cases p.acked <;> rfl

/-- A sample reaches its point by the table of R165. -/
theorem samplePoint_sampled (id : PointId) (b : Bool) (s : State) : PointSampled id b s (samplePoint id b s) := by
  have becomes : ∀ new : Point, (s.point id).sample b = new → PointBecomes id new s (samplePoint id b s) :=
    fun new h => h ▸ changePoint_becomes id _ s
  refine ⟨?_, ?_, ?_, ?_, ?_, ?_, ?_, ?_, ?_⟩
  case refine_3 =>
    rintro (h | h) hb <;> exact becomes _ (by simp only [Point.sample, h, hb]; rfl)
  all_goals
    intro h hb
    refine becomes _ ?_
    simp only [Point.sample, h, hb, finish_eq]
    first | rfl | done

/-- A report reaches its point by R166. -/
theorem reportCondition_reported (id : PointId) (b : Bool) (s : State) :
    PointReported id b s (reportCondition id b s) := by
  have becomes : ∀ new : Point, (s.point id).report b = new → PointBecomes id new s (reportCondition id b s) :=
    fun new h => h ▸ changePoint_becomes id _ s
  refine ⟨fun h => becomes _ ?_, fun h hb => becomes _ ?_, fun h hb => becomes _ ?_⟩
  · simp [Point.report, h]
  · subst hb
    cases hs : (s.point id).state <;> simp [Point.report, h, hs, risen, Point.enterActive, count16]
  · subst hb
    cases hs : (s.point id).state <;>
      simp [Point.report, h, hs, ended, Point.finish, Point.enterClear] <;> split <;> rfl

/-! ### Identity records -/

/-- A byte of a record, sent again. -/
theorem u8_recordByte {bytes : List Byte} {i : Nat} (h : i < bytes.length) :
    u8 (recordByte bytes i) = (bytes.drop i).take 1 := by
  simp [u8, beBytes, recordByte, List.take_one, List.getD_eq_getElem?_getD, h]

theorem CardKind.code_of_ofCode {c : Nat} {k : CardKind} (h : CardKind.ofCode c = some k) : k.code = c := by
  unfold CardKind.ofCode at h
  split at h <;> cases h <;> rfl

/-- An identity read from the 64 bytes of a card is sent by READ_IDENTITY as those 64 bytes (12.5, R188; LOG 62). -/
theorem Identity.bytes_of_validate {bytes : List Byte} {i : Identity} (h : validate bytes = some i)
    (length : bytes.length = 64) : i.bytes = bytes := by
  unfold validate at h
  split at h
  case h_2 => cases h
  case h_1 kind code =>
    obtain ⟨-, rfl⟩ : _ ∧ readRecord kind bytes = i := by simpa using h
    have single (k : Nat) (inside : k < 64) : [bytes.getD k 0] = (bytes.drop k).take 1 := by
      simp [List.take_one, List.getD_eq_getElem?_getD, length, inside]
    simp only [Identity.bytes, readRecord, CardKind.code_of_ofCode code, u16]
    rw [single 35 (by decide), single 63 (by decide)]
    repeat rw [u8_recordByte (by omega)]
    repeat rw [beBytes_payloadField (by omega)]
    simp only [List.drop_zero, ← List.take_add, Nat.reduceAdd]
    exact List.take_of_length_le length.le

end Sys2Proof.Machine
end

