-- ==== Sys2Proof/Laws/Grants.lean ====
section
/-! SUPPORT. What a grant of hub reserve cells does, said once for each maker: the agent's entry, the alarm unit's and a
port's, in the words of `HeadGranted`. -/

namespace Sys2Proof.Machine

/-! ### The reserve waiting list beside other operations -/

/-- The state with another reserve waiting list. -/
def State.withWaiting (w : List Maker) (s : State) : State := { s with qm := { s.qm with waiting := w } }

theorem probeSent_withWaiting (n : Slot) (q : Byte) (x : Stamp) (w : List Maker) (s : State) :
    probeSent n q x (s.withWaiting w) = (probeSent n q x s).withWaiting w := by
  unfold probeSent
  rw [show (s.withWaiting w).slotDelay n = s.slotDelay n from rfl]
  cases (s.slotDelay n).outstanding with
  | none => rfl
  | some pr => dsimp only; split <;> rfl

theorem reportEgress_withWaiting (b : FrameBody) (w : List Maker) (s : State) :
    reportEgress b (s.withWaiting w) = (reportEgress b s).withWaiting w := by
  unfold reportEgress
  cases b with
  | card => rfl
  | hub h =>
    dsimp only
    split
    · exact probeSent_withWaiting _ _ _ _ _
    · rfl

theorem startFrame_withWaiting (p : Slot) (c : FrameClass) (w : List Maker) (s : State) :
    startFrame p c (s.withWaiting w) = (startFrame p c s).withWaiting w := by
  unfold startFrame
  rw [show (s.withWaiting w).sq p = s.sq p from rfl]
  cases (s.sq p).queues.ofClass c with
  | nil => rfl
  | cons id rest =>
    dsimp only
    rw [show (s.withWaiting w).frame? id = s.frame? id from rfl]
    cases s.frame? id with
    | none => rfl
    | some f => dsimp only; rw [← reportEgress_withWaiting]; rfl

/-- The arbiter neither reads nor writes the reserve waiting list. -/
theorem arbitrate_withWaiting (p : Slot) (w : List Maker) (s : State) :
    arbitrate p (s.withWaiting w) = (arbitrate p s).withWaiting w := by
  unfold arbitrate
  rw [show decision (s.withWaiting w) p = decision s p from rfl]
  split
  · exact startFrame_withWaiting _ _ _ _
  · rfl

theorem offered_withWaiting (h : HubFrame) (w : List Maker) (s : State) :
    State.offered h (s.withWaiting w) = (State.offered h s).withWaiting w := by
  unfold State.offered
  dsimp only
  rw [show (s.withWaiting w).slot h.dest = s.slot h.dest from rfl,
    show (s.withWaiting w).sq h.dest = s.sq h.dest from rfl]
  split
  · rw [← arbitrate_withWaiting]; rfl
  · rfl

/-- A maker without an entry joins the tail. -/
theorem joinWaiting_of_not_mem {m : Maker} {s : State} (h : m ∉ s.qm.waiting) :
    joinWaiting m s = s.withWaiting (s.qm.waiting ++ [m]) := by
  unfold joinWaiting
  rw [if_neg (by simpa using h)]
  rfl

/-- A withdrawn entry at the head leaves the others of the list. -/
theorem withdrawMaker_head {m : Maker} {rest : List Maker} {s : State} (h : s.qm.waiting = m :: rest) :
    withdrawMaker m s = s.withWaiting (rest.filter fun x => x != m) := by
  unfold withdrawMaker
  rw [h]
  simp [State.withWaiting]

theorem not_mem_others (m : Maker) (rest : List Maker) : m ∉ rest.filter fun x => x != m := by simp

/-- A maker whose entry was withdrawn joins again where it still has something to send. -/
theorem rejoin_waiting {m : Maker} {others : List Maker} (h : m ∉ others) (done : Bool) {s t : State}
    (withdrawn : t = s.withWaiting others) :
    (if done then t else joinWaiting m t) = s.withWaiting (others ++ if done then [] else [m]) := by
  subst withdrawn
  cases done
  · rw [if_neg Bool.false_ne_true, if_neg Bool.false_ne_true, joinWaiting_of_not_mem (s := s.withWaiting others) h]
    rfl
  · simp

/-! ### Frames of the hub -/

theorem hubAdmissible_iff (s : State) (p : Slot) :
    hubAdmissible s p = true ↔ (s.slot p).state.isUp = true ∧ (s.sq p).hold ≠ .stalled := by
  unfold hubAdmissible State.isUp
  simp

/-- A CONTROL frame of the hub with its reserve cells is stored and its port decides, or it is counted as a discard. -/
theorem offerHub_eq {h : HubFrame} (control : h.kind.cls = .control) (s : State) : offerHub h s = s.offered h := by
  unfold offerHub State.offered
  dsimp only
  by_cases takes : (s.slot h.dest).state.isUp = true ∧ (s.sq h.dest).hold ≠ .stalled
  · rw [if_pos ((hubAdmissible_iff s h.dest).2 takes), if_pos takes]
    unfold admitHub
    rw [control]
    congr 1
  · rw [if_neg fun a => takes ((hubAdmissible_iff s h.dest).1 a), if_neg takes]
    unfold countDiscard State.isUp
    cases up : (s.slot h.dest).state.isUp with
    | true =>
      have stalled : (s.sq h.dest).hold = .stalled := by by_contra x; exact takes ⟨up, x⟩
      have both : (true && (s.sq h.dest).hold == .stalled) = true := by rw [stalled]; rfl
      simp only [both, if_true]
      rfl
    | false =>
      simp only [Bool.false_and, Bool.false_eq_true, if_false]
      rfl

/-- A response with its reserve cells is offered to its port, and counts as made where the port takes it. -/
theorem sendResponse_eq (r : Response) (s : State) :
    sendResponse r s = State.offered ⟨.mgmtResp, r.dest, r.seq, r.payload, r.made, 0⟩ { s with
      agent := { s.agent with
        counters := if (s.slot r.dest).state.isUp = true ∧ (s.sq r.dest).hold ≠ .stalled then
            { s.agent.counters with made := oneMore s.agent.counters.made } else s.agent.counters } } := by
  rw [← offerHub_eq rfl]
  unfold sendResponse offerHub
  by_cases takes : (s.slot r.dest).state.isUp = true ∧ (s.sq r.dest).hold ≠ .stalled
  · rw [if_pos ((hubAdmissible_iff s r.dest).2 takes), if_pos takes]
    exact (if_pos ((hubAdmissible_iff s r.dest).2 takes)).symm
  · rw [if_neg fun a => takes ((hubAdmissible_iff s r.dest).1 a), if_neg takes]
    exact (if_neg fun a => takes ((hubAdmissible_iff s r.dest).1 a)).symm

/-! ### The grants of the agent and the alarm unit -/

/-- A grant of the agent's entry sends the head of the response list (R46, R181). -/
theorem grantAgent_granted {s : State} {rest : List Maker} {r : Response} {more : List Response}
    (head : s.qm.waiting = .agent :: rest) (responses : s.agent.responses = r :: more)
    (fits : r.frame.cells ≤ s.reserveFree) : AgentGranted (rest.filter fun x => x != .agent) s (grantAgent s) := by
  refine ⟨r, more, responses, fits, ?_⟩
  have fresh := not_mem_others .agent rest
  unfold grantAgent
  rw [withdrawMaker_head head]
  generalize rest.filter (fun x => x != Maker.agent) = others at fresh ⊢
  dsimp only
  rw [show (s.withWaiting others).agent.responses = r :: more from responses]
  dsimp only
  rw [show ((s.withWaiting others).updAgent fun a => { a with responses := more }) =
    ({ s with agent := { s.agent with responses := more } } : State).withWaiting others from rfl, sendResponse_eq]
  have joined := rejoin_waiting fresh more.isEmpty (offered_withWaiting
    ⟨.mgmtResp, r.dest, r.seq, r.payload, r.made, 0⟩ others { s with
      agent := { s.agent with
        responses := more
        counters := if (s.slot r.dest).state.isUp = true ∧ (s.sq r.dest).hold ≠ .stalled then
            { s.agent.counters with made := oneMore s.agent.counters.made } else s.agent.counters } })
  cases more <;> exact joined

/-- A grant of the alarm unit's entry sends the head of the acknowledgement queue (R46, R175). -/
theorem grantAlarm_granted {s : State} {rest : List Maker} {a : MailAck} {more : List MailAck}
    (head : s.qm.waiting = .alarm :: rest) (acks : s.alarm.acks = a :: more) (fits : 1 ≤ s.reserveFree) :
    AlarmGranted (rest.filter fun x => x != .alarm) s (grantAlarm s) := by
  refine ⟨a, more, acks, fits, ?_⟩
  have fresh := not_mem_others .alarm rest
  unfold grantAlarm
  rw [withdrawMaker_head head]
  generalize rest.filter (fun x => x != Maker.alarm) = others at fresh ⊢
  dsimp only
  rw [show (s.withWaiting others).alarm.acks = a :: more from acks]
  dsimp only
  rw [show ((s.withWaiting others).updAlarm fun b => { b with acks := more }) =
    ({ s with alarm := { s.alarm with acks := more } } : State).withWaiting others from rfl, offerHub_eq rfl]
  have joined := rejoin_waiting fresh more.isEmpty (offered_withWaiting
    ⟨.mailAck, a.dest, a.seq, [a.result.code, a.answers], a.made, 0⟩ others { s with
      alarm := { s.alarm with acks := more } })
  cases more <;> exact joined

/-! ### The grant of a port -/

/-- The state once a number of TEST frames of a port are built. -/
def State.testsBuilt (n : Nat) (p : Slot) (s : State) : State :=
  { s with ports := s.ports.write p { s.port p with
    testUnsent := (s.port p).testUnsent ++ List.range' (s.port p).testNext n
    testNext := (s.port p).testNext + n } }

theorem testsBuilt_zero (p : Slot) (s : State) : s.testsBuilt 0 p = s := by
  unfold State.testsBuilt
  simp only [List.range'_zero, List.append_nil, Nat.add_zero]
  exact congrArg (fun t => { s with ports := t }) (s.ports.write_read p)

theorem testsBuilt_port (n : Nat) (p : Slot) (s : State) : (s.testsBuilt n p).port p = { s.port p with
    testUnsent := (s.port p).testUnsent ++ List.range' (s.port p).testNext n
    testNext := (s.port p).testNext + n } := by
  unfold State.testsBuilt State.port
  simp

theorem buildTest_port (p : Slot) (s : State) : (buildTest p s).port p = { s.port p with
    testUnsent := (s.port p).testUnsent ++ [(s.port p).testNext], testNext := (s.port p).testNext + 1 } := by
  unfold buildTest State.updPort State.port
  simp

theorem testsBuilt_buildTest (n : Nat) (p : Slot) (s : State) : (buildTest p s).testsBuilt n p = s.testsBuilt (n + 1) p := by
  have ports : (buildTest p s).ports = s.ports.write p ((buildTest p s).port p) := by rw [buildTest_port]; rfl
  unfold State.testsBuilt
  rw [ports, buildTest_port]
  simp only [Table.write_write, List.range'_succ, List.append_assoc, List.cons_append, List.nil_append, Nat.add_assoc,
    Nat.add_comm 1 n]
  rfl

theorem sum_map_of_one_more {f g : Slot → Nat} {p : Slot} (at' : f p = g p + 1) (others : ∀ q, q ≠ p → f q = g q)
    {l : List Slot} (nodup : l.Nodup) : (l.map f).sum = (l.map g).sum + if p ∈ l then 1 else 0 := by
  induction l with
  | nil => rfl
  | cons a l ih =>
    have ⟨na, nl⟩ := List.nodup_cons.1 nodup
    simp only [List.map_cons, List.sum_cons, ih nl, List.mem_cons]
    by_cases c : p = a
    · subst c; simp [na, at']; omega
    · rw [others a (Ne.symm c)]; simp [c]; omega

/-- A TEST frame built takes one reserve cell. -/
theorem buildTest_reserveFree (p : Slot) (s : State) : (buildTest p s).reserveFree = s.reserveFree - 1 := by
  have sum : (allSlots.map fun q => ((buildTest p s).port q).testCells).sum =
      (allSlots.map fun q => (s.port q).testCells).sum + 1 := by
    rw [sum_map_of_one_more (g := fun q => (s.port q).testCells) (p := p) ?_ ?_ (by decide : allSlots.Nodup),
      if_pos ((by decide : ∀ q : Slot, q ∈ allSlots) p)]
    · rw [buildTest_port]; simp [Port.testCells]; omega
    · intro q h
      rw [show (buildTest p s).port q = s.port q from Table.read_update_ne _ _ h]
  unfold State.reserveFree State.reserveUsed
  rw [sum, show (buildTest p s).qm = s.qm from rfl]
  omega

theorem buildTests_of_done {p : Slot} {s : State} (m : Nat) (h : 16 ≤ (s.port p).testNext) : buildTests m p s = s := by
  cases m with
  | zero => rfl
  | succ m => unfold buildTests; rw [if_neg (by omega)]

/-- Where no maker waits TEST frames are built as far as the reserve goes, and the port waits for the rest. -/
theorem buildTests_of_none_waiting {m : Nat} {p : Slot} {s : State} (none : s.qm.waiting = [])
    (enough : 16 - (s.port p).testNext < m) :
    let n := min (16 - (s.port p).testNext) s.reserveFree
    buildTests m p s = (s.testsBuilt n p).withWaiting (if (s.port p).testNext + n < 16 then [.test p] else []) := by
  induction m generalizing s with
  | zero => omega
  | succ m ih =>
    dsimp only at ih ⊢
    unfold buildTests
    split
    · next lacks =>
      unfold reserveGrants
      simp only [none, List.isEmpty_nil, Bool.true_and, decide_eq_true_eq]
      split
      · next fits =>
        have next' : ((buildTest p s).port p).testNext = (s.port p).testNext + 1 := by rw [buildTest_port]
        rw [ih (s := buildTest p s) none (by rw [next']; omega), next', buildTest_reserveFree, testsBuilt_buildTest,
          show min (16 - ((s.port p).testNext + 1)) (s.reserveFree - 1) + 1 =
            min (16 - (s.port p).testNext) s.reserveFree by omega,
          show (s.port p).testNext + 1 + min (16 - ((s.port p).testNext + 1)) (s.reserveFree - 1) =
            (s.port p).testNext + min (16 - (s.port p).testNext) s.reserveFree by omega]
      · next full =>
        rw [show s.reserveFree = 0 by omega, Nat.min_zero, Nat.add_zero, if_pos lacks, testsBuilt_zero,
          joinWaiting_of_not_mem (by rw [none]; simp), none]
        rfl
    · next lacks =>
      rw [show 16 - (s.port p).testNext = 0 by omega, Nat.zero_min, Nat.add_zero, if_neg lacks, testsBuilt_zero]
      unfold State.withWaiting
      rw [← none]

/-- The TEST frames of a granted port: one where other makers wait, and as far as the reserve goes where none does. -/
theorem grantTest_builds {p : Slot} {others : List Maker} (fresh : Maker.test p ∉ others) (s : State) :
    let n := min (16 - (s.port p).testNext) (if others = [] then s.reserveFree else 1)
    1 ≤ s.reserveFree →
      buildTests 16 p (if (s.port p).testNext < 16 then buildTest p (s.withWaiting others) else s.withWaiting others) =
        (s.testsBuilt n p).withWaiting (others ++ if (s.port p).testNext + n < 16 then [.test p] else []) := by
  intro n fits
  have port : (s.withWaiting others).port p = s.port p := rfl
  by_cases lacks : (s.port p).testNext < 16
  · rw [if_pos lacks]
    cases others with
    | nil =>
      have next' : ((buildTest p (s.withWaiting [])).port p).testNext = (s.port p).testNext + 1 := by
        rw [buildTest_port, port]
      rw [buildTests_of_none_waiting (s := buildTest p (s.withWaiting [])) rfl (by rw [next']; omega), next',
        buildTest_reserveFree, testsBuilt_buildTest, show (s.withWaiting []).reserveFree = s.reserveFree from rfl,
        show min (16 - ((s.port p).testNext + 1)) (s.reserveFree - 1) + 1 = n by
          simp only [n, if_true]; omega,
        show (s.port p).testNext + 1 + min (16 - ((s.port p).testNext + 1)) (s.reserveFree - 1) =
          (s.port p).testNext + n by simp only [n, if_true]; omega]
      rfl
    | cons m others =>
      rw [show n = 1 by simp only [n, reduceCtorEq, if_false]; omega]
      rw [show buildTest p (s.withWaiting (m :: others)) = (s.testsBuilt 1 p).withWaiting (m :: others) by
        rw [← testsBuilt_buildTest 0, testsBuilt_zero]; rfl]
      have next' : (((s.testsBuilt 1 p).withWaiting (m :: others)).port p).testNext = (s.port p).testNext + 1 :=
        congrArg Port.testNext (testsBuilt_port 1 p s)
      by_cases more : (s.port p).testNext + 1 < 16
      · unfold buildTests
        rw [next', if_pos more, if_pos more, show reserveGrants ((s.testsBuilt 1 p).withWaiting (m :: others)) 1 = false from rfl, if_neg Bool.false_ne_true,
          joinWaiting_of_not_mem (s := (s.testsBuilt 1 p).withWaiting (m :: others)) fresh]
        rfl
      · rw [buildTests_of_done 16 (by rw [next']; omega), if_neg more, List.append_nil]
  · have none : n = 0 := by simp only [n]; omega
    rw [if_neg lacks, buildTests_of_done 16 (by rw [port]; omega), none, Nat.add_zero, if_neg lacks, testsBuilt_zero,
      List.append_nil]

/-- A grant of a port's entry builds TEST frames, and a port that sends nothing starts the first (R6, R46). -/
theorem grantTest_granted {s : State} {rest : List Maker} {p : Slot} (head : s.qm.waiting = .test p :: rest)
    (fits : 1 ≤ s.reserveFree) : TestGranted p (rest.filter fun x => x != .test p) s (grantTest p s) := by
  have fresh := not_mem_others (.test p) rest
  unfold TestGranted grantTest
  dsimp only
  rw [withdrawMaker_head head]
  generalize rest.filter (fun x => x != Maker.test p) = others at fresh ⊢
  rw [show (s.withWaiting others).port p = s.port p from rfl, grantTest_builds fresh s fits]
  generalize min (16 - (s.port p).testNext) (if others = [] then s.reserveFree else 1) = n
  generalize (others ++ if (s.port p).testNext + n < 16 then [Maker.test p] else []) = w
  have port : ((s.testsBuilt n p).withWaiting w).port p = { s.port p with
      testUnsent := (s.port p).testUnsent ++ List.range' (s.port p).testNext n
      testNext := (s.port p).testNext + n } := testsBuilt_port n p s
  refine ⟨fits, fun quiet => ?_, fun testing idle k later unsent => ?_⟩ <;> unfold startTest <;> rw [port] <;> dsimp only
  · split
    · next seq later unsent =>
      rw [if_neg]
      · rfl
      · rintro ⟨testing, idle⟩
        rcases quiet with q | q | q
        · exact q testing
        · exact q idle
        · rw [q] at unsent; cases unsent
    · rfl
  · rw [unsent]
    dsimp only
    rw [if_pos ⟨testing, idle⟩]
    unfold State.updPort Table.update
    rw [show ((s.testsBuilt n p).withWaiting w).ports.read p = _ from port]
    dsimp only [State.withWaiting, State.testsBuilt, State.emit]
    rw [Table.write_write]
    rfl

end Sys2Proof.Machine
end

