-- ==== Sys2Proof/Laws/PerInstr.lean ====
section
/-! SUPPORT. One lemma per command: the payload of a well-formed request decodes to that request. -/

namespace Sys2Proof.Laws

open Machine (be16 be32)

/-- The payload of a well-formed command of the request catalogue, with any tag, decodes to that command, where a
WRITE_GROUP is read with the group it names (LOG 35). -/
def RoundTrip.Statement (i : Instr) : Prop :=
  ∀ (tag : BitVec 16) (code : Byte) (args : List Byte), i.wellFormed = true →
    encodeArguments i = some (code, args) → decodeRequest i.groupWritten (code :: (bytes16 tag ++ args)) = i

/-- A command that no payload carries. -/
theorem RoundTrip.of_none {i : Instr} (h : encodeArguments i = none) : RoundTrip.Statement i := by
  intro tag code args _ e
  rw [h] at e
  cases e

/-- A command whose arguments decode to it. -/
theorem RoundTrip.of_arguments {i : Instr} {c : Byte} {as : List Byte} (h : encodeArguments i = some (c, as))
    (d : i.wellFormed = true → decodeArguments i.groupWritten c.toNat as = i) : RoundTrip.Statement i := by
  intro tag code args w e
  rw [h] at e
  cases e
  exact d w

theorem RoundTrip.powerOn : RoundTrip.Statement .powerOn :=
  RoundTrip.of_none rfl

theorem RoundTrip.laneTrained (p : Slot) (l : Lane) : RoundTrip.Statement (.laneTrained p l) :=
  RoundTrip.of_none rfl

theorem RoundTrip.trainingDeadlineExpiry (p : Slot) : RoundTrip.Statement (.trainingDeadlineExpiry p) :=
  RoundTrip.of_none rfl

theorem RoundTrip.testDeadlineExpiry (p : Slot) : RoundTrip.Statement (.testDeadlineExpiry p) :=
  RoundTrip.of_none rfl

theorem RoundTrip.laneFailure (p : Slot) (l : Lane) : RoundTrip.Statement (.laneFailure p l) :=
  RoundTrip.of_none rfl

theorem RoundTrip.cellRequest (p : Slot) : RoundTrip.Statement (.cellRequest p) :=
  RoundTrip.of_none rfl

theorem RoundTrip.transmissionEnd (p : Slot) : RoundTrip.Statement (.transmissionEnd p) :=
  RoundTrip.of_none rfl

theorem RoundTrip.holdOn (p : Slot) : RoundTrip.Statement (.holdOn p) :=
  RoundTrip.of_none rfl

theorem RoundTrip.holdOff (p : Slot) : RoundTrip.Statement (.holdOff p) :=
  RoundTrip.of_none rfl

theorem RoundTrip.damagedSymbol (p : Slot) : RoundTrip.Statement (.damagedSymbol p) :=
  RoundTrip.of_none rfl

theorem RoundTrip.holdTimerExpiry (p : Slot) : RoundTrip.Statement (.holdTimerExpiry p) :=
  RoundTrip.of_none rfl

theorem RoundTrip.reserveWaitingGrant : RoundTrip.Statement .reserveWaitingGrant :=
  RoundTrip.of_none rfl

theorem RoundTrip.localSecond : RoundTrip.Statement .localSecond :=
  RoundTrip.of_none rfl

theorem RoundTrip.calendarSwap : RoundTrip.Statement .calendarSwap :=
  RoundTrip.of_none rfl

theorem RoundTrip.windowOpen (p : Slot) : RoundTrip.Statement (.windowOpen p) :=
  RoundTrip.of_none rfl

theorem RoundTrip.windowEnd (p : Slot) : RoundTrip.Statement (.windowEnd p) :=
  RoundTrip.of_none rfl

theorem RoundTrip.hubSecond : RoundTrip.Statement .hubSecond :=
  RoundTrip.of_none rfl

theorem RoundTrip.timingPulseEdge : RoundTrip.Statement .timingPulseEdge :=
  RoundTrip.of_none rfl

theorem RoundTrip.silenceTimeout (src : Source) : RoundTrip.Statement (.silenceTimeout src) :=
  RoundTrip.of_none rfl

theorem RoundTrip.holdoffExpiry (src : Source) : RoundTrip.Statement (.holdoffExpiry src) :=
  RoundTrip.of_none rfl

theorem RoundTrip.holdoverLimitReached : RoundTrip.Statement .holdoverLimitReached :=
  RoundTrip.of_none rfl

theorem RoundTrip.probeTick : RoundTrip.Statement .probeTick :=
  RoundTrip.of_none rfl

theorem RoundTrip.markTick : RoundTrip.Statement .markTick :=
  RoundTrip.of_none rfl

theorem RoundTrip.rawPresenceChange (n : Slot) (present : Bool) :
    RoundTrip.Statement (.rawPresenceChange n present) :=
  RoundTrip.of_none rfl

theorem RoundTrip.presenceDebounced (n : Slot) : RoundTrip.Statement (.presenceDebounced n) :=
  RoundTrip.of_none rfl

theorem RoundTrip.rawLatchChange (n : Slot) (closed : Bool) : RoundTrip.Statement (.rawLatchChange n closed) :=
  RoundTrip.of_none rfl

theorem RoundTrip.latchDebounced (n : Slot) : RoundTrip.Statement (.latchDebounced n) :=
  RoundTrip.of_none rfl

theorem RoundTrip.powerGoodTrue (n : Slot) : RoundTrip.Statement (.powerGoodTrue n) :=
  RoundTrip.of_none rfl

theorem RoundTrip.powerGoodLost (n : Slot) : RoundTrip.Statement (.powerGoodLost n) :=
  RoundTrip.of_none rfl

theorem RoundTrip.fastFault (n : Slot) (active : Bool) : RoundTrip.Statement (.fastFault n active) :=
  RoundTrip.of_none rfl

theorem RoundTrip.softStartExpiry (n : Slot) : RoundTrip.Statement (.softStartExpiry n) :=
  RoundTrip.of_none rfl

theorem RoundTrip.drainTimeout (n : Slot) : RoundTrip.Statement (.drainTimeout n) :=
  RoundTrip.of_none rfl

theorem RoundTrip.sidebandTransactionEnd (e : SidebandEnd) : RoundTrip.Statement (.sidebandTransactionEnd e) :=
  RoundTrip.of_none rfl

theorem RoundTrip.holdTimeout (phase : SidebandPhase) : RoundTrip.Statement (.holdTimeout phase) :=
  RoundTrip.of_none rfl

theorem RoundTrip.conversionComplete (result : BitVec 10) : RoundTrip.Statement (.conversionComplete result) :=
  RoundTrip.of_none rfl

theorem RoundTrip.rawExtInputChange (i : Fin 4) (isOpen : Bool) : RoundTrip.Statement (.rawExtInputChange i isOpen) :=
  RoundTrip.of_none rfl

theorem RoundTrip.extInputDebounced (i : Fin 4) : RoundTrip.Statement (.extInputDebounced i) :=
  RoundTrip.of_none rfl

theorem RoundTrip.unknownRequest : RoundTrip.Statement .unknownRequest :=
  RoundTrip.of_none rfl

theorem RoundTrip.readHub : RoundTrip.Statement .readHub :=
  RoundTrip.of_arguments rfl fun _ => rfl

theorem RoundTrip.hubReset : RoundTrip.Statement .hubReset :=
  RoundTrip.of_arguments rfl fun _ => rfl

theorem RoundTrip.readSlot (slot : Byte) : RoundTrip.Statement (.readSlot slot) :=
  RoundTrip.of_arguments rfl fun _ => rfl

theorem RoundTrip.readIdentity (slot : Byte) : RoundTrip.Statement (.readIdentity slot) :=
  RoundTrip.of_arguments rfl fun _ => rfl

theorem RoundTrip.sidebandRead (slot offset length : Byte) : RoundTrip.Statement (.sidebandRead slot offset length) :=
  RoundTrip.of_arguments rfl fun _ => rfl

theorem RoundTrip.slotAdmit (slot : Byte) : RoundTrip.Statement (.slotAdmit slot) :=
  RoundTrip.of_arguments rfl fun _ => rfl

theorem RoundTrip.slotDrain (slot : Byte) : RoundTrip.Statement (.slotDrain slot) :=
  RoundTrip.of_arguments rfl fun _ => rfl

theorem RoundTrip.slotRetry (slot : Byte) : RoundTrip.Statement (.slotRetry slot) :=
  RoundTrip.of_arguments rfl fun _ => rfl

theorem RoundTrip.portReset (slot : Byte) : RoundTrip.Statement (.portReset slot) :=
  RoundTrip.of_arguments rfl fun _ => rfl

theorem RoundTrip.setAdmission (control baseband radio transport reference auxiliary : Byte) (drain : BitVec 16) :
    RoundTrip.Statement (.setAdmission control baseband radio transport reference auxiliary drain) := by
  refine RoundTrip.of_arguments rfl fun _ => ?_
  simp only [bytes16_eq, List.cons_append, List.nil_append]
  show Instr.setAdmission _ _ _ _ _ _ (be16 _ _) = _
  simp only [be16_bytes]

theorem RoundTrip.setBudget (mains battery : BitVec 16) : RoundTrip.Statement (.setBudget mains battery) := by
  refine RoundTrip.of_arguments rfl fun _ => ?_
  simp only [bytes16_eq, List.cons_append, List.nil_append]
  show Instr.setBudget (be16 _ _) (be16 _ _) = _
  simp only [be16_bytes]

theorem RoundTrip.writeFlow (flow source destKind dest cls : Byte) (maxFrame : BitVec 16) (needsLock : Byte) :
    RoundTrip.Statement (.writeFlow flow source destKind dest cls maxFrame needsLock) := by
  refine RoundTrip.of_arguments rfl fun _ => ?_
  simp only [bytes16_eq, List.cons_append, List.nil_append]
  show Instr.writeFlow _ _ _ _ _ (be16 _ _) _ = _
  simp only [be16_bytes]

theorem RoundTrip.enableFlow (flow : Byte) : RoundTrip.Statement (.enableFlow flow) :=
  RoundTrip.of_arguments rfl fun _ => rfl

theorem RoundTrip.disableFlow (flow : Byte) : RoundTrip.Statement (.disableFlow flow) :=
  RoundTrip.of_arguments rfl fun _ => rfl

theorem RoundTrip.deleteFlow (flow : Byte) : RoundTrip.Statement (.deleteFlow flow) :=
  RoundTrip.of_arguments rfl fun _ => rfl

theorem RoundTrip.readFlow (flow : Byte) : RoundTrip.Statement (.readFlow flow) :=
  RoundTrip.of_arguments rfl fun _ => rfl

theorem RoundTrip.writeGroup (group : Byte) (members : List Byte) : RoundTrip.Statement (.writeGroup group members) := by
  refine RoundTrip.of_arguments rfl fun w => ?_
  have h : members.length ≤ 12 := by simpa [Instr.wellFormed] using w
  show (if members.length = (BitVec.ofNat 8 members.length).toNat ∧ _ then Instr.writeGroup group members else _) = _
  rw [toNat_length8 (Nat.le_trans h (by decide))]
  simp [h]

theorem RoundTrip.readGroup (group : Byte) : RoundTrip.Statement (.readGroup group) :=
  RoundTrip.of_arguments rfl fun _ => rfl

theorem RoundTrip.setQuota (slot : Byte) (quota y x : BitVec 16) : RoundTrip.Statement (.setQuota slot quota y x) := by
  refine RoundTrip.of_arguments rfl fun _ => ?_
  simp only [bytes16_eq, List.cons_append, List.nil_append]
  show Instr.setQuota _ (be16 _ _) (be16 _ _) (be16 _ _) = _
  simp only [be16_bytes]

theorem RoundTrip.setSampleLimit (port : Byte) (limit : BitVec 16) :
    RoundTrip.Statement (.setSampleLimit port limit) := by
  refine RoundTrip.of_arguments rfl fun _ => ?_
  simp only [bytes16_eq, List.cons_append, List.nil_append]
  show Instr.setSampleLimit _ (be16 _ _) = _
  simp only [be16_bytes]

theorem RoundTrip.setHold (slot : Byte) (holdLimit : BitVec 16) (stallLimit : Byte) :
    RoundTrip.Statement (.setHold slot holdLimit stallLimit) := by
  refine RoundTrip.of_arguments rfl fun _ => ?_
  simp only [bytes16_eq, List.cons_append, List.nil_append]
  show Instr.setHold _ (be16 _ _) _ = _
  simp only [be16_bytes]

theorem RoundTrip.readCounters (slot : Byte) : RoundTrip.Statement (.readCounters slot) :=
  RoundTrip.of_arguments rfl fun _ => rfl

theorem RoundTrip.clearCounters : RoundTrip.Statement .clearCounters :=
  RoundTrip.of_arguments rfl fun _ => rfl

theorem RoundTrip.setCycle (cycle : BitVec 32) : RoundTrip.Statement (.setCycle cycle) := by
  refine RoundTrip.of_arguments rfl fun _ => ?_
  simp only [bytes32_eq, List.cons_append, List.nil_append]
  show Instr.setCycle (be32 _ _ _ _) = _
  simp only [be32_bytes]

theorem RoundTrip.writeWindows (port : Byte) (windows : List RawWindow) :
    RoundTrip.Statement (.writeWindows port windows) := by
  refine RoundTrip.of_arguments rfl fun w => ?_
  have h : windows.length ≤ maxRawWindows := by simpa [Instr.wellFormed] using w
  show decodeWriteWindows (port :: BitVec.ofNat 8 windows.length :: bytesWindows windows) = _
  rw [decodeWriteWindows, toNat_length8 (Nat.le_trans h (by decide)), decodeWindows_bytes]

theorem RoundTrip.readWindows (bank port : Byte) : RoundTrip.Statement (.readWindows bank port) :=
  RoundTrip.of_arguments rfl fun _ => rfl

theorem RoundTrip.commitCalendar : RoundTrip.Statement .commitCalendar :=
  RoundTrip.of_arguments rfl fun _ => rfl

theorem RoundTrip.setSource (order revertive nSlot nRate : Byte) (comp : BitVec 16) (jumpLimit : BitVec 32) :
    RoundTrip.Statement (.setSource order revertive nSlot nRate comp jumpLimit) := by
  refine RoundTrip.of_arguments rfl fun _ => ?_
  simp only [bytes16_eq, bytes32_eq, List.cons_append, List.nil_append]
  show Instr.setSource _ _ _ _ (be16 _ _) (be32 _ _ _ _) = _
  simp only [be16_bytes, be32_bytes]

theorem RoundTrip.setServo (kp ki : Byte) (fLimit stepThreshold lockWindow : BitVec 32) (lockCount : Byte) (holdover : BitVec 32) :
    RoundTrip.Statement (.setServo kp ki fLimit stepThreshold lockWindow lockCount holdover) := by
  refine RoundTrip.of_arguments rfl fun _ => ?_
  simp only [bytes32_eq, List.cons_append, List.nil_append]
  show Instr.setServo _ _ (be32 _ _ _ _) (be32 _ _ _ _) (be32 _ _ _ _) _ (be32 _ _ _ _) = _
  simp only [be32_bytes]

theorem RoundTrip.readTiming : RoundTrip.Statement .readTiming :=
  RoundTrip.of_arguments rfl fun _ => rfl

theorem RoundTrip.setProbe (probeRate : Byte) (rmax stepLimit : BitVec 16) (markRate : Byte) :
    RoundTrip.Statement (.setProbe probeRate rmax stepLimit markRate) := by
  refine RoundTrip.of_arguments rfl fun _ => ?_
  simp only [bytes16_eq, List.cons_append, List.nil_append]
  show Instr.setProbe _ (be16 _ _) (be16 _ _) _ = _
  simp only [be16_bytes]

theorem RoundTrip.setAsymmetry (slot : Byte) (asymmetry : BitVec 16) :
    RoundTrip.Statement (.setAsymmetry slot asymmetry) := by
  refine RoundTrip.of_arguments rfl fun _ => ?_
  simp only [bytes16_eq, List.cons_append, List.nil_append]
  show Instr.setAsymmetry _ (be16 _ _) = _
  simp only [be16_bytes]

theorem RoundTrip.readDelay (slot : Byte) : RoundTrip.Statement (.readDelay slot) :=
  RoundTrip.of_arguments rfl fun _ => rfl

theorem RoundTrip.setThresholds (channel : Byte) (critLow warnLow warnHigh critHigh : RawOptional) (hysteresis : Byte) :
    RoundTrip.Statement (.setThresholds channel critLow warnLow warnHigh critHigh hysteresis) := by
  refine RoundTrip.of_arguments rfl fun _ => ?_
  simp only [bytesOptional, bytes16_eq, List.cons_append, List.nil_append]
  show Instr.setThresholds _ ⟨_, be16 _ _⟩ ⟨_, be16 _ _⟩ ⟨_, be16 _ _⟩ ⟨_, be16 _ _⟩ _ = _
  simp only [be16_bytes]

theorem RoundTrip.monitorStart (mode trigger single : Byte) (scan : BitVec 16) :
    RoundTrip.Statement (.monitorStart mode trigger single scan) := by
  refine RoundTrip.of_arguments rfl fun _ => ?_
  simp only [bytes16_eq, List.cons_append, List.nil_append]
  show Instr.monitorStart _ _ _ (be16 _ _) = _
  simp only [be16_bytes]

theorem RoundTrip.monitorStop : RoundTrip.Statement .monitorStop :=
  RoundTrip.of_arguments rfl fun _ => rfl

theorem RoundTrip.readMonitor : RoundTrip.Statement .readMonitor :=
  RoundTrip.of_arguments rfl fun _ => rfl

theorem RoundTrip.setAlarmPoint (point enabled severity raisePers clearPers latched : Byte) (extra : BitVec 16) :
    RoundTrip.Statement (.setAlarmPoint point enabled severity raisePers clearPers latched extra) := by
  refine RoundTrip.of_arguments rfl fun _ => ?_
  simp only [bytes16_eq, List.cons_append, List.nil_append]
  show Instr.setAlarmPoint _ _ _ _ _ _ (be16 _ _) = _
  simp only [be16_bytes]

theorem RoundTrip.readAlarms (point : Byte) : RoundTrip.Statement (.readAlarms point) :=
  RoundTrip.of_arguments rfl fun _ => rfl

theorem RoundTrip.ackAlarm (point : Byte) : RoundTrip.Statement (.ackAlarm point) :=
  RoundTrip.of_arguments rfl fun _ => rfl

theorem RoundTrip.alarmWait : RoundTrip.Statement .alarmWait :=
  RoundTrip.of_arguments rfl fun _ => rfl

theorem RoundTrip.readMail (slot : Byte) : RoundTrip.Statement (.readMail slot) :=
  RoundTrip.of_arguments rfl fun _ => rfl

theorem RoundTrip.supplyLoss : RoundTrip.Statement .supplyLoss :=
  RoundTrip.of_none rfl

end Sys2Proof.Laws
end

