-- ==== Sys2Proof/Tests/Slice0.lean ====
section
/-! SUPPORT. Tests of the model. First the well-formedness checks, the reading of requests and the manual's worked
tables; then, for each statement with hypotheses, a witness: small states and operands that meet the hypotheses of
each of its clauses. Expected values are the manual's, or worked out by hand from it. -/

namespace Sys2Proof.Tests

-- one theorem at a time: with all of them at once the compiler runs out of threads
set_option Elab.async false

open Sys2Proof Sys2Proof.Machine

/-! ### Well-formed commands -/

/-- A frame without a byte between the two overheads, or over three lanes, is refused (R10, R187). -/
theorem test_wellFormed_frame :
    (Instr.frameReceptionEnd 0 [List.replicate 24 0]).wellFormed = false ∧
      (Instr.frameReceptionEnd 0 [List.replicate 25 0]).wellFormed = true ∧
      (Instr.frameReceptionEnd 0 (List.replicate 3 (List.replicate 32 0))).wellFormed = false := by decide

/-- A transaction that runs through receives 1–64 bytes (R144, R150). -/
theorem test_wellFormed_transaction :
    (Instr.sidebandTransactionEnd (.done [])).wellFormed = false ∧
      (Instr.sidebandTransactionEnd (.done (List.replicate 65 0))).wellFormed = false ∧
      (Instr.sidebandTransactionEnd (.done (List.replicate 64 0))).wellFormed = true := by decide

/-- WRITE_GROUP lists at most 12 slots (R188). -/
theorem test_wellFormed_group :
    (Instr.writeGroup 1 (List.replicate 13 1)).wellFormed = false ∧
      (Instr.writeGroup 1 (List.replicate 12 1)).wellFormed = true := by decide

/-- WRITE_WINDOWS lists at most the windows that a payload holds (R188). -/
theorem test_wellFormed_windows :
    (Instr.writeWindows 1 (List.replicate 253 ⟨0, 1⟩)).wellFormed = false ∧
      (Instr.writeWindows 1 (List.replicate 252 ⟨0, 1⟩)).wellFormed = true := by decide +kernel

/-! ### Requests, byte by byte (12.3, R188) -/

theorem test_decode_readHub : decodeRequest 0 [0x01, 0xAB, 0xCD] = .readHub := by decide
theorem test_decode_tag : requestTag [0x01, 0xAB, 0xCD] = 0xABCD := by decide
theorem test_decode_hubReset_needs_no_argument : decodeRequest 0 [0x02, 0, 0, 9] = .unknownRequest := by decide
theorem test_decode_sidebandRead : decodeRequest 0 [0x05, 0, 1, 3, 0x20, 0x10] = .sidebandRead 3 0x20 0x10 := by decide
theorem test_decode_slotDrain : decodeRequest 0 [0x07, 0, 1, 12] = .slotDrain 12 := by decide
theorem test_decode_setBudget : decodeRequest 0 [0x0B, 0, 1, 0x02, 0x58, 0x00, 0xC8] = .setBudget 600 200 := by decide
theorem test_decode_writeFlow :
    decodeRequest 0 [0x0C, 0, 1, 9, 2, 1, 5, 0, 0x05, 0xDC, 1] = .writeFlow 9 2 1 5 0 1500 1 := by decide
theorem test_decode_setQuota :
    decodeRequest 0 [0x13, 0, 1, 4, 0x02, 0x00, 0x00, 0x40, 0x00, 0x80] = .setQuota 4 512 64 128 := by decide
theorem test_decode_setCycle : decodeRequest 0 [0x18, 0, 1, 0x00, 0x03, 0xD0, 0x90] = .setCycle 250000 := by decide
theorem test_decode_writeWindows :
    decodeRequest 0 [0x19, 0, 1, 7, 1, 0, 0, 0x10, 0, 0, 0, 0x01, 0xF4] = .writeWindows 7 [⟨0x1000, 500⟩] := by decide
theorem test_decode_writeWindows_count : decodeRequest 0 [0x19, 0, 1, 7, 2, 0, 0, 0x10, 0, 0, 0, 0x01, 0xF4] =
    .unknownRequest := by decide
theorem test_decode_setSource :
    decodeRequest 0 [0x1C, 0, 1, 1, 0, 3, 8, 0x00, 0x64, 0, 0, 0x13, 0x88] = .setSource 1 0 3 8 100 5000 := by decide
theorem test_decode_setServo :
    decodeRequest 0 [0x1D, 0, 1, 64, 8, 0, 0, 0xC3, 0x50, 0, 0, 3, 0xE8, 0, 0, 0, 100, 8, 0, 0, 0x38, 0x40] =
      .setServo 64 8 50000 1000 100 8 14400 := by decide
theorem test_decode_setAsymmetry : decodeRequest 0 [0x20, 0, 1, 2, 0xFE, 0x0C] = .setAsymmetry 2 0xFE0C := by decide
theorem test_decode_setThresholds :
    decodeRequest 0 [0x22, 0, 1, 14, 0, 0, 0, 1, 0x01, 0xA4, 1, 0x01, 0xCC, 0, 0, 0, 4] =
      .setThresholds 14 ⟨0, 0⟩ ⟨1, 420⟩ ⟨1, 460⟩ ⟨0, 0⟩ 4 := by decide
theorem test_decode_monitorStart : decodeRequest 0 [0x23, 0, 1, 0, 1, 15, 0xFF, 0x0F] = .monitorStart 0 1 15 0xFF0F := by
  decide
theorem test_decode_setAlarmPoint :
    decodeRequest 0 [0x26, 0, 1, 85, 1, 2, 3, 3, 0, 0, 1] = .setAlarmPoint 85 1 2 3 3 0 1 := by decide
/-- The arguments of WRITE_GROUP are the count and the slots; the group is given from elsewhere (LOG 35). -/
theorem test_decode_writeGroup : decodeRequest 16 [0x11, 0, 1, 2, 1, 12] = .writeGroup 16 [1, 12] := by decide
theorem test_decode_past_the_catalogue : decodeRequest 0 [0x2B, 0, 1, 5] = .unknownRequest := by decide
theorem test_decode_short : decodeRequest 0 [0x01, 0] = .unknownRequest := by decide

/-! ### The manual's worked tables -/

/-- The check of the digits 1 to 9 (R186). -/
theorem test_crc_of_digits : crc32 [0x31, 0x32, 0x33, 0x34, 0x35, 0x36, 0x37, 0x38, 0x39] = 0xFC891918 := by
  decide +kernel

/-- Working width and lanes in use by capability and trained lanes (R4). -/
theorem test_width_table :
    ([(4, 4), (4, 3), (4, 3), (2, 2), (4, 1), (1, 1)] : List (Nat × Nat)).map (fun (c, t) => Width.largest (min c t)) =
      [some .four, some .two, some .two, some .two, some .one, some .one] := by decide

/-- Wire times (R14). -/
theorem test_wire_times :
    ([64, 256, 1500, 2048] : List Nat).map (fun l => [wireTime l .one, wireTime l .two, wireTime l .four]) =
      [[71, 36, 18], [224, 112, 56], [1220, 610, 305], [1658, 829, 415]] := by decide

/-- The increment of a frequency adjustment (R80). -/
theorem test_increments :
    ([0, 36, 204, -204, -101, 50000, 100000, -100000] : List Int).map incrementOf =
      [34359738368, 34359739605, 34359745377, 34359731359, 34359734898, 34361456355, 34363174342, 34356302394] := by
  decide

/-- On two lanes the even bytes go on the first and the odd ones on the second; a receiver takes them in turn, and what
stands between the overheads is the frame (R187). -/
theorem test_lanes :
    stripe 2 [1, 2, 3, 4, 5] = [[1, 3, 5], [2, 4]] ∧ unstripe [[1, 3, 5], [2, 4]] = [1, 2, 3, 4, 5] ∧
      frameOfLanes (stripe 4 (List.replicate 12 0x55 ++ [7, 8, 9] ++ List.replicate 12 0xAA)) = [7, 8, 9] := by decide

/-- A difference of times is exact across seconds (R83, R108). -/
theorem test_difference_across_seconds : Stamp.minus ⟨8, 5⟩ ⟨7, 999999990⟩ = 15 ∧ Stamp.minus ⟨7, 0⟩ ⟨8, 1⟩ = -1000000001 := by
  decide

/-! ### Small states -/

/-- A card's identity: lanes 4, frames up to 2,048 bytes, soft start 50 ms, class 30 W. -/
def cardOf (k : CardKind) : Identity :=
  ⟨1, k, 7, List.replicate 16 0x41, List.replicate 12 0x42, 30, 4, 11, 0, 5, 20, [], 0⟩

/-- A slot in a state, its port's link in a state. -/
def put (n : Slot) (st : SlotState) (l : LinkState) (s : State) : State :=
  (s.updSlot n fun r => { r with state := st }).updPort n fun q => { q with link := l }

/-- An ACTIVE card with its link UP at width 4. -/
def seat (n : Slot) (k : CardKind) (s : State) : State :=
  let t := s.updSlot n fun r => { r with
    present := true, closed := true, state := .active, identity := some (cardOf k), powerClass := some 30
    width := some .four, pullGuard := true, lines := ⟨true, true, true, false, true, false⟩ }
  let u := t.updPort n fun q => { q with
    link := .up, trained := [0, 1, 2, 3], workingWidth := some .four, reportedWidth := some .four
    lanesInUse := [0, 1, 2, 3] }
  { u with
    slots := { u.slots with committed := u.slots.committed + 30 }
    mon := { u.mon with powered := u.mon.powered.write n true } }

/-- A controller in slot 1 and two other cards. -/
def site : State := seat 3 .transport (seat 2 .baseband (seat 0 .control State.reset))

/-- The request of a command, from slot 1. -/
def asked (i : Instr) : Request := ⟨0, 7, (encodeRequest 0x1234 i).getD [0x7F, 0x12, 0x34]⟩

/-- The request of a command, alone in the agent's queue. -/
def ask (i : Instr) (s : State) : State := s.updAgent fun a => { a with queue := [asked i] }

/-- A frame with a right check, padded to 64 bytes. -/
def frameOf (kind : FrameKind) (dest source flow seq : Byte) (payload : List Byte) : List Byte :=
  let head := [kind.code, 0, dest, source, flow, seq] ++ u16 payload.length ++ List.replicate 12 0 ++ payload
  withCheck (head ++ List.replicate (60 - head.length) 0)

/-- A frame on a number of lanes, its bytes of overhead 0x55: byte i of the stream on lane i mod w (R187). -/
def sent (w : Nat) (bytes : List Byte) : List (List Byte) :=
  let stream := List.replicate 12 0x55 ++ bytes ++ List.replicate 12 0x55
  (List.range w).map fun k => (List.range ((stream.length + w - 1 - k) / w)).map fun j => stream.getD (j * w + k) 0

/-- A frame arrives over four lanes and is the one rebuilt from them. -/
def Comes (s : State) (p : Slot) (bytes : List Byte) : Prop :=
  Arrives s p (sent 4 bytes) ∧ frameOfLanes (sent 4 bytes) = bytes

/-- A frame stands whole in the assembly of a port. -/
def receiving (p : Slot) (bytes : List Byte) (s : State) : State :=
  s.updPort p fun q => { q with assembly := some ⟨cellsOf bytes.length, false⟩ }

/-- A card's frame of 64 bytes, stored for one queue. -/
def stored (id : Nat) (c : FrameClass) : StoredFrame := ⟨id, .card 2 (List.replicate 64 0), c, 1, 1⟩

/-- A stored frame stands alone in the queue of a port. -/
def queued (p : Slot) (c : FrameClass) (s : State) : State :=
  ({ s with qm := { s.qm with frames := [stored 5 c], nextFrame := 6 } }).updSq p fun q => { q with
    queues := Queues.empty.setClass c [5] }

/-- A slot in IDENTIFYING, its entry at the head of the queue, with a transaction that has come to a phase. -/
def identifying (n : Slot) (attempt : Nat) (x : Transaction) (s : State) : State :=
  (put n .identifying .down s).updSide fun d => { d with
    queue := [.identify n attempt], current := some x, selector := some n }

/-- A transaction in SELECT at local time 0, and one whose stop is over, with an acknowledge map. -/
def selecting : Transaction := ⟨.select, [], .start, 0, none, false, false⟩
def stopped (map : AckMap) (bytes : List Byte := []) : Transaction := ⟨.stop, bytes, map, 0, none, false, false⟩

/-- The agent holds two requests and an in-flight record of a slot, and for it the first of two waiting responses. -/
def served (n other : Slot) (s : State) : State :=
  { s.updAgent fun a => { a with
      queue := List.replicate 2 { asked .readHub with requester := n }, inflight := [⟨1, .commit, n, 9, 5⟩]
      responses := [⟨.completion, n, 0, [1], ⟨0, 0⟩⟩, ⟨.completion, other, 0, [1], ⟨0, 0⟩⟩] } with
    qm := { s.qm with waiting := [.agent] } }

/-- A slot is in a state and the agent, which holds for it what `served` says, has no alarm wait and no raw read of it. -/
def Served (n : Slot) (st : SlotState) (s : State) : Prop :=
  (s.slot n).state = st ∧ s.alarm.waits = [] ∧ (∀ e ∈ s.side.queue, e.isRaw = true → e.slot ≠ n) ∧
    (∃ r ∈ s.agent.responses.head?, r.dest = n) ∧ (∃ f ∈ s.agent.inflight, f.requester = n) ∧
    s.agent.queue ≠ []

/-- A flow from slot 3 to a destination. -/
def flowTo (d : FlowDest) (c : FrameClass) (st : FlowState) (s : State) : State :=
  s.updFlow 8 fun f => { f with state := st, fields := some ⟨2, d, c, 1500, false⟩ }

/-! ### Witnesses: the queue of commands, requests and the invariants

Each theorem is named after its statement. It lists, clause by clause, states and operands that meet the clause's
hypotheses together. -/

theorem witness_IdleStepTakesWhatComesNext :
    let granted : State := { site with
      qm := { site.qm with waiting := [.agent] }
      agent := { site.agent with responses := [⟨.completion, 0, 0, [1], ⟨0, 0⟩⟩] } }
    (granted.pending = [] ∧ headFits granted = true) ∧
      ((ask .readHub site).pending = [] ∧ headFits (ask .readHub site) = false ∧ (ask .readHub site).mayTake = true ∧
        (ask .readHub site).agent.queue.head? = some (asked .readHub)) ∧
      (site.pending = [] ∧ headFits site = false ∧ site.agent.queue = [] ∧ site.side.current = none ∧
        site.mon.state = .scanning ∧ site.mon.conversionEnd = some 2500 ∧ site.time.localTicks + 1 < 2500) ∧
      ((site.updMon fun m => { m with conversionEnd := some 1 }).mon.conversionEnd = some 1 ∧
        site.time.localTicks + 1 = 1) ∧
      ∀ (phase : SidebandPhase) (bytes : List Byte) (due : Nat) (aborting : Bool),
        let s := identifying 5 1 ⟨phase, bytes, .start, due, none, aborting, false⟩ site
        s.pending = [] ∧ headFits s = false ∧ s.agent.queue = [] ∧ s.side.selector = some 5 ∧
          s.side.current = some ⟨phase, bytes, .start, due, none, aborting, false⟩ ∧
          s.side.queue = [.identify 5 1] := by
  refine ⟨by decide +kernel, by decide +kernel, by decide +kernel, by decide +kernel, fun _ _ _ _ => ?_⟩
  exact ⟨rfl, rfl, rfl, rfl, rfl, rfl⟩

/-- Nominal hub time comes onto the next second 8 ns after 999,999,992 ns, and not 8 ns after 999,999,991 (R79). -/
theorem test_hub_second_comes :
    let brings (ns : Nat) : List Instr :=
      match step { State.reset with time := { State.reset.time with ns := ns } } with
      | .next t => t.pending
      | _ => []
    .hubSecond ∈ brings 999999992 ∧ .hubSecond ∉ brings 999999991 := by decide +kernel

theorem witness_RequestRoundTrip :
    ((Instr.writeGroup 16 [1, 12]).wellFormed = true ∧
        encodeArguments (.writeGroup 16 [1, 12]) = some (0x11, [2, 1, 12])) ∧
      decodeRequest 0 [0x2A, 0, 1, 12] ≠ .unknownRequest ∧
      decodeRequest 16 [0x11, 0, 1, 1, 12] = .writeGroup 16 [12] ∧ ([0x01, 0] : List Byte).length < 3 ∧
      0x2A < (0x2B : Byte).toNat := by decide

/-- A site with a command waiting, whose step answers a next state, and with an identity read in SELECT. -/
def running : State := { identifying 5 1 selecting site with pending := [.powerGoodLost 3] }

theorem running_steps : ∃ t : State, step running = .next t := ⟨_, rfl⟩

theorem witness_StepKeepsTimeInv : running.TimeInv := by unfold State.TimeInv; decide +kernel
theorem witness_StepKeepsPowerInv : running.PowerInv := by unfold State.PowerInv; decide +kernel
theorem witness_StepKeepsAlarmInv : running.AlarmInv := by unfold State.AlarmInv; decide +kernel
theorem witness_StepKeepsSidebandInv : running.SidebandInv := by
  refine ⟨by decide +kernel, by decide +kernel, nofun, ?_⟩
  rintro t h
  cases h
  exact ⟨⟨rfl, rfl⟩, rfl, fun _ => ⟨nofun, rfl⟩⟩
theorem witness_StepKeepsFlowInv : (flowTo (.slot 3) .bulk .live running).FlowInv := by
  unfold State.FlowInv
  simp only [← Option.mem_def]
  decide +kernel

/-- A stored frame may stand in the queue of a port: a card's, or the hub's own for that slot. -/
def boundFor (p : Slot) : FrameBody → Bool
  | .card _ _ => true
  | .hub h => h.dest == p

/-- The invariant of the stored frames, from what can be decided of a state. -/
theorem frameInv {s : State} (distinct : (s.qm.frames.map StoredFrame.id).Nodup)
    (below : ∀ f ∈ s.qm.frames, f.id < s.qm.nextFrame)
    (home : ∀ p : Slot, ∀ id ∈ (s.sq p).queues.sample ++ (s.sq p).queues.timing ++ (s.sq p).queues.control ++
      (s.sq p).queues.bulk, id < s.qm.nextFrame ∧ (s.frame? id).all (fun f => boundFor p f.body) = true) :
    s.FrameInv := by
  refine ⟨distinct, below, fun p => ⟨fun id hid f h hf hb => ?_, fun id hid => (home p id hid).1⟩⟩
  have bound := (home p id hid).2
  rw [hf] at bound
  simpa [boundFor, hb] using bound

/-- A TIME_MARK frame of the hub, stored for the TIMING queue of a slot. -/
def storedMark (id : Nat) (p : Slot) : StoredFrame := ⟨id, .hub ⟨.timeMark, p, 0, [1], ⟨0, 0⟩, 100⟩, .timing, 1, 1⟩

/-- A card's frame waits in the BULK queue of slot 4 and a mark in the TIMING queue of slot 3, with a command waiting. -/
def storing : State :=
  let s := { queued 3 .bulk site with pending := [.powerGoodLost 3] }
  let t : State := { s with qm := { s.qm with frames := [stored 5 .bulk, storedMark 6 2], nextFrame := 7 } }
  t.updSq 2 fun q => { q with queues := Queues.empty.setClass .timing [6] }

theorem storing_steps : ∃ t : State, step storing = .next t := ⟨_, rfl⟩

theorem witness_StepKeepsLimitInv : running.LimitInv ∧ storing.FrameInv := by
  refine ⟨by unfold State.LimitInv; decide +kernel, frameInv ?_ ?_ ?_⟩ <;> decide +kernel

/-! ### Witnesses: cells, symbols and queues -/

theorem witness_CellRequestGrantsOrTruncates :
    let full := site.updQueueConfig 2 fun c => { c with quota := 64 }
    let last := full.updPort 2 fun q => { q with assembly := some ⟨63, false⟩ }
    let past := full.updPort 2 fun q => { q with assembly := some ⟨64, false⟩ }
    let cut := full.updPort 2 fun q => { q with assembly := some ⟨64, true⟩ }
    ((last.port 2).link = .up ∧ (∀ a, (last.port 2).assembly = some a → a.truncated = false) ∧ 1 ≤ last.sharedFree ∧
        last.heldCells 2 < (last.queueConfig 2).quota) ∧
      ((past.port 2).link = .up ∧ (∀ a, (past.port 2).assembly = some a → a.truncated = false) ∧
        ¬ (1 ≤ past.sharedFree ∧ past.heldCells 2 < (past.queueConfig 2).quota)) ∧
      (cut.port 2).assembly = some ⟨64, true⟩ ∧ (cut.port 1).link = .down := by
  simp only [← Option.mem_def]
  decide +kernel

theorem witness_HoldSymbolsAndDamage :
    let held := site.updPort 2 fun q => { q with cardHold := true }
    ((site.port 2).link = .up ∧ (site.port 2).cardHold = false) ∧
      ((held.port 2).link = .up ∧ (held.port 2).cardHold = true) ∧
      ¬ ((held.port 2).link = .up ∧ (held.port 2).cardHold = false) ∧
      ¬ ((site.port 2).link = .up ∧ (site.port 2).cardHold = true) ∧
      (site.port 2).link ≠ .down ∧ (site.port 1).link = .down := by decide +kernel

/-- A port with one window in the active bank. -/
def withWindow (p : Slot) (w : Window) (s : State) : State :=
  { s with cal := { s.cal with active := { s.cal.active with windows := s.cal.active.windows.write p [w] } } }

/-- Without windows a CONTROL head, at the start of a window a SAMPLE head that just fits it, and outside every window
a BULK head that just fits the time to the next, are permitted; with that time 1 ns shorter no head is. -/
theorem witness_ArbiterDecides :
    let inside := withWindow 3 ⟨0, 18⟩ (queued 3 .sample site)
    let outside := withWindow 3 ⟨18, 100⟩ (queued 3 .bulk site)
    let tight := withWindow 3 ⟨17, 100⟩ (queued 3 .bulk site)
    let free (s : State) : Prop := (s.port 3).link = .up ∧ (s.port 3).cardHold = false ∧
      (s.port 3).transmission = none ∧ (s.port 3).reportedWidth = some .four
    (site.port 1).link ≠ .up ∧
      (free (queued 3 .control site) ∧ Permitted (queued 3 .control site) 3 .four .control 5 ∧
        (queued 3 .control site).frame? 5 = some (stored 5 .control)) ∧
      (free inside ∧ Permitted inside 3 .four .sample 5 ∧ inside.frame? 5 = some (stored 5 .sample)) ∧
      (free outside ∧ Permitted outside 3 .four .bulk 5 ∧ outside.frame? 5 = some (stored 5 .bulk)) ∧
      (free tight ∧ ∀ (c : FrameClass) (id : Nat), ¬ Permitted tight 3 .four c id) := by
  refine ⟨by decide, ⟨by decide +kernel, Or.inl (by decide +kernel), by decide +kernel⟩,
    ⟨by decide +kernel, Or.inr (Or.inl ⟨⟨0, 18⟩, by decide +kernel⟩), by decide +kernel⟩,
    ⟨by decide +kernel, Or.inr (Or.inr (by decide +kernel)), by decide +kernel⟩, by decide +kernel, ?_⟩
  rintro c id (⟨h, -⟩ | ⟨w, h, -⟩ | ⟨-, -, h, late⟩)
  · revert h; decide +kernel
  · have none' : windowAt ((withWindow 3 ⟨17, 100⟩ (queued 3 .bulk site)).cal.active.windows.read 3)
      (withWindow 3 ⟨17, 100⟩ (queued 3 .bulk site)).cycleOffset = none := by decide +kernel
    rw [none'] at h
    cases h
  · have head : ((withWindow 3 ⟨17, 100⟩ (queued 3 .bulk site)).sq 3).queues.firstOutside = some (.bulk, 5) := by
      decide +kernel
    rw [head] at h
    cases h
    revert late
    decide +kernel

theorem witness_TransmissionEndGivesBack :
    let sending (f : StoredFrame) : State := { site with qm := { site.qm with frames := [f] } }.updPort 3 fun q =>
      { q with transmission := some (.frame 5 18) }
    let testing (unsent : List Nat) (l : LinkState) : State := site.updPort 3 fun q => { q with
      link := l, testUnsent := unsent, transmission := some (.test 14 18) }
    (((sending (stored 5 .bulk)).port 3).transmission = some (.frame 5 18) ∧
        (sending (stored 5 .bulk)).frame? 5 = some (stored 5 .bulk) ∧ (stored 5 .bulk).refs ≤ 1 ∧
        (stored 5 .bulk).cls ≠ .sample ∧ (stored 5 .bulk).body = .card 2 (List.replicate 64 0)) ∧
      ((sending { stored 5 .bulk with refs := 2 }).frame? 5 = some { stored 5 .bulk with refs := 2 } ∧
        1 < { stored 5 .bulk with refs := 2 }.refs) ∧
      (((testing [15] .testing).port 3).transmission = some (.test 14 18) ∧
        ((testing [15] .testing).port 3).link = .testing ∧ ((testing [15] .testing).port 3).testUnsent = [15] ∧
        ((testing [15] .testing).port 3).workingWidth = some .four) ∧
      (((testing [] .testing).port 3).transmission = some (.test 14 18) ∧
        ((testing [] .testing).port 3).testUnsent = []) ∧
      (site.port 3).transmission = none := by decide +kernel

theorem witness_HoldExpiryStallsPort :
    let holding (k : Nat) : State := (queued 3 .bulk site).updSq 3 fun q => { q with
      hold := .holding, holdTimer := some 0, stallCount := k }
    let shared : State := { holding 1 with qm := { (holding 1).qm with frames := [{ stored 5 .bulk with refs := 2 }] } }
    let draining := put 3 .draining .up (holding 2)
    (site.sq 3).hold ≠ .holding ∧
      (((holding 1).sq 3).hold = .holding ∧ ((holding 1).sq 3).holdTimer.isSome = true ∧
        ((holding 1).slot 3).state ≠ .draining ∧ min 15 (((holding 1).sq 3).stallCount + 1) < 3 ∧
        ((holding 1).queueConfig 3).stallLimit = 3 ∧ ((holding 1).sq 3).egress.discards < 2 ^ 32 ∧
        ((holding 1).sq 3).queues.bulk.count 5 = 1 ∧ (holding 1).frame? 5 = some (stored 5 .bulk)) ∧
      (((holding 2).sq 3).hold = .holding ∧ ((holding 2).sq 3).holdTimer.isSome = true ∧
        ((holding 2).slot 3).state ≠ .draining ∧
        ((holding 2).queueConfig 3).stallLimit ≤ min 15 (((holding 2).sq 3).stallCount + 1) ∧
        ((holding 2).slot 3).state.isUp = true ∧ (holding 2).PowerInv) ∧
      ((shared.sq 3).queues.bulk.count 5 = 1 ∧ shared.frame? 5 = some { stored 5 .bulk with refs := 2 } ∧
        (shared.sq 3).hold = .holding ∧ (shared.slot 3).state ≠ .draining) ∧
      ((draining.sq 3).hold = .holding ∧ (draining.sq 3).holdTimer.isSome = true ∧ (draining.slot 3).state = .draining ∧
        (draining.port 3).transmission = none ∧
        draining.HeadBlocked draining.slots.waitingList (draining.slots.committed - draining.classOf 3) ∧
        draining.alarm.waits = [] ∧ (draining.sq 3).egress.discards + 1 < 2 ^ 32) := by
  delta State.PowerInv State.HeadBlocked
  decide +kernel

/-! ### Witnesses: received frames -/

/-- A frame from slot 3 to the hub. -/
def toHub (kind : FrameKind) (payload : List Byte) : List Byte := frameOf kind 0 3 0 9 payload

theorem witness_FrameFailsPortTest :
    let whole := toHub .mail [1, 2, 3, 4]
    let broken := (whole.take 63) ++ [0x55]
    let short := withCheck (whole.take 59)
    let undeclared := frameOf .mail 0 3 0 9 (List.replicate 40 0) ++ [0]
    let at' (a : Assembly) : State := site.updPort 2 fun q => { q with assembly := some a }
    let rebuilt (bytes : List Byte) : Prop := frameOfLanes (sent 4 bytes) = bytes ∧
      (sent 4 bytes).length = (site.port 2).lanesInUse.length
    ((site.port 2).link = .up ∧ (at' ⟨0, true⟩).port 2 = { site.port 2 with assembly := some ⟨0, true⟩ } ∧
        rebuilt whole ∧ Assembly.agrees ⟨0, true⟩ whole = true) ∧
      (rebuilt broken ∧ Assembly.agrees ⟨1, false⟩ broken = true ∧ checkPasses broken = false) ∧
      (rebuilt short ∧ Assembly.agrees ⟨1, false⟩ short = true ∧ checkPasses short = true ∧ short.length = 63) ∧
      (rebuilt undeclared ∧ Assembly.agrees ⟨2, false⟩ undeclared = true ∧
        20 + framePayloadLength undeclared + 4 ≠ undeclared.length ∧ undeclared.length = 65) ∧
      ((site.port 2).assembly = none ∧ Assembly.agrees ⟨2, false⟩ whole = false ∧ Assembly.agrees ⟨1, true⟩ whole = false ∧
        (sent 2 whole).length ≠ (site.port 2).lanesInUse.length) := by decide +kernel

theorem witness_FrameReadinessAndHubKinds :
    let comes (bytes : List Byte) : State := receiving 2 bytes site
    let linking (bytes : List Byte) : State := put 2 .linking .up (comes bytes)
    let mail := toHub .mail [1, 2, 3, 4]
    let data := toHub .data []
    let stray := frameOf .mail 4 3 0 9 [1, 2, 3, 4]
    let test := toHub .test (testPayload 1 0)
    (Comes (linking mail) 2 mail ∧ ((linking mail).slot 2).state = .linking ∧ frameKindOf mail ≠ some .test) ∧
      (Comes (comes data) 2 data ∧ ((comes data).slot 2).state ≠ .linking ∧ frameDest data = 0 ∧
        frameKindOf data = some .data) ∧
      (Comes (comes stray) 2 stray ∧ frameDest stray ≠ 0 ∧ frameKindOf stray ≠ some .data) ∧
      (Comes (comes test) 2 test ∧ frameKindOf test = some .test ∧ frameDest test = 0) := by
  delta Comes Arrives
  decide +kernel

theorem witness_MgmtFrameQueuedOrRefused :
    let mgmt (n : Byte) := frameOf .mgmt 0 n 0 9 [1, 0, 1]
    let comes (p : Slot) (bytes : List Byte) (k : Nat) : State := (receiving p bytes site).updAgent fun a => { a with
      queue := List.replicate k (asked .readHub) }
    let eighth (s : State) : State := s.updAgent fun a => { a with
      responses := List.replicate 8 ⟨.refusal, 3, 0, [1], ⟨0, 0⟩⟩ }
    (Comes (comes 0 (mgmt 1) 7) 0 (mgmt 1) ∧ ((comes 0 (mgmt 1) 7).slot 0).state = .active ∧
        ((comes 0 (mgmt 1) 7).slot 0).identity = some (cardOf .control) ∧ frameDest (mgmt 1) = 0 ∧
        frameKindOf (mgmt 1) = some .mgmt ∧ (comes 0 (mgmt 1) 7).agent.queue.length < 8) ∧
      (Comes (comes 2 (mgmt 3) 0) 2 (mgmt 3) ∧ ((comes 2 (mgmt 3) 0).slot 2).state ≠ .linking ∧
        frameKindOf (mgmt 3) = some .mgmt ∧ ¬ (2 : Slot).val < 2) ∧
      (Comes (comes 0 (mgmt 1) 8) 0 (mgmt 1) ∧ 8 ≤ (comes 0 (mgmt 1) 8).agent.queue.length) ∧
      (Comes (eighth (comes 2 (mgmt 3) 0)) 2 (mgmt 3) ∧ Comes (eighth (comes 0 (mgmt 1) 8)) 0 (mgmt 1) ∧
        8 ≤ ((eighth site).agent.responses.filter fun x => x.kind == .refusal).length) := by
  delta Comes Arrives
  simp only []
  and_intros <;> decide +kernel

theorem witness_DefaultPathForwards :
    let data (d : Byte) := frameOf .data d 3 0 9 [5]
    let comes (bytes : List Byte) : State := receiving 2 bytes site
    let stalled := (comes (data 1)).updSq 0 fun q => { q with hold := .stalled }
    (Comes (comes (data 1)) 2 (data 1) ∧ ((comes (data 1)).slot 2).state = .active ∧
        frameKindOf (data 1) = some .data ∧ frameFlow (data 1) = 0 ∧ frameDest (data 1) = (0 : Slot).val + 1 ∧
        ((comes (data 1)).slot 0).state = .active ∧ ((comes (data 1)).sq 0).hold ≠ .stalled) ∧
      (Comes stalled 2 (data 1) ∧ (stalled.sq 0).hold = .stalled ∧ (stalled.slot 0).state = .active) ∧
      (Comes (comes (data 4)) 2 (data 4) ∧ frameDest (data 4) = (3 : Slot).val + 1) ∧
      (Comes (comes (data 13)) 2 (data 13) ∧ ∀ d : Slot, frameDest (data 13) ≠ d.val + 1) := by
  delta Comes Arrives
  decide +kernel

theorem witness_FlowFrameForwardedOrDropped :
    let data (n : Nat) := frameOf .data 4 3 9 1 (List.replicate n 5)
    let comes (bytes : List Byte) (s : State) : State := receiving 2 bytes s
    let live := flowTo (.slot 3) .bulk .live site
    let sample := flowTo (.slot 3) .sample .live site
    let none' := flowTo (.group 0) .bulk .live site
    let long := data 41
    let short := live.updFlow 8 fun f => { f with fields := some ⟨2, .slot 3, .bulk, 64, false⟩ }
    let full := (queued 3 .sample sample).updQueueConfig 3 fun c => { c with sampleLimit := 1 }
    let room := (queued 3 .sample sample).updQueueConfig 3 fun c => { c with sampleLimit := 2 }
    let r (d : FlowDest) (c : FrameClass) : FlowRecord := ⟨2, d, c, 1500, false⟩
    let stalled (s : State) : State := s.updSq 3 fun q => { q with hold := .stalled }
    let both (c : FrameClass) : State :=
      let s := flowTo (.group 0) c .live site
      { s with fwd := { s.fwd with groups := s.fwd.groups.write 0 (Table.build fun n => n == 0 || n == 3) } }
    let fullBoth := (queued 3 .sample (both .sample)).updQueueConfig 3 fun c => { c with sampleLimit := 1 }
    (Comes (comes (data 1) site) 2 (data 1) ∧ frameFlow (data 1) = (8 : Fin 255).val + 1 ∧ frameDest (data 1) ≠ 0 ∧
        frameKindOf (data 1) = some .data ∧ (site.slot 2).state ≠ .linking ∧ (site.flow 8).fields = none) ∧
      ((live.flow 8).fields = some (r (.slot 3) .bulk) ∧ Comes (receiving 3 (data 1) live) 3 (data 1)) ∧
      ((flowTo (.slot 3) .bulk .suspended site).flow 8).state ≠ .live ∧
      (Comes (comes long short) 2 long ∧ (short.flow 8).fields = some ⟨2, .slot 3, .bulk, 64, false⟩ ∧ long.length = 65) ∧
      ((none'.flow 8).fields = some (r (.group 0) .bulk) ∧ copyList none' 2 (r (.group 0) .bulk) = []) ∧
      (copyList live 2 (r (.slot 3) .bulk) = [3] ∧ live.admitsCopy .bulk 1 3 = true) ∧
      (copyList (stalled live) 2 (r (.slot 3) .bulk) = [3] ∧ (stalled live).discardsCopy 3 = true) ∧
      (copyList room 2 (r (.slot 3) .sample) = [3] ∧ room.admitsCopy .sample 1 3 = true) ∧
      (copyList full 2 (r (.slot 3) .sample) = [3] ∧ full.discardsCopy 3 = false ∧ full.admitsCopy .sample 1 3 = false) ∧
      (copyList (both .bulk) 2 (r (.group 0) .bulk) = [0, 3] ∧ (both .bulk).flow 8 = { live.flow 8 with
          fields := some (r (.group 0) .bulk) } ∧
        [0, 3].filter ((stalled (both .bulk)).admitsCopy .bulk 1) = [0]) ∧
      (copyList (fullBoth) 2 (r (.group 0) .sample) = [0, 3] ∧ [0, 3].filter (fullBoth.admitsCopy .sample 1) = [0] ∧
        fullBoth.discardsCopy 3 = false) := by
  delta Comes Arrives
  and_intros <;> decide +kernel

/-! ### Witnesses: bring-up and lanes -/

/-- A LINKING slot whose port is in TRAINING with some lanes trained, at an attempt. -/
def training (trained : List Lane) (attempt : Nat) : State :=
  (put 2 .linking .training site).updPort 2 fun q => { q with
    trained := trained, attempt := attempt, workingWidth := none, reportedWidth := none, lanesInUse := []
    trainingDeadline := some 250000 }

/-- A LINKING slot whose port is in TESTING at a test progress and an attempt, over lanes 0 and 1. -/
def testingAt (progress attempt : Nat) : State :=
  (put 2 .linking .testing site).updPort 2 fun q => { q with
    testProgress := progress, attempt := attempt, trained := [0, 1, 2], workingWidth := some .two
    reportedWidth := none, lanesInUse := [0, 1], testDeadline := some 125000 }

theorem witness_TrainingEndEntersTesting :
    let waiting (s : State) : State := { s with qm := { s.qm with waiting := [.agent] } }
    let free (k : Nat) : State := { training [0, 1, 2] 1 with qm := { site.qm with
      frames := [⟨5, .hub ⟨.probe, 0, 0, [], ⟨0, 0⟩, 0⟩, .timing, 256 - k, 1⟩] } }
    let target := min ((training [0, 1] 1).laneCapability 2)
      (allLanes.filter fun m => ((training [0, 1] 1).port 2).laneGood.read m).length
    (((training [0, 1] 1).port 2).link = .training ∧ ((training [0, 1] 1).port 2).laneGood.read 3 = true ∧
        (3 : Lane) ∉ ((training [0, 1] 1).port 2).trained ∧
        ((training [0, 1] 1).port 2).trained.length + 1 < target) ∧
      (target ≤ ((training [0, 1, 2] 1).port 2).trained.length + 1 ∧
        ((training [0, 1, 2] 1).port 2).testUnsent = [] ∧ ((training [0, 1, 2] 1).port 2).transmission = none ∧
        Width.lanes .four ≤ min 4 4 ∧ (∀ v : Width, v = .one ∨ v = .two ∨ v = .four → v.lanes ≤ Width.lanes .four) ∧
        (training [0, 1, 2] 1).qm.waiting = [] ∧ 16 ≤ (training [0, 1, 2] 1).reserveFree) ∧
      ((waiting (training [0, 1, 2] 1)).qm.waiting ≠ [] ∧
        .test 2 ∉ (waiting (training [0, 1, 2] 1)).qm.waiting) ∧
      ((free 1).reserveFree = 1 ∧ (free 15).reserveFree = 15 ∧ (free 0).reserveFree = 0 ∧ (free 1).qm.waiting = [] ∧
        .test 2 ∉ (free 0).qm.waiting) ∧
      (site.port 2).link ≠ .training ∧
      (((training [0] 1).port 2).link = .training ∧ ((training [0] 1).port 2).trainingDeadline.isSome = true ∧
        ((training [0] 1).port 2).trained ≠ []) := by
  refine ⟨by decide +kernel, ⟨by decide +kernel, by decide +kernel, by decide +kernel, by decide, ?_, by decide +kernel,
    by decide +kernel⟩, by decide +kernel, by decide +kernel, by decide +kernel, by decide +kernel⟩
  rintro v (rfl | rfl | rfl) <;> decide

/-- The return of TEST frame `k` of attempt 1 from slot 3. -/
def testReturn (k : Nat) : List Byte := frameOf .test 0 3 0 (BitVec.ofNat 8 k) (testPayload 1 k)

theorem witness_FarLoopTestJudgesReturns :
    let comes (k : Nat) : State := receiving 2 (testReturn k) (testingAt k 1)
    let judged (k : Nat) : Prop := ((comes k).port 2).link = .testing ∧ ((comes k).port 2).assembly = some ⟨1, false⟩ ∧
      (sent 2 (testReturn k)).length = ((comes k).port 2).lanesInUse.length ∧
      frameOfLanes (sent 2 (testReturn k)) = testReturn k ∧
      64 ≤ (comes k).cardMaxFrame 2 ∧ checkPasses (testReturn k) = true ∧ (testReturn k).length = 64 ∧
      frameKindOf (testReturn k) = some .test ∧ frameDest (testReturn k) = 0 ∧
      frameSource (testReturn k) = (2 : Slot).val + 1 ∧
      (frameSeq (testReturn k)).toNat = ((comes k).port 2).testProgress ∧ framePayloadLength (testReturn k) = 40 ∧
      framePayload (testReturn k) = testPayload ((comes k).port 2).attempt ((comes k).port 2).testProgress
    let mail := toHub .mail [1, 2, 3, 4]
    let astray := frameOf .test 4 3 0 14 (testPayload 1 14)
    let long := toHub .test (List.replicate 41 0)
    let broken := (testReturn 14).take 63 ++ [0x55]
    let third := testingAt 14 3
    let fails (bytes : List Byte) : Prop := Assembly.agrees ⟨cellsOf bytes.length, false⟩ bytes = true ∧
      frameOfLanes (sent 2 bytes) = bytes ∧ (sent 2 bytes).length = (third.port 2).lanesInUse.length
    (judged 14 ∧ ((comes 14).port 2).testProgress < 15) ∧
      (judged 15 ∧ ((comes 15).port 2).testProgress = 15 ∧ (comes 15).PowerInv ∧
        ((comes 15).slot 2).state = .linking ∧ ((comes 15).slot 2).identity = some (cardOf .baseband)) ∧
      (∀ st ∈ [SlotState.standby, .active, .draining], ((put 2 st .testing (comes 15)).slot 2).state = st ∧
        (put 2 st .testing (comes 15)).PowerInv ∧ ((put 2 st .testing (comes 15)).port 2).testProgress = 15 ∧
        ((put 2 st .testing (comes 15)).sq 2).queues = ⟨[], [], [], []⟩ ∧
        ((put 2 st .testing (comes 15)).port 2).transmission = none ∧ (put 2 st .testing (comes 15)).alarm.waits = [] ∧
        (∀ m : Slot, m ≠ 2 → ((put 2 st .testing (comes 15)).slot m).state ≠ .draining) ∧
        (comes 15).slots.waitingList = []) ∧
      ((queued 2 .bulk (put 2 .draining .testing (comes 15))).sq 2).queues ≠ ⟨[], [], [], []⟩ ∧
      (((testingAt 14 2).port 2).attempt < 3 ∧ ((testingAt 14 2).port 2).laneGood.read 0 = true ∧
        3 ≤ (third.port 2).attempt ∧ (third.slot 2).state = .linking ∧ third.PowerInv) ∧
      (fails broken ∧ checkPasses broken = false) ∧ Assembly.agrees ⟨0, true⟩ (testReturn 14) = true ∧
      (fails long ∧ checkPasses long = true ∧ long.length = 65) ∧
      (fails mail ∧ checkPasses mail = true ∧ frameKindOf mail ≠ some .test) ∧
      (fails astray ∧ checkPasses astray = true ∧ frameKindOf astray = some .test ∧ frameDest astray ≠ 0) ∧
      (fails (testReturn 13) ∧ checkPasses (testReturn 13) = true ∧ frameDest (testReturn 13) = 0 ∧
        (frameSeq (testReturn 13)).toNat ≠ (third.port 2).testProgress) := by
  refine ⟨?_, ?_, ?_, ?_, ?_, ?_, ?_, ?_, ?_, ?_, ?_⟩ <;> (try delta State.PowerInv) <;> beta_reduce <;> decide +kernel

theorem witness_FailedAttemptTrainsAgainOrGivesUp :
    let retraining := site.updPort 3 fun q => { q with
      link := .training, attempt := 3, trained := [], trainingDeadline := some 9, transmission := none }
    (((testingAt 4 2).port 2).link = .testing ∧ ((testingAt 4 2).port 2).testDeadline.isSome = true ∧
        ((testingAt 4 2).port 2).attempt < 3 ∧ (∃ l : Lane, ((testingAt 4 2).port 2).laneGood.read l = true) ∧
        ((testingAt 4 2).port 2).assemblyCells = 0 ∧ ((receiving 2 (testReturn 4) (testingAt 4 2)).port 2).link = .testing ∧
        ((receiving 2 (testReturn 4) (testingAt 4 2)).port 2).assemblyCells = 1) ∧
      (((training [] 3).port 2).link = .training ∧ ((training [] 3).port 2).trainingDeadline.isSome = true ∧
        ((training [] 3).port 2).trained = [] ∧ 3 ≤ ((training [] 3).port 2).attempt ∧
        ((training [] 3).slot 2).state = .linking ∧ (training [] 3).PowerInv) ∧
      ((retraining.port 3).link = .training ∧ (retraining.port 3).trainingDeadline.isSome = true ∧
        (retraining.port 3).trained = [] ∧ 3 ≤ (retraining.port 3).attempt ∧
        (retraining.slot 3).state.isUp = true ∧ (retraining.slot 3).width = (retraining.port 3).reportedWidth ∧
        retraining.PowerInv) := by
  delta State.PowerInv
  decide +kernel

theorem witness_LaneFailureByLinkState :
    let sending := site.updPort 3 fun q => { q with transmission := some (.frame 5 18) }
    let broken (s : State) : State := s.updPort 2 fun q => { q with laneGood := q.laneGood.write 1 false }
    let last (s : State) : State := s.updPort 2 fun q => { q with laneGood := #v[true, false, false, false] }
    let good (s : State) (l : Lane) : List Lane :=
      allLanes.filter fun m => ((s.port 2).laneGood.write l false).read m
    (site.port 1).link = .down ∧ ((broken site).port 2).laneGood.read 1 = false ∧
      (((testingAt 4 1).port 2).laneGood.read 3 = true ∧ ((testingAt 4 1).port 2).link = .testing ∧
        (3 : Lane) ∉ ((testingAt 4 1).port 2).lanesInUse) ∧
      ((sending.port 3).link = .up ∧ (3 : Lane) ∈ (sending.port 3).lanesInUse ∧ good sending 3 ≠ [] ∧
        (sending.port 3).transmission = some (.frame 5 18)) ∧
      (((testingAt 4 2).port 2).link = .testing ∧ (1 : Lane) ∈ ((testingAt 4 2).port 2).lanesInUse ∧
        good (testingAt 4 2) 1 ≠ [] ∧ ((testingAt 4 2).port 2).attempt < 3) ∧
      (((training [0, 1] 1).port 2).link = .training ∧
        ((((training [0, 1] 1).port 2).trained).filter fun m => m ≠ 1).length <
          min ((training [0, 1] 1).laneCapability 2) (good (training [0, 1] 1) 1).length) ∧
      (((training [0, 1, 2] 1).port 2).link = .training ∧
        min ((training [0, 1, 2] 1).laneCapability 2) (good (training [0, 1, 2] 1) 3).length ≤
          ((((training [0, 1, 2] 1).port 2).trained).filter fun m => m ≠ 3).length ∧
        ((((training [0, 1, 2] 1).port 2).trained).filter fun m => m ≠ 3) ≠ [] ∧
        ((training [0, 1, 2] 1).port 2).testUnsent = [] ∧ ((training [0, 1, 2] 1).port 2).transmission = none) ∧
      ((last site).PowerInv ∧ ((last site).slot 2).state.isUp = true ∧ ((last site).port 2).laneGood.read 0 = true ∧
        ((last site).port 2).link = .up ∧ (0 : Lane) ∈ ((last site).port 2).lanesInUse ∧ good (last site) 0 = [] ∧
        Served 2 .active (served 2 0 (last site))) ∧
      ((last (testingAt 4 1)).PowerInv ∧ ((last (testingAt 4 1)).slot 2).state = .linking ∧
        (0 : Lane) ∈ ((last (testingAt 4 1)).port 2).lanesInUse ∧ good (last (testingAt 4 1)) 0 = []) ∧
      ((testingAt 4 3).PowerInv ∧ 3 ≤ ((testingAt 4 3).port 2).attempt ∧ good (testingAt 4 3) 0 ≠ []) ∧
      ((last (training [0] 2)).PowerInv ∧ ((last (training [0] 2)).port 2).link = .training ∧
        ((((last (training [0] 2)).port 2).trained).filter fun m => m ≠ 0) = [] ∧ good (last (training [0] 2)) 0 = []) := by
  delta State.PowerInv
  and_intros <;> decide +kernel

/-! ### Witnesses: frames for the delay unit and the alarm unit -/

/-- A client in slot 3 with a probe on its way and a delay unit record. -/
def probing (missRun : Nat) (seq : Nat) : State :=
  site.updDelay 2 fun d => { d with client := true, outstanding := some ⟨seq, some ⟨0, 0⟩⟩, missRun := missRun }

/-- A PROBE_REPLY of sequence 9 whose card took a number of ns between t2 and t3. -/
def reply (turn : Nat) : List Byte :=
  frameOf .probeReply 0 3 0 9 (Stamp.bytes ⟨1, 0⟩ ++ Stamp.bytes ⟨1, turn⟩)

/-- The reply stands whole in the assembly of slot 3 at a number of ns past second 0. -/
def replied (turn ns : Nat) (s : State) : State :=
  let t := receiving 2 (reply turn) s
  { t with time := { t.time with ns := ns } }

theorem witness_ProbeReplyMeasuresTheDelay :
    (Comes (replied 0 50 (probing 0 8)) 2 (reply 0) ∧ ((probing 0 8).slot 2).state ≠ .linking ∧
        frameDest (reply 0) = 0 ∧ frameKindOf (reply 0) = some .probeReply ∧
        ((probing 0 8).slotDelay 2).outstanding = some ⟨8, some ⟨0, 0⟩⟩ ∧ (frameSeq (reply 0)).toNat ≠ 8) ∧
      (Comes (replied 0 4000 (probing 0 9)) 2 (reply 0) ∧ framePayloadLength (reply 0) = 20 ∧
        ((probing 0 9).slotDelay 2).client = true ∧
        ((probing 0 9).slotDelay 2).outstanding = some ⟨9, some ⟨0, 0⟩⟩ ∧ (frameSeq (reply 0)).toNat = 9 ∧
        (probing 0 9).delay.config.rmax = 4000) ∧
      (Comes (replied 1 0 (probing 1 9)) 2 (reply 1) ∧ ((probing 1 9).slotDelay 2).missRun ≠ 2) ∧
      (Comes (replied 0 4001 (probing 2 9)) 2 (reply 0) ∧ ((probing 2 9).slotDelay 2).missRun = 2) ∧
      (probing 0 8).HubFramesAtHome 2 := by
  refine ⟨?_, ?_, ?_, ?_, nofun⟩ <;> delta Comes Arrives
  all_goals decide +kernel

theorem witness_MailStoredAndAcknowledged :
    let mail := toHub .mail [1, 2, 3, 4]
    let comes : State := (receiving 2 mail site).updAlarm fun a => { a with notices := List.replicate 31 Notice.first }
    let owed : State := comes.updAlarm fun a => { a with acks := [⟨2, .full, 0, 0, ⟨0, 0⟩⟩] }
    (Comes owed 2 mail ∧ (owed.slot 2).state.isUp = true ∧ frameDest mail = 0 ∧ frameKindOf mail = some .mail ∧
        ∃ a ∈ owed.alarm.acks, a.dest = 2) ∧
      (Comes comes 2 mail ∧ comes.alarm.acks = [] ∧ comes.qm.waiting = [] ∧ 1 ≤ comes.reserveFree ∧
        (comes.sq 2).hold ≠ .stalled ∧ comes.alarm.waits = [] ∧ comes.alarm.notices.length < 32) := by
  delta Comes Arrives
  decide +kernel

theorem witness_ReserveGrantServesTheHead :
    let r : Response := ⟨.completion, 0, 0, List.replicate 41 0, ⟨0, 0⟩⟩
    let waits (used : Nat) : State := { site with
      qm := { site.qm with
        waiting := [.agent]
        frames := [⟨5, .hub ⟨.probe, 0, 0, [], ⟨0, 0⟩, 0⟩, .timing, used, 1⟩] }
      agent := { site.agent with responses := [r] } }
    let owed : State := (testingAt 4 1).updPort 2 fun q => { q with testNext := 13 }
    let owes (makers : List Maker) : State := { owed with
      qm := { owed.qm with waiting := makers }
      agent := { owed.agent with responses := [r, r] }
      alarm := { owed.alarm with acks := [⟨2, .full, 0, 0, ⟨0, 0⟩⟩, ⟨3, .full, 0, 0, ⟨0, 0⟩⟩] } }
    headFits site = false ∧ site.qm.waiting = [] ∧
      ((waits 255).agent.responses = [r] ∧ (waits 255).qm.waiting = [.agent] ∧
        (waits 255).reserveFree < (max 64 (24 + r.payload.length) + 63) / 64) ∧
      ((max 64 (24 + r.payload.length) + 63) / 64 ≤ (waits 254).reserveFree ∧
        ((waits 254).slot r.dest).state.isUp = true ∧ ((waits 254).sq r.dest).hold ≠ .stalled) ∧
      (∀ makers ∈ [[.agent], [.alarm, .agent], [.test 2], [.test 2, .agent, .alarm]],
        (owes makers).qm.waiting = makers ∧ headFits (owes makers) = true ∧ (owes makers).agent.responses ≠ [] ∧
          (owes makers).alarm.acks ≠ [] ∧ ((owes makers).port 2).link = .testing ∧
          ((owes makers).port 2).transmission = none) := by decide +kernel

/-! ### Witnesses: seconds, the calendar and the tracker -/

theorem witness_LocalSecondSamples :
    let at' (m : MonitorState) : State := site.updMon fun x => { x with trigger := .localSecond, state := m }
    site.mon.trigger ≠ .localSecond ∧ (at' .scanning).mon.trigger = .localSecond ∧
      (at' .scanning).mon.state = .scanning ∧ (at' .waiting).mon.state = .waiting ∧
      (at' .waiting).mon.passChannels ≠ [] := by decide +kernel

/-- The calendar armed, with a window of 305 ns for slot 4, into which 1,500 bytes at width 4 just fit. -/
def armed : State :=
  let s := flowTo (.slot 3) .sample .suspended site
  { s with cal := { s.cal with
    arming := some ⟨0, 5, 0⟩
    pendingBank := { s.cal.pendingBank with windows := s.cal.pendingBank.windows.write 3 [⟨0, 305⟩] } } }

theorem witness_CalendarSwapChangesBanks :
    let full := armed.updSq 2 fun q => { q with queues := { q.queues with sample := [5] } }
    let waited (k : Nat) : State := armed.updAlarm fun a => { a with waits := [⟨2, 0, k⟩] }
    site.cal.arming = none ∧
      (armed.cal.arming = some ⟨0, 5, 0⟩ ∧ (armed.flow 8).fields = some ⟨2, .slot 3, .sample, 1500, false⟩ ∧
        (armed.flow 8).enabled = true ∧ wireTime 1500 .four ≤ 305) ∧
      (full.cal.arming = some ⟨0, 5, 0⟩ ∧ full.alarm.waits = [] ∧ full.cal.pendingBank.windows.read 2 = [] ∧
        (full.sq 2).queues.sample ≠ [] ∧ full.cal.pendingBank.windows.read 3 ≠ []) ∧
      ((waited 1).cal.arming = some ⟨0, 5, 0⟩ ∧ (waited 1).alarm.waits ≠ [] ∧
        ∀ w ∈ (waited 1).alarm.waits, w.record ≠ 0) := by decide +kernel

/-- Source P in a state with good and jump counts; the second announced for the next edge is the present one. -/
def source (st : SourceState) (good jumps : Nat) (s : State) : State :=
  { s with
    time := { s.time with localTicks := 250000000 }
    trk := { s.trk with srcP := ⟨st, some 0, some 0, good, jumps, some 140625000, 0, none, some 0⟩ } }

theorem witness_PulseEdgeIsClassified :
    let far (s : State) : State := { s with time := { s.time with ns := 5001 } }
    let late (s : State) : State := { s with time := { s.time with localTicks := 390625001 } }
    let first := source .candidate 3 0 site
    let beside (r : Bool) : State :=
      { first with trk := { first.trk with
        selected := some .N, timing := .locked, srcN := { first.trk.srcN with state := .qualified }
        source := { first.trk.source with revertive := r } } }
    let chosen := { source .qualified 4 1 site with
      trk := { (source .qualified 4 1 site).trk with selected := some .P, timing := .locked, holdoverReady := true } }
    site.trk.srcP.state = .unavailable ∧ (source .failed 0 0 site).trk.srcP.state = .failed ∧
      first.edgeError = some 0 ∧ site.edgeError = none ∧
      (first.trk.srcP.state = .candidate ∧ EventTimely first .P ∧ ¬ EventJump first .P 0 ∧ 3 ≤ first.trk.srcP.good ∧
        site.trk.selected = none ∧ site.trk.srcN.state ≠ .qualified) ∧
      (∀ r : Bool, (beside r).edgeError = some 0 ∧ EventTimely (beside r) .P ∧ ¬ EventJump (beside r) .P 0 ∧
        (beside r).trk.selected = some (otherSource .P) ∧ ((beside r).source (otherSource .P)).state = .qualified ∧
        (beside r).trk.source.revertive = r ∧ (beside r).trk.source.nFirst = decide (Source.P = .N)) ∧
      ¬ EventTimely (late first) .P ∧
      (EventTimely (far (source .candidate 2 0 site)) .P ∧ (far (source .candidate 2 0 site)).edgeError = some (-5001) ∧
        EventJump (far (source .candidate 2 0 site)) .P (-5001) ∧ (source .candidate 2 0 site).trk.srcP.jumps = 0) ∧
      (EventJump (far chosen) .P (-5001) ∧ 1 ≤ chosen.trk.srcP.jumps ∧ chosen.trk.selected = some .P ∧
        chosen.trk.timing = .locked ∧ (chosen.source (otherSource .P)).state ≠ .qualified ∧
        chosen.trk.holdoverReady = true) ∧
      ((source .candidate 2 0 site).trk.srcP.good < 3 ∧ ¬ EventJump (source .candidate 2 0 site) .P 0) ∧
      ((source .qualified 4 0 site).trk.srcP.state = .qualified ∧ ¬ EventJump (source .qualified 4 0 site) .P 0 ∧
        (source .qualified 4 0 site).trk.selected ≠ some .P) := by
  simp only [EventTimely, EventJump, ← Option.mem_def]
  and_intros <;> decide +kernel

/-- Source P selected and QUALIFIED in a timing state with its runs, and hub time some ns past second 0. -/
def applied (st : TimingState) (lockRun unlockRun ns : Nat) : State :=
  let s := source .qualified 4 0 site
  { s with
    time := { s.time with ns := ns }
    trk := { s.trk with selected := some .P, timing := st, lockRun := lockRun, unlockRun := unlockRun } }

/-- A REF_TIME frame of slot 3: its subtype and time, padded with a zero to a payload length. -/
def refTime (subtype : Byte) (length : Nat) (sec : Nat := 0) : List Byte :=
  frameOf .refTime 0 3 0 9 ((subtype :: Stamp.bytes ⟨sec, 0⟩ ++ [0]).take length)

/-- Slot 3 provides both sources; N is in a state with good and jump counts and its last good error 0, and the slot has a
delay record or none. -/
def providing (st : SourceState) (good jumps : Nat) (delays : Option DelayRecord) (s : State) : State :=
  let t := s.updDelay 2 fun d => { d with delays := delays }
  { t with
    time := { t.time with localTicks := 250000000 }
    trk := { t.trk with
      srcP := { t.trk.srcP with provider := some 2 }
      srcN := ⟨st, some 2, some 0, good, jumps, some 140625000, 0, none, none⟩ } }

/-- Source N selected in ACQUIRING at a hub time. -/
def stamped (sec ns : Nat) (s : State) : State :=
  let t := providing .qualified 4 0 (some ⟨100, 100⟩) s
  { t with
    time := { t.time with sec := sec, ns := ns }
    trk := { t.trk with selected := some .N, timing := .acquiring } }

theorem witness_AppliedPulseStepsOrSteersHubTime :
    let ready (s : State) (e : Int) : Prop := s.trk.srcP.state = .qualified ∧ s.trk.selected = some .P ∧
      (s.trk.timing = .acquiring ∨ s.trk.timing = .locked) ∧ s.edgeError = some e ∧ EventTimely s .P ∧
      ¬ EventJump s .P e
    let stamps (s : State) (e : Int) : Prop := StampArrives (receiving 2 (refTime 2 11 1) s) 2 (sent 4 (refTime 2 11 1)) ∧
      s.stampError 2 (framePayload (frameOfLanes (sent 4 (refTime 2 11 1)))) = some e ∧
      (s.source .N).state = .qualified ∧ s.trk.selected = some .N ∧ s.trk.timing = .acquiring ∧ EventTimely s .N ∧
      ¬ EventJump s .N e
    let total (t : State) : Nat := t.time.sec * 1000000000 + t.time.ns
    let crosses := stamped 0 999998000 { site with cal := armed.cal }
    let commits (n : Slot) (responses : List Response) : State := crosses.updAgent fun a => { a with
      inflight := [⟨0, .commit, n, 7, 5⟩], responses := responses }
    (ready (applied .acquiring 0 0 1001) (-1001) ∧ (applied .acquiring 0 0 0).trk.servo.stepThreshold = 1000) ∧
      (ready (applied .acquiring 7 0 100) (-100) ∧ (applied .acquiring 7 0 100).trk.servo.lockWindow = 100 ∧
        (applied .acquiring 7 0 100).trk.servo.lockCount = 8) ∧
      (ready (applied .acquiring 6 0 100) (-100) ∧ min 64 ((applied .acquiring 6 0 100).trk.lockRun + 1) < 8) ∧
      ready (applied .acquiring 6 0 101) (-101) ∧ ready (applied .locked 0 2 100) (-100) ∧
      (ready (applied .locked 0 1 101) (-101) ∧ (applied .locked 0 1 101).trk.unlockRun < 2) ∧
      (ready (applied .locked 0 2 1000) (-1000) ∧ 2 ≤ (applied .locked 0 2 1000).trk.unlockRun) ∧
      (stamps crosses 2100 ∧ crosses.trk.servo.stepThreshold = 1000 ∧ crosses.cal.arming = some ⟨0, 5, 0⟩ ∧
        crosses.time.sec < 1 ∧ total crosses + 2100 = 1000000100 ∧ crosses.cal.pendingBank.cycle = 250000 ∧
        999998000 / 250000 < 1000000100 / 250000 ∧ crosses.cal.pendingBank.windows.read 2 = [] ∧
        crosses.alarm.waits = [] ∧ crosses.agent.inflight.find? (·.record == 0) = none) ∧
      (∀ n ∈ ([0, 1] : List Slot), ∀ responses ∈ [[], [⟨.completion, 2, 0, [1], ⟨0, 0⟩⟩]],
        stamps (commits n responses) 2100 ∧ (commits n responses).cal.arming = some ⟨0, 5, 0⟩ ∧
          (commits n responses).alarm.waits = [] ∧ (commits n responses).agent.responses = responses ∧
          (commits n responses).qm.waiting = [] ∧ 1 ≤ (commits n responses).reserveFree ∧
          (commits n responses).agent.inflight.find? (·.record == 0) = some ⟨0, .commit, n, 7, 5⟩) ∧
      ((commits 0 []).slot 0).state.isUp = true ∧ ((commits 0 []).sq 0).hold ≠ .stalled ∧
      ((commits 1 []).slot 1).state.isUp = false ∧
      stamps (stamped 1 0 site) 100 := by
  delta StampArrives RefTimeArrives Arrives
  simp only [EventTimely, EventJump, ← Option.mem_def]
  and_intros <;> decide +kernel

theorem witness_SourceTimersFailAndReturn :
    let selected (ready : Bool) : State :=
      let s := source .qualified 4 0 site
      { s with trk := { s.trk with selected := some .P, timing := .locked, holdoverReady := ready } }
    let at' (ticks : Nat) (s : State) : State := { s with time := { s.time with localTicks := ticks } }
    let held : State := { site with trk := { site.trk with timing := .holdover, holdoverStart := some 0 } }
    let failed := site.updSource .P fun r => { r with state := .failed, holdoffStart := some 0 }
    let other := (selected true).updSource .N fun r => { r with state := .qualified }
    (∀ b : Bool, ((selected b).source .P).state = .qualified ∧ (selected b).trk.selected = some .P ∧
        (selected b).trk.timing = .locked ∧ ((selected b).source .N).state ≠ .qualified ∧
        (selected b).trk.holdoverReady = b ∧ ((selected b).source .P).silenceStart = 0 ∧
        3 * 125000000 ≤ (at' 375000000 (selected b)).time.localTicks - 0 ∧
        (at' 374999999 (selected b)).time.localTicks - 0 < 3 * 125000000) ∧
      (other.source .N).state = .qualified ∧ other.trk.selected = some .P ∧
      (site.source .N).state = .unavailable ∧ (site.source .P).state ≠ .failed ∧
      ((failed.source .P).state = .failed ∧ (failed.source .P).holdoffStart = some 0 ∧
        1250000000 ≤ (at' 1250000000 failed).time.localTicks - 0 ∧
        (at' 1249999999 failed).time.localTicks - 0 < 1250000000) ∧
      (held.trk.timing = .holdover ∧ held.trk.holdoverStart = some 0 ∧ held.trk.servo.holdoverLimit = 14400 ∧
        14400 ≤ ((at' 1800000000000 held).time.localTicks - 0) / 125000000 ∧
        ((at' 1799999999999 held).time.localTicks - 0) / 125000000 < 14400) ∧ site.trk.timing ≠ .holdover ∧
      (armed.flow 8).fields = some ⟨2, .slot 3, .sample, 1500, false⟩ := by decide +kernel

theorem witness_ReferenceTimeFrameTaken :
    let comes (bytes : List Byte) (s : State) : Prop := RefTimeArrives (receiving 2 bytes s) 2 (sent 4 bytes) ∧
      frameOfLanes (sent 4 bytes) = bytes
    let stamp (s : State) (e : Option Int) : Prop := StampArrives (receiving 2 (refTime 2 11) s) 2 (sent 4 (refTime 2 11)) ∧
      s.stampError 2 (framePayload (refTime 2 11)) = e
    let n (st : SourceState) (good jumps : Nat) : State := providing st good jumps (some ⟨100, 100⟩) site
    let far (jumps : Nat) : State := providing .candidate 2 jumps (some ⟨100, 5001⟩) site
    let late (s : State) : State := { s with time := { s.time with localTicks := 281250001 } }
    let chosen : State := { far 1 with trk := { (far 1).trk with
      selected := some .N, timing := .acquiring, srcN := { (far 1).trk.srcN with state := .qualified } } }
    (comes (refTime 1 11) (n .candidate 2 0) ∧ framePayloadLength (refTime 1 11) = 11 ∧
        payloadField (framePayload (refTime 1 11)) 0 1 = 1 ∧ (n .candidate 2 0).trk.srcP.provider = some 2) ∧
      (comes (refTime 1 12) (n .candidate 2 0) ∧ framePayloadLength (refTime 1 12) = 12) ∧
      (comes (refTime 3 11) (n .candidate 2 0) ∧ payloadField (framePayload (refTime 3 11)) 0 1 = 3) ∧
      (comes (refTime 2 11) site ∧ site.trk.srcN.provider ≠ some 2 ∧ site.trk.srcP.provider ≠ some 2) ∧
      (stamp (n .candidate 2 0) (some 100) ∧ EventTimely (n .candidate 2 0) .N ∧ ¬ EventJump (n .candidate 2 0) .N 100 ∧
        (n .candidate 2 0).trk.srcN.state = .candidate ∧ (n .candidate 2 0).trk.srcN.good < 3) ∧
      (stamp (n .candidate 3 0) (some 100) ∧ ¬ EventJump (n .candidate 3 0) .N 100 ∧
        (n .candidate 3 0).trk.selected = none ∧ (n .candidate 3 0).trk.srcP.state ≠ .qualified) ∧
      (stamp (n .failed 0 0) (some 100) ∧ (n .failed 0 0).trk.srcN.state = .failed) ∧
      (stamp (providing .qualified 4 0 none site) none ∧ ¬ EventTimely (late (n .candidate 2 0)) .N) ∧
      (stamp (far 0) (some 5001) ∧ EventTimely (far 0) .N ∧ EventJump (far 0) .N 5001 ∧ (far 0).trk.srcN.jumps = 0) ∧
      (stamp chosen (some 5001) ∧ EventJump chosen .N 5001 ∧ 1 ≤ chosen.trk.srcN.jumps ∧
        chosen.trk.selected = some .N ∧ chosen.trk.timing = .acquiring ∧ chosen.trk.holdoverReady = false ∧
        (chosen.source (otherSource .N)).state ≠ .qualified) ∧
      (stamp (n .qualified 4 0) (some 100) ∧ ¬ EventJump (n .qualified 4 0) .N 100 ∧
        (n .qualified 4 0).trk.selected ≠ some .N) := by
  delta StampArrives RefTimeArrives Arrives
  simp only [EventTimely, EventJump, ← Option.mem_def]
  and_intros <;> decide +kernel

theorem witness_ProbeAndMarkTicksMakeFrames :
    let client (missRun : Nat) (out : Option Probe) (s : State) : State := s.updDelay 2 fun d => { d with
      client := true, missRun := missRun, outstanding := out, delays := some ⟨200, 100⟩ }
    let ready (s : State) : Prop := (s.slot 2).state.isUp = true ∧ (s.sq 2).hold ≠ .stalled ∧
      (s.sq 2).queues.timing.length < 8 ∧ 1 ≤ s.reserveFree
    let full := (client 1 none (queued 3 .bulk site)).updSq 2 fun q => { q with
      queues := { q.queues with timing := List.replicate 8 5 } }
    let two (missRun : Nat) (out : Option Probe) (s : State) : State :=
      (client missRun out s).updDelay 0 fun d => { d with client := true }
    let stalled := (two 0 none site).updSq 2 fun q => { q with hold := .stalled }
    let third := (two 2 (some ⟨3, none⟩) full).updPort 2 fun q => { q with transmission := some (.frame 5 18) }
    let marked := (two 2 (some ⟨3, none⟩) storing).updSq 2 fun q => { q with
      queues := { q.queues with timing := List.replicate 8 6 } }
    (∀ m : Slot, (site.slotDelay m).client = false) ∧
      (((client 1 (some ⟨3, none⟩) site).slotDelay 2).client = true ∧
        (∀ m : Slot, m ≠ 2 → ((client 1 (some ⟨3, none⟩) site).slotDelay m).client = false) ∧
        ready (client 1 (some ⟨3, none⟩) site) ∧ ((client 1 (some ⟨3, none⟩) site).slotDelay 2).missRun ≠ 2 ∧
        ((client 1 (some ⟨3, none⟩) site).slotDelay 2).delays = some ⟨200, 100⟩) ∧
      (¬ ready full ∧ (full.slotDelay 2).client = true ∧ (full.slotDelay 2).outstanding = none ∧
        (full.slotDelay 2).missRun ≠ 2) ∧
      (((probing 0 9).slotDelay 2).client = true ∧ ((probing 0 9).slotDelay 2).delays = none) ∧
      ((two 0 none site).FrameInv ∧ ((two 0 none site).slotDelay 0).client = true ∧
        ((two 0 none site).slotDelay 2).client = true ∧ ((two 0 none site).slotDelay 2).delays ≠ none ∧
        ((two 0 none site).slotDelay 3).client = false ∧ ready (two 0 none site) ∧
        (allSlots.filter fun k => ((two 0 none site).slotDelay k).client).length ≤ (two 0 none site).reserveFree) ∧
      (((two 2 (some ⟨3, none⟩) site).slotDelay 2).missRun = 2 ∧
        ((two 2 (some ⟨3, none⟩) site).probeGivenUp 2).missRun = 3 ∧
        ((two 2 (some ⟨3, none⟩) site).probeGivenUp 2).delays = none) ∧
      ((two 2 none full).FrameInv ∧ ((two 2 none full).slotDelay 2).missRun = 2 ∧
        ((two 2 none full).slotDelay 2).delays ≠ none ∧ ¬ ((two 2 none full).sq 2).queues.timing.length < 8 ∧
        (two 2 none full).probeGivenUp 2 = (two 2 none full).slotDelay 2) ∧
      ((stalled.sq 2).hold = .stalled ∧ (stalled.slotDelay 2).client = true) ∧
      (third.FrameInv ∧ (third.slotDelay 2).missRun = 2 ∧ (third.probeGivenUp 2).missRun = 3 ∧
        ¬ (third.sq 2).queues.timing.length < 8 ∧ (∀ id ∈ (third.sq 2).queues.timing, third.isMark id = false) ∧
        (third.port 2).transmission ≠ none) ∧
      (marked.FrameInv ∧ (marked.slotDelay 2).missRun = 2 ∧ (marked.probeGivenUp 2).missRun = 3 ∧
        marked.waitingMarks 2 = 8) := by
  refine ⟨?_, ?_, ?_, ?_, ⟨frameInv ?_ ?_ ?_, ?_⟩, ?_, ⟨frameInv ?_ ?_ ?_, ?_⟩, ?_, ⟨frameInv ?_ ?_ ?_, ?_⟩,
    frameInv ?_ ?_ ?_, ?_⟩ <;> decide +kernel

/-! ### Witnesses: slots, power and the sideband -/

theorem witness_RawLevelsStartTheDebounce :
    (site.input 2).debounce = none ∧
      ((site.updInput 2 fun x => { x with rawOpen := true, debounce := some 0 }).input 2).debounce ≠ none := by
  decide +kernel

/-- A slot in a state with a debounce of presence and of the latch in progress, and its raw levels. -/
def debouncing (n : Slot) (st : SlotState) (present latch : Bool) (s : State) : State :=
  s.updSlot n fun r => { r with
    state := st, presenceDebounce := some 0, latchDebounce := some 0
    lines := { r.lines with rawPresent := present, rawClosed := latch } }

theorem witness_SeatedCardIsInserted :
    let s := debouncing 5 .empty true true State.reset
    (site.slot 5).presenceDebounce = none ∧
      ((debouncing 5 .faulted true true State.reset).slot 5).state ≠ .empty ∧
      ((s.slot 5).presenceDebounce ≠ none ∧ (s.slot 5).lines.rawPresent = true ∧ (s.slot 5).state = .empty ∧
        s.side.current = none ∧ s.side.queue = [] ∧ s.alarm.waits = [] ∧ s.alarm.notices.length < 31) ∧
      ((s.updSlot 5 fun r => { r with closed := true }).slot 5).closed = true := by decide +kernel

theorem witness_LatchMovesTheSlot :
    let opening (st : SlotState) : State := debouncing 2 st true false site
    let closing (st : SlotState) : State := debouncing 2 st true true site
    let awaiting (n : Slot) : State :=
      let s := debouncing n .active true false site
      { s with
        alarm := { s.alarm with notices := [], waits := [⟨0, 5, 1⟩] }
        agent := { s.agent with inflight := [⟨1, .wait, 0, 9, 5⟩] } }
    let leaving := served 0 2 (queued 0 .bulk (debouncing 0 .active true false site))
    (site.slot 2).latchDebounce = none ∧
      (((closing .inserted).slot 2).latchDebounce ≠ none ∧ ((closing .inserted).slot 2).lines.rawClosed = true ∧
        ((closing .inserted).slot 2).state = .inserted) ∧
      ((closing .active).slot 2).state ≠ .inserted ∧
      (((opening .draining).slot 2).latchDebounce ≠ none ∧ ((opening .draining).slot 2).lines.rawClosed = false) ∧
      ((opening .identifying).slot 2).state = .identifying ∧
      (((opening .waitingPower).slot 2).state = .waitingPower ∧
        (opening .waitingPower).HeadBlocked [] (opening .waitingPower).slots.committed) ∧
      (((opening .linking).slot 2).state = .linking ∧ (opening .linking).slots.waitingList = []) ∧
      (((queued 2 .bulk (opening .active)).slot 2).state = .active ∧ (opening .active).alarm.waits = [] ∧
        ((queued 2 .bulk (opening .active)).sq 2).queues.bulk ≠ []) ∧
      (((opening .standby).slot 2).state = .standby ∧ ((opening .standby).sq 2).queues = ⟨[], [], [], []⟩ ∧
        ((opening .standby).port 2).transmission = none ∧
        (opening .standby).HeadBlocked (opening .standby).slots.waitingList
          ((opening .standby).slots.committed - (opening .standby).classOf 2)) ∧
      (queued 2 .bulk (opening .active)).EgressStays 2 ∧ (queued 2 .timing (opening .standby)).EgressStays 2 ∧
      (opening .standby).NoWaitStays 2 ∧ (awaiting 2).NoWaitStays 2 ∧ ((awaiting 2).alarm.waits ≠ []) ∧
      (awaiting 0).NoWaitStays 0 ∧ (awaiting 0).alarm.waits ≠ [] ∧
      (Served 0 .active leaving ∧ leaving.holdsController 0 = true) ∧
      Served 2 .standby (served 2 0 (opening .standby)) := by
  refine ⟨by decide, ?_, by decide, ?_, by decide, ?_, ?_, ?_, ?_, .inr (.inl (by decide)), .inr (.inr ⟨5, by decide, by decide⟩),
    .inl rfl, .inr (.inl (by decide)), nofun, .inr (.inr ⟨rfl, by decide, _, rfl, rfl⟩), nofun, ?_, ?_⟩ <;>
    (try delta State.HeadBlocked) <;> (try delta Served) <;> decide +kernel

theorem witness_PulledCardEmptiesTheSlot :
    let pulled (st : SlotState) : State := debouncing 2 st false true site
    let control := served 0 2 (debouncing 0 .active false true site)
    (((pulled .empty).slot 2).presenceDebounce ≠ none ∧ ((pulled .empty).slot 2).lines.rawPresent = false ∧
        ((pulled .empty).slot 2).state = .empty) ∧
      (((pulled .active).slot 2).state ≠ .empty ∧ ((pulled .active).slot 2).pullGuard = true ∧
        (pulled .active).HeadBlocked [] ((pulled .active).slots.committed - (pulled .active).classOf 2) ∧
        ((pulled .active).slot 2).state.isUp = true) ∧
      ((debouncing 5 .inserted false true site).slot 5).pullGuard = false ∧ (pulled .active).SidebandInv ∧
      (Served 0 .active control ∧ control.holdsController 0 = true) := by
  refine ⟨by decide, ?_, by decide, ⟨by decide +kernel, by decide +kernel, fun _ => ⟨rfl, rfl⟩, nofun⟩, ?_⟩ <;>
    (try delta State.HeadBlocked) <;> (try delta Served) <;> decide +kernel

theorem witness_PowerLinesLinkOrFaultTheSlot :
    let powering := (put 2 .powering .down site).updSlot 2 fun r => { r with softStart := some 0 }
    let blocked (s : State) : Prop := s.HeadBlocked s.slots.waitingList (s.slots.committed - s.classOf 2)
    (site.slot 2).state ≠ .powering ∧
      ((powering.slot 2).state = .powering ∧ (powering.slot 2).softStart ≠ none ∧ blocked powering) ∧
      ((site.slot 2).state.isUp = true ∧ blocked site ∧ (site.slot 2).lines.fastFault = false ∧
        (site.slot 2).state.poweredOn = true) ∧
      ((powering.slot 2).state ≠ .linking ∧ (powering.slot 2).state.isUp = false) ∧
      (site.slot 5).state.poweredOn = false ∧ Served 0 .active (served 0 2 site) ∧ site.holdsController 0 = true := by
  delta State.HeadBlocked Served
  decide +kernel

theorem witness_DrainTimeoutFlushesThePort :
    let s := ((queued 2 .bulk (put 2 .draining .up site)).updSlot 2 fun r => { r with drainTimer := some 0 }).updPort 2
      fun q => { q with transmission := some (.frame 5 18) }
    ((s.slot 2).state = .draining ∧ (s.slot 2).drainTimer ≠ none ∧ s.alarm.waits = [] ∧
        s.HeadBlocked s.slots.waitingList (s.slots.committed - s.classOf 2) ∧ (s.sq 2).egress.discards + 1 < 2 ^ 32 ∧
        (s.port 2).transmission = some (.frame 5 18)) ∧
      (site.slot 2).state ≠ .draining ∧ Served 2 .draining (served 2 0 s) := by
  delta State.HeadBlocked Served
  decide +kernel

/-- An identity record of a kind code and a power class, with its checksum (12.5). -/
def record (kind watts : Nat) : List Byte :=
  let head : List Byte := [1, BitVec.ofNat 8 kind, 0, 7] ++ List.replicate 28 0x41 ++
    [BitVec.ofNat 8 watts, 4, 11, 1, 5, 0, 20] ++ List.replicate 24 0
  head ++ [BitVec.ofNat 8 (256 - (head.map BitVec.toNat).sum % 256)]

/-- READ_IDENTITY sends the 64 bytes of a card's record in the order of 12.5: the spare bytes, here 1 to 24, end at
offset 62, and the checksum stands at 63 (R188; LOG 62). -/
theorem test_identity_in_table_order :
    let head := (record 2 250).take 39 ++ (List.range 24).map fun k => BitVec.ofNat 8 (k + 1)
    let card := head ++ [BitVec.ofNat 8 (256 - (head.map BitVec.toNat).sum % 256)]
    (validate card).map Identity.bytes = some card ∧ (card.drop 61).take 2 = [23, 24] := by decide +kernel

theorem witness_ValidIdentityWaitsForPower :
    let reading (kind : Nat) : State := identifying 5 1 (stopped ⟨.ack, .ack, .ack⟩ (record kind 250)) site
    let drawing (watts : Nat) : State :=
      let s := (reading 2).updSlot 3 fun r => { r with powerClass := some watts }
      { s with slots := { s.slots with committed := watts + 60 } }
    let waits : State :=
      let s := (put 4 .waitingPower .down (drawing 530)).updSlot 4 fun r => { r with powerClass := some 11 }
      { s with slots := { s.slots with waitingList := [4] } }
    let reads (kind : Nat) (s : State) : Prop := s.PowerInv ∧ ValidRecord (record kind 250) ∧
      (∃ x ∈ s.side.current, x.Stopped s.time.localTicks ⟨.ack, .ack, .ack⟩ ∧ x.bytes = record kind 250) ∧
      s.side.queue = .identify 5 1 :: [] ∧ (s.slot 5).state = .identifying
    (((record 1 250).getD 1 0).toNat = 1 ∧ 2 ≤ (5 : Slot).val ∧ reads 1 (reading 1)) ∧
      (reads 2 waits ∧ (4 : Slot) ≠ 5 ∧ waits.budget < waits.slots.committed + waits.classOf 4) ∧
      (reads 2 (drawing 291) ∧ (drawing 291).slots.waitingList = [] ∧
        (drawing 291).budget < (drawing 291).slots.committed + 250) ∧
      (reads 2 (drawing 290) ∧ (drawing 290).slots.committed + 250 ≤ (drawing 290).budget ∧
        ((drawing 290).slot 5).lines.powerGood = false ∧ ((drawing 290).slot 5).lines.fastFault = false) := by
  delta ValidRecord State.PowerInv Transaction.Stopped
  and_intros <;> decide +kernel

theorem witness_FailedReadIsRetriedOrFaults :
    let at' (k : Nat) (x : Transaction) : State :=
      let s := identifying 5 k x site
      { s with time := { s.time with localTicks := 1250000 } }
    let raw (x : Transaction) : State := (at' 1 x).updSide fun d => { d with queue := [.raw 5 0 64 0 9 2] }
    let stuck : Transaction := { selecting with stuck := true }
    let holding (since : Nat) (aborting : Bool) : Transaction :=
      ⟨.offset, [], ⟨.ack, .notReached, .notReached⟩, 9, some since, aborting, false⟩
    let refused : Transaction := { stopped ⟨.ack, .nack, .notReached⟩ with held := some 0 }
    (at' 2 stuck).ReadFails (.sidebandTransactionEnd .busStuck) .busStuck ⟨.notReached, .notReached, .notReached⟩ ∧
      (at' 2 (stopped ⟨.nack, .notReached, .notReached⟩)).ReadFails (.sidebandTransactionEnd .addressWriteNack) .addrNack
        ⟨.nack, .notReached, .notReached⟩ ∧
      (at' 3 (stopped ⟨.ack, .nack, .notReached⟩)).ReadFails (.sidebandTransactionEnd .offsetNack) .offsetNack
        ⟨.ack, .nack, .notReached⟩ ∧
      (raw (stopped ⟨.ack, .ack, .nack⟩)).ReadFails (.sidebandTransactionEnd .addressReadNack) .addrNack
        ⟨.ack, .ack, .nack⟩ ∧
      (raw (holding 0 false)).ReadFails (.holdTimeout .offset) .holdTimeout ⟨.ack, .notReached, .notReached⟩ ∧
      (at' 3 refused).ReadFails (.holdTimeout .stop) .offsetNack ⟨.ack, .nack, .notReached⟩ ∧
      (((at' 3 stuck).slot 5).state = .identifying ∧ (at' 3 stuck).side.queue = [.identify 5 3] ∧
        (raw stuck).side.queue = [.raw 5 0 64 0 9 2]) ∧
      (stopped ⟨.ack, .ack, .ack⟩ (List.replicate 64 0)).Stopped 0 ⟨.ack, .ack, .ack⟩ ∧
      (List.replicate 64 0 : List Byte).length = 64 ∧ ¬ ValidRecord (List.replicate 64 0) ∧
      (site.side.current = none ∧ (holding 0 true).aborting = true ∧ selecting.phase ≠ .stop ∧
        (stopped .start).phase ≠ .select ∧ selecting.stuck = false ∧ (stopped .start).map ≠ ⟨.ack, .ack, .ack⟩ ∧
        (stopped ⟨.ack, .ack, .ack⟩ [0]).bytes ≠ [1] ∧ (holding 1 false).held = some 1 ∧ 1250000 < 1 + 1250000 ∧
        (holding 0 true).phase = .offset ∧ 0 + 1250000 ≤ (at' 2 selecting).time.localTicks) := by
  refine ⟨⟨_, rfl, rfl, .inl ⟨rfl, rfl, rfl, rfl, rfl⟩⟩,
    ⟨_, rfl, rfl, .inr (.inl ⟨⟨rfl, rfl, by decide, rfl⟩, .inl ⟨rfl, rfl, rfl⟩⟩)⟩,
    ⟨_, rfl, rfl, .inr (.inl ⟨⟨rfl, rfl, by decide, rfl⟩, .inr (.inl ⟨rfl, rfl, rfl⟩)⟩)⟩,
    ⟨_, rfl, rfl, .inr (.inl ⟨⟨rfl, rfl, by decide, rfl⟩, .inr (.inr ⟨rfl, rfl, rfl⟩)⟩)⟩,
    ⟨_, rfl, rfl, .inr (.inr ⟨rfl, rfl, rfl, 0, rfl, by decide⟩)⟩,
    ⟨_, rfl, rfl, .inr (.inr ⟨rfl, rfl, rfl, 0, rfl, by decide⟩)⟩, by decide +kernel,
    ⟨rfl, rfl, by decide, rfl⟩, rfl, ?_, by decide +kernel⟩
  delta ValidRecord
  decide +kernel

theorem witness_ConversionIsJudged :
    let at' (c : Channel) (m : MonitorMode) : State := site.updMon fun x => { x with mode := m, pass := [c] }
    let ticks (k : Nat) : State := { site with time := { site.time with localTicks := k } }
    let rectifier (battery : Nat) (list : List Slot) : State :=
      let s := (at' 12 .continuous).updAlarm fun a => { a with points := a.points.update (critPoint 12) fun p =>
        { p with raisePers := some 1 } }
      { s with slots := { s.slots with batteryBudget := battery, waitingList := list } }
    (site.updMon fun x => { x with state := .stopped }).mon.state ≠ .scanning ∧
      (site.mon.state = .scanning ∧ site.mon.pass = 0 :: allChannels.tail ∧ allChannels.tail ≠ [] ∧
        site.mon.conversionEnd = some 2500 ∧ 2500 ≤ (ticks 2500).time.localTicks ∧
        (ticks 2499).time.localTicks < 2500) ∧
      ((at' 2 .continuous).mon.pass = [2] ∧ (at' 2 .continuous).mon.mode = .continuous ∧
        (∃ x : Channel, ((at' 2 .continuous).mon.channel.read x).inScan = true) ∧ slotChannel 2 = 2 ∧
        ((at' 2 .continuous).slot 2).state.poweredOn = true ∧
        ((at' 2 .continuous).point (critPoint 2)).state ≠ .active ∧
        (at' 2 .continuous).HeadBlocked (at' 2 .continuous).slots.waitingList
          ((at' 2 .continuous).slots.committed - (at' 2 .continuous).classOf 2)) ∧
      (at' 15 .oneScan).mon.mode ≠ .continuous ∧
      ((rectifier 89 []).mon.pass = [12] ∧ ((rectifier 89 []).point (critPoint 12)).state = .clear ∧
        ((rectifier 89 []).mon.channel.read 12).critLow = some 420 ∧ (rectifier 89 []).slots.inForce = .mains ∧
        (rectifier 89 []).slots.waitingList.head? = none ∧ 89 < (rectifier 89 []).slots.committed) ∧
      ((rectifier 90 [2]).slots.waitingList.head? = some 2 ∧
        90 < (rectifier 90 [2]).slots.committed + (rectifier 90 [2]).classOf 2) := by
  delta State.HeadBlocked
  decide +kernel

/-! ### Witnesses: requests

The request is taken, as a byte-for-byte payload at the head of the agent's queue, in states that meet the other
hypotheses of each clause. -/

/-- A command is taken as the request `asked` spells it, in a state and in the states the clauses name. -/
def Taken (i : Instr) (s : State) : Prop := Takes (ask i s) i (asked i)

theorem witness_MonitorStartsTriggersAndStops :
    let waiting := site.updMon fun x => { x with state := .waiting, pass := [] }
    Taken .monitorStop site ∧ (Taken (.monitorStart 0 0 0 0) site ∧ site.mon.state = .scanning) ∧
      (Taken (.monitorStart 3 0 0 0) waiting ∧ waiting.mon.state ≠ .scanning ∧ 2 < (3 : Byte).toNat) ∧
      (Taken (.monitorStart 0 2 16 0) waiting ∧ 16 ≤ (16 : Byte).toNat) ∧
      (Taken (.monitorStart 2 0 15 0xFFFF) waiting ∧ (15 : Channel).val = (15 : Byte).toNat) := by
  delta Taken Takes
  decide +kernel

theorem witness_UnknownRequestIsAnswered :
    let s := ask .unknownRequest site
    let q := asked .unknownRequest
    let used (k : Nat) : State := { s with qm := { s.qm with
      frames := [⟨5, .hub ⟨.probe, 0, 0, [], ⟨0, 0⟩, 0⟩, .timing, k, 1⟩] } }
    (Takes s .unknownRequest q ∧ s.agent.responses = [] ∧ q.payload = 0x7F :: [0x12, 0x34]) ∧
      (s.qm.waiting = [] ∧ 1 ≤ s.reserveFree ∧ (s.slot q.requester).state.isUp = true ∧
        (s.sq q.requester).hold ≠ .stalled) ∧
      ¬ ((put 0 .linking .training s).slot q.requester).state.isUp = true ∧ (used 256).reserveFree = 0 ∧
      (decodeRequest 0 [0x01] = .unknownRequest ∧ ([] : List Byte).length < 2) := by
  delta Takes
  decide +kernel

theorem witness_StateReadsChangeNothing :
    (Taken .readHub site ∧ Taken .readTiming site ∧ Taken .readMonitor site) ∧
      ((11 : Slot).val + 1 = (12 : Byte).toNat ∧ Taken (.readSlot 12) site ∧ Taken (.readIdentity 12) site ∧
        Taken (.readCounters 12) site ∧ Taken (.readDelay 12) site) ∧
      (12 < (13 : Byte).toNat ∧ Taken (.readSlot 13) site ∧ Taken (.readIdentity 13) site ∧
        Taken (.readCounters 13) site ∧ Taken (.readDelay 13) site) ∧
      (Taken (.readAlarms 255) site ∧ Taken (.readAlarms 92) site ∧ Taken (.readAlarms 93) site ∧
        (92 : PointId).val = (92 : Byte).toNat) ∧
      (Taken (.readFlow 0) site ∧ Taken (.readFlow 255) site ∧ (254 : Fin 255).val + 1 = (255 : Byte).toNat) := by
  delta Taken Takes
  decide +kernel

theorem witness_GroupAndWindowReads :
    (Taken (.readGroup 0) site ∧ Taken (.readGroup 17) site ∧ 16 < (17 : Byte).toNat) ∧
      (Taken (.readGroup 16) site ∧ (15 : Fin 16).val + 1 = (16 : Byte).toNat) ∧
      (Taken (.readWindows 0 13) site ∧ 12 < (13 : Byte).toNat) ∧
      (Taken (.readWindows 2 12) site ∧ Taken (.readWindows 1 12) site ∧ (11 : Slot).val + 1 = (12 : Byte).toNat ∧
        1 < (2 : Byte).toNat ∧ (1 : Byte).toNat ≤ 1) := by
  delta Taken Takes
  decide +kernel

theorem witness_PendingBankIsWritten :
    let nine : List RawWindow := List.replicate 9 ⟨0, 1⟩
    (Taken (.writeWindows 1 []) armed ∧ Taken (.setCycle 9999) armed ∧ armed.cal.arming ≠ none) ∧
      (Taken (.writeWindows 13 []) site ∧ site.cal.arming = none ∧ 12 < (13 : Byte).toNat) ∧
      (Taken (.writeWindows 12 nine) site ∧ 8 < nine.length ∧ (11 : Slot).val + 1 = (12 : Byte).toNat) ∧
      (Taken (.writeWindows 12 nine.tail) site ∧ nine.tail.length ≤ 8) ∧ Taken (.setCycle 9999) site := by
  delta Taken Takes
  decide +kernel

theorem witness_CommitIsCheckedInOrder :
    let bank (c : Nat) (ws : List Window) (s : State) : State := { s with cal := { s.cal with
      pendingBank := { cycle := c, windows := s.cal.pendingBank.windows.write 3 ws } } }
    let live := flowTo (.slot 3) .sample .live site
    let none' (s : State) : Prop := s.cal.arming = none ∧ s.cal.pendingBank.cycle ∣ 1000000000
    (Taken .commitCalendar armed ∧ armed.cal.arming ≠ none) ∧
      (Taken .commitCalendar (bank 30000 [] site) ∧ ¬ (bank 30000 [] site).cal.pendingBank.cycle ∣ 1000000000) ∧
      (none' (bank 10000 [⟨0, 10001⟩] site) ∧ ¬ InOrder 10000 ((bank 10000 [⟨0, 10001⟩] site).cal.pendingBank.windows.read 3) ∧
        ∀ p' : Slot, p' < 3 → (bank 10000 [⟨0, 10001⟩] site).cal.pendingBank.windows.read p' = []) ∧
      (none' (bank 10000 [⟨0, 304⟩] live) ∧ InOrder 10000 [⟨0, 304⟩] ∧
        (live.flow 8).fields = some ⟨2, .slot 3, .sample, 1500, false⟩ ∧ (live.flow 8).state = .live ∧
        (live.slot 3).state = .active ∧ (live.port 3).reportedWidth = some .four ∧ 304 < wireTime 1500 .four ∧
        ∀ f : Fin 255, f ≠ 8 → (live.flow f).fields = none) ∧
      (none' (bank 10000 [⟨0, 305⟩, ⟨305, 9695⟩] live) ∧ InOrder 10000 [⟨0, 305⟩, ⟨305, 9695⟩] ∧
        wireTime 1500 .four ≤ 305) := by
  simp only [InOrder, ← Option.mem_def]
  delta Taken Takes
  decide +kernel

theorem witness_SettingsAreTakenAtTheNearerEnd :
    let measured := site.updDelay 11 fun d => { d with base := some 900 }
    (12 < (13 : Byte).toNat ∧ Taken (.setQuota 13 0 0 0) site ∧ Taken (.setSampleLimit 13 0) site ∧
        Taken (.setHold 13 0 0) site ∧ Taken (.setAsymmetry 13 0) site) ∧
      ((11 : Slot).val + 1 = (12 : Byte).toNat ∧ Taken (.setQuota 12 63 0 0xFFFF) site ∧
        Taken (.setSampleLimit 12 1025) site ∧ Taken (.setHold 12 10001 0) site ∧
        Taken (.setAsymmetry 12 0xFE0B) measured ∧ (measured.slotDelay 11).base = some 900) ∧
      Taken (.setProbe 65 99 9 3) site := by
  delta Taken Takes
  decide +kernel

theorem witness_AdmissionAndBudgetsAreSet :
    let waits (list : List Slot) : State :=
      let s := (put 4 .waitingPower .down (put 5 .waitingPower .down site)).updSlot 4 fun r =>
        { r with powerClass := some 60 }
      let t := s.updSlot 5 fun r => { r with powerClass := some 1 }
      { t with slots := { t.slots with waitingList := list } }
    (Taken (.setAdmission 0 1 0 1 0 2 100) site ∧ Taken (.setAdmission 0 1 0 1 0 1 1001) site) ∧
      (Taken (.setBudget 149 0) (waits [4, 5]) ∧ (waits [4, 5]).slots.inForce = .mains ∧
        149 < (waits [4, 5]).slots.committed + (waits [4, 5]).classOf 4) ∧
      (Taken (.setBudget 150 0) (waits [4, 5]) ∧ (waits [4, 5]).slots.waitingList = 4 :: [5] ∧
        ((waits [4, 5]).slot 4).state = .waitingPower ∧
        (waits [4, 5]).slots.committed + (waits [4, 5]).classOf 4 ≤ 150 ∧
        ((waits [4, 5]).slot 4).lines.powerGood = false ∧ ((waits [4, 5]).slot 4).lines.fastFault = false ∧
        150 < (waits [4, 5]).slots.committed + (waits [4, 5]).classOf 4 + (waits [4, 5]).classOf 5) := by
  delta Taken Takes
  decide +kernel

theorem witness_FlowAndGroupAreWritten :
    let live := flowTo (.slot 3) .bulk .live site
    Taken (.writeFlow 0 3 0 4 3 1500 0) site ∧
      (Taken (.writeFlow 9 3 0 4 3 1500 0) live ∧ (live.flow 8).state = .live ∧ (8 : Fin 255).val + 1 = (9 : Byte).toNat) ∧
      (Taken (.writeFlow 9 3 0 3 3 1500 0) site ∧ (site.flow 8).state = .free) ∧
      (Taken (.writeFlow 255 12 1 16 2 2049 1) site ∧ (254 : Fin 255).val + 1 = (255 : Byte).toNat ∧
        (site.flow 254).state = .free ∧ (16 : Byte).toNat ≤ 16) ∧
      (Taken (.writeGroup 17 []) site ∧ 16 < (17 : Byte).toNat) ∧
      (Taken (.writeGroup 16 [12, 13]) site ∧ (15 : Fin 16).val + 1 = (16 : Byte).toNat ∧ 12 < (13 : Byte).toNat) ∧
      (Taken (.writeGroup 16 [12, 1, 12]) site ∧ ∀ f : Fin 255, (site.flow f).fields = none) ∧
      (Taken (.writeGroup 1 [12, 1, 12]) (flowTo (.group 0) .sample .live site) ∧
        ((flowTo (.group 0) .sample .live site).flow 8).fields = some ⟨2, .group 0, .sample, 1500, false⟩) := by
  delta Taken Takes
  decide +kernel

theorem witness_FlowIsEnabledDisabledAndDeleted :
    let flow (st : FlowState) : State := flowTo (.slot 3) .bulk st site
    (Taken (.enableFlow 0) site ∧ Taken (.disableFlow 0) site ∧ Taken (.deleteFlow 0) site) ∧
      ((254 : Fin 255).val + 1 = (255 : Byte).toNat ∧ (site.flow 254).state = .free ∧ Taken (.enableFlow 255) site) ∧
      (Taken (.enableFlow 9) (flow .suspended) ∧ ((flow .suspended).flow 8).state = .suspended) ∧
      (Taken (.enableFlow 9) (flow .disabled) ∧ ((flow .disabled).flow 8).state = .disabled ∧
        ((flow .disabled).flow 8).fields = some ⟨2, .slot 3, .bulk, 1500, false⟩ ∧ (flow .disabled).FlowInv) ∧
      (Taken (.disableFlow 9) (flow .live) ∧ Taken (.disableFlow 9) (flow .disabled)) ∧
      (Taken (.deleteFlow 9) (flow .live) ∧ Taken (.deleteFlow 9) (flow .disabled) ∧
        ((flow .live).flow 8).state = .live) := by
  delta Taken Takes State.FlowInv
  simp only [← Option.mem_def]
  and_intros <;> decide +kernel

theorem witness_SourceAndServoAreSet :
    let kept := source .qualified 4 0 site
    let both : State := { kept with trk := { kept.trk with
      selected := some .P, timing := .locked, srcN := { kept.trk.srcP with provider := some 3 } } }
    let provided : State :=
      let s := (providing .qualified 4 0 none site).updSlot 3 fun r => { r with
        identity := some { cardOf .transport with flags := 3 } }
      { s with trk := { s.trk with
        source := { s.trk.source with nSlot := some 2 }, selected := some .N, timing := .locked } }
    let held (ticks : Nat) : State := { site with
      time := { site.time with localTicks := ticks }
      trk := { site.trk with timing := .holdover, holdoverStart := some 0 } }
    (Taken (.setSource 2 0 0 1 0 0) site ∧ Taken (.setSource 1 2 13 1 0 0) site ∧ Taken (.setSource 1 2 12 1 0 0) site ∧
        Taken (.setSource 1 1 12 255 10001 99) site) ∧
      (site.trk.source.nSlot = none ∧ site.trk.source.nRate = 1 ∧ Taken (.setSource 0 1 0 1 0 5000) site ∧
        site.trk.selected = none ∧ site.trk.srcP.state ≠ .qualified ∧ site.trk.srcN.state ≠ .qualified) ∧
      (Taken (.setSource 1 0 0 1 0 5000) both ∧ both.trk.selected = some .P ∧ (both.source .P).state = .qualified) ∧
      (Taken (.setSource 1 1 0 1 0 5000) both ∧ both.trk.srcN.state = .qualified) ∧
      (Taken (.setSource 0 1 4 1 0 5000) provided ∧ Taken (.setSource 0 1 0 1 0 5000) provided ∧
        provided.trk.source.nSlot = some 2 ∧ provided.trk.srcN.provider = some 2 ∧ provided.trk.selected = some .N ∧
        provided.trk.timing = .locked ∧ (provided.slot 3).state = .active ∧
        ((provided.slot 3).identity.any fun i => i.timingClient && i.refProvider) = true ∧ provided.trk.source.nRate = 1) ∧
      (Taken (.setSource 0 1 3 2 0 5000) provided ∧ provided.trk.srcN.state = .qualified ∧
        3 * (125000000 / 2) ≤ provided.time.localTicks - provided.trk.srcN.silenceStart) ∧
      (Taken (.setServo 1 1 0 0 0 0 0) site ∧ site.trk.timing ≠ .holdover) ∧
      (Taken (.setServo 64 8 50000 1000 100 8 60) (held 7499999999) ∧ ¬ 60 ≤ (held 7499999999).holdoverTimer) ∧
      (Taken (.setServo 64 8 50000 1000 100 8 60) (held 7500000000) ∧ (held 7500000000).trk.holdoverStart = some 0 ∧
        60 ≤ (7500000000 - 0) / 125000000) := by
  delta Taken Takes
  and_intros <;> decide +kernel

theorem witness_PointsAndThresholdsAreSet :
    let point (id : PointId) (p : Point → Point) (s : State) : State := s.updAlarm fun a => { a with
      points := a.points.update id p }
    let held := point 36 (fun p => { p with state := .held, count := 0 }) site
    let rising := point 12 (fun p => { p with state := .held, count := 2 }) site
    (92 < (93 : Byte).toNat ∧ Taken (.setAlarmPoint 93 1 0 1 1 0 0) site ∧ Taken (.ackAlarm 93) site) ∧
      ((85 : PointId).val = (85 : Byte).toNat ∧ Taken (.setAlarmPoint 85 1 0 1 1 0 2) site ∧ 1 < (2 : BitVec 16).toNat) ∧
      (Taken (.setAlarmPoint 85 1 3 1 1 1 1) site ∧ Taken (.setAlarmPoint 12 0 0 0 0 0 0) rising ∧
        (rising.point 12).state = .held ∧ (12 : PointId).val = 12 + (0 : Slot).val ∧ site.slots.waitingList = []) ∧
      (Taken (.ackAlarm 36) held ∧ (held.point 36).state = .held ∧ (held.point 36).count = 0) ∧
      (Taken (.ackAlarm 12) rising ∧ 0 < (rising.point 12).count) ∧
      (Taken (.ackAlarm 81) site ∧ (site.point 81).state = .active) ∧
      (Taken (.ackAlarm 76) (point 76 (fun p => { p with state := .held }) site)) ∧
      (Taken (.setThresholds 16 ⟨0, 0⟩ ⟨0, 0⟩ ⟨0, 0⟩ ⟨0, 0⟩ 0) site ∧
        Taken (.setThresholds 15 ⟨2, 0⟩ ⟨0, 0⟩ ⟨0, 0⟩ ⟨0, 0⟩ 0) site ∧
        Taken (.setThresholds 15 ⟨1, 1024⟩ ⟨0, 9⟩ ⟨1, 1023⟩ ⟨0, 0⟩ 64) site ∧ (15 : Channel).val = (15 : Byte).toNat) := by
  delta Taken Takes
  decide +kernel

theorem witness_RawReadsWaitsAndMail :
    let raws (k : Nat) : State := (identifying 5 1 selecting site).updSide fun d => { d with
      queue := d.queue ++ List.replicate k (.raw 5 0 64 0 9 2) }
    let fitting : State := { flowTo (.slot 3) .sample .live site with cal := { armed.cal with arming := none } }
    let notices (s : State) (k : Nat) : State := s.updAlarm fun a => { a with notices := [], waits := List.replicate k ⟨0, 1, 2⟩ }
    (Taken (.sidebandRead 0 0 1) site ∧ Taken (.readMail 13) site ∧ 12 < (13 : Byte).toNat) ∧
      (Taken (.sidebandRead 12 0 65) site ∧ 64 < (65 : Byte).toNat ∧ (11 : Slot).val + 1 = (12 : Byte).toNat) ∧
      (Taken (.sidebandRead 12 0 64) site ∧ (site.slot 11).state = .empty) ∧
      (Taken (.sidebandRead 6 0 64) (raws 2) ∧ ((raws 2).slot 5).state ≠ .empty ∧
        2 ≤ ((raws 2).side.queue.filter SidebandEntry.isRaw).length) ∧
      (Taken (.sidebandRead 6 0 64) (raws 1) ∧ ((raws 1).side.queue.filter SidebandEntry.isRaw).length < 2) ∧
      Taken (.readMail 12) site ∧ (Taken .alarmWait site ∧ site.alarm.notices ≠ []) ∧
      (Taken .alarmWait (notices site 3) ∧ (notices site 3).alarm.notices = [] ∧ (notices site 3).alarm.waits.length < 4) ∧
      (Taken .alarmWait (notices site 4) ∧ 4 ≤ (notices site 4).alarm.waits.length) ∧
      (Taken .commitCalendar fitting ∧ fitting.cal.arming = none ∧ fitting.cal.pendingBank.cycle ∣ 1000000000 ∧
        (fitting.flow 8).state = .live ∧ fitting.cal.pendingBank.windows.read 3 = [⟨0, 305⟩] ∧
        wireTime 1500 .four ≤ 305) := by
  delta Taken Takes
  decide +kernel

theorem witness_SlotRequestsFollowTheState :
    let at' (st : SlotState) : State := put 11 st .up site
    let closed := (at' .quiesced).updSlot 11 fun r => { r with closed := true }
    (12 < (13 : Byte).toNat ∧ Taken (.slotAdmit 13) site ∧ Taken (.slotDrain 13) site ∧ Taken (.slotRetry 13) site ∧
        Taken (.portReset 13) site) ∧
      ((11 : Slot).val + 1 = (12 : Byte).toNat ∧ Taken (.slotAdmit 12) (at' .standby) ∧
        ((at' .standby).slot 11).state = .standby) ∧
      (((at' .linking).slot 11).state = .linking ∧ ((at' .active).slot 11).state = .active ∧ (site.slot 11).state = .empty) ∧
      (Taken (.slotDrain 12) (queued 11 .bulk (at' .active)) ∧ site.alarm.waits = [] ∧
        ((queued 11 .bulk (at' .active)).sq 11).queues.bulk ≠ []) ∧
      ((at' .draining).slot 11).state = .draining ∧
      (Taken (.slotRetry 12) closed ∧ (closed.slot 11).state = .quiesced ∧ (closed.slot 11).closed = true) ∧
      (((at' .quiesced).slot 11).closed = false ∧ Taken (.portReset 12) (at' .standby) ∧ Taken (.portReset 12) site) ∧
      (Taken (.slotDrain 12) (at' .standby) ∧ ((at' .standby).sq 11).queues = ⟨[], [], [], []⟩ ∧
        ((at' .standby).port 11).transmission = none ∧
        (at' .standby).HeadBlocked (at' .standby).slots.waitingList
          ((at' .standby).slots.committed - (at' .standby).classOf 11)) ∧
      (queued 11 .bulk (at' .active)).EgressStays 11 ∧ (queued 11 .timing (at' .standby)).EgressStays 11 ∧
      (at' .standby).NoWaitStays 11 ∧ Served 11 .standby (served 11 0 (at' .standby)) ∧
      Served 0 .active (served 0 2 site).taking := by
  refine ⟨?_, ?_, ?_, ?_, ?_, ?_, ?_, ?_, .inr (.inl (by decide)), .inr (.inr ⟨5, by decide, by decide⟩), .inl rfl, ?_, ?_⟩ <;>
    (try delta Taken Takes) <;> (try delta State.HeadBlocked) <;> (try delta Served) <;> beta_reduce <;> decide +kernel

theorem witness_ResetAndClearEmptyTheirState :
    let starting := put 5 .linking .testing (put 4 .linking .training site)
    let reading (x : Transaction) : State := identifying 6 1 x starting
    Taken .clearCounters site ∧
      (Taken .hubReset starting ∧ starting.NoneDraining ∧ (starting.port 4).link = .training ∧
        (starting.port 5).link = .testing ∧ ∀ p : Slot, (starting.port p).laneGood.read 0 = true) ∧
      ((site.sq 2).paused = (site.port 2).pauseAsserted ∧ site.side.current = none ∧ site.side.selector = none) ∧
      (Taken .hubReset (reading ⟨.data, [1, 2], ⟨.ack, .ack, .ack⟩, 9, none, false, false⟩) ∧ SidebandPhase.data ≠ .select) ∧
      (Taken .hubReset (reading selecting) ∧ (reading selecting).side.current = some selecting ∧
        selecting.phase = .select) := by
  delta Taken Takes State.NoneDraining
  decide +kernel

/-! ### One step each, against the manual's examples and hand-worked values -/

/-- The state that a command leaves. -/
def after (i : Instr) (s : State) : State :=
  match exec i s with
  | .next t => t
  | .fault _ | .refused _ => s

/-- One tick from reset: 8 ns of hub time, one oscillator period (R79). -/
theorem test_tick : step State.reset = .next State.reset.tick ∧ State.reset.tick.time.ns = 8 ∧
    State.reset.tick.time.localTicks = 1 ∧ State.reset.tick.pending = [] := by
  refine ⟨rfl, ?_⟩
  decide +kernel

/-- R159's example: with CH_WARN(14) ACTIVE, 458 keeps the warning and 456 ends it; not raised, 460 is within. -/
theorem test_hysteresis :
    let at' (st : PointState) : State := (site.updAlarm fun a => { a with
      points := a.points.update 62 fun p => { p with state := st } }).updMon fun m => { m with
        pass := [14], conversionEnd := some 0 }
    ((after (.conversionComplete 458) (at' .active)).channel 14).warning = some true ∧
      ((after (.conversionComplete 456) (at' .active)).channel 14).warning = some false ∧
      ((after (.conversionComplete 456) (at' .active)).point 62).state = .clearing ∧
      ((after (.conversionComplete 460) (at' .clear)).channel 14).warning = some false ∧
      ((after (.conversionComplete 461) (at' .clear)).channel 14).warning = some true := by decide +kernel

/-- R108's table: the base sample of a round trip, and a round trip past Rmax is no sample. -/
theorem test_base_samples :
    ([0, 1, 1699, 1702, 1706, 4000, 4001] : List Nat).map (fun r =>
        ((after (.frameReceptionEnd 2 (sent 4 (reply 0))) (replied 0 r (probing 0 9))).slotDelay 2).window) =
      [[0], [1], [850], [851], [853], [2000], []] := by decide +kernel

/-- The response to READ_HUB goes out on the link of slot 1 at once: kind MGMT_RESP, destination 1, sequence that of
the request, code, tag, status OK, maker 214 in two bytes, part number 1640 (12.1, 12.3, R184). -/
theorem test_readHub_response :
    (after .readHub (ask .readHub site)).out.map (fun o =>
        match o with
        | .frame p lanes =>
          let stream := unstripe (lanes.map Prod.snd)
          let bytes := stream.filterMap id
          (p, lanes.map Prod.fst, bytes.take 8, (bytes.drop 20).take 9,
            checkPasses bytes && stream.take 12 == List.replicate 12 none && stream.length == bytes.length + 24)
        | .symbol p _ => (p, [], [], [], false)
        | .sideband p _ => (p, [], [], [], false)) =
      [(0, [0, 1, 2, 3], [0x03, 2, 1, 0, 0, 7, 0, 42], [0x01, 0x12, 0x34, 0x00, 0, 214, 0x06, 0x68, 1], true)] := by
  decide +kernel

/-- The quota range ends meet: quota 64 leaves Y at most 63 and then X at 0 (R52). -/
theorem test_setQuota_clamps :
    (after (.setQuota 12 0 0xFFFF 0xFFFF) (ask (.setQuota 12 0 0xFFFF 0xFFFF) site)).queueConfig 11 =
      ⟨64, 63, 0, 128, 50, 3⟩ := by decide +kernel

/-- A pause at quota − Y = 448 held cells, not at 447 (R51). -/
theorem test_pause_level :
    let at' (k : Nat) : State := site.updPort 2 fun q => { q with assembly := some ⟨k, false⟩ }
    ((after (.cellRequest 2) (at' 446)).sq 2).paused = false ∧ ((after (.cellRequest 2) (at' 447)).sq 2).paused = true ∧
      (after (.cellRequest 2) (at' 447)).out = [.symbol 2 .pauseOn] := by decide +kernel

/-- A fast fault of an ACTIVE card: FAULTED with OVERCURRENT, power off, lamp lit, 30 W given back (R131, R132). -/
theorem test_fastFault :
    let t := after (.fastFault 2 true) site
    (t.slot 2).state = .faulted ∧ (t.slot 2).fault = some .overcurrent ∧ (t.slot 2).lines.powerEnable = false ∧
      (t.slot 2).lines.removeLamp = true ∧ t.slots.committed = 60 ∧ (t.port 2).link = .down := by decide +kernel

/-- The granted card's soft-start deadline is 10 ms per unit (R124): 5 units are 6,250,000 periods. -/
theorem test_grant :
    let t := after (.sidebandTransactionEnd (.done (record 2 40))) (identifying 5 1 (stopped ⟨.ack, .ack, .ack⟩ (record 2 40)) site)
    (t.slot 5).state = .powering ∧ (t.slot 5).softStart = some 6250000 ∧ t.slots.committed = 130 ∧
      (t.channel 5).critHigh = some 40 ∧ (t.channel 5).warnHigh = some 32 := by decide +kernel

/-- A slot that enters an empty waiting list and is granted in the same event: POWER_WAITING is reported true and false
(R138). -/
theorem test_power_waiting :
    ((after (.sidebandTransactionEnd (.done (record 2 40))) (identifying 5 1 (stopped ⟨.ack, .ack, .ack⟩ (record 2 40)) site)).point
      powerWaitingPoint).raiseCount = 1 := by decide +kernel

/-- The sixteenth return comes with the pause on and X held cells besides its own: PAUSE_ON is sent as the link comes
up, and PAUSE_OFF as the cell of the return is freed (R7, R15, R45, R51). -/
theorem test_up_pause :
    let held := ((receiving 2 (testReturn 15) (testingAt 15 1)).updSq 2 fun q => { q with paused := true }).updPort 2
      fun q => { q with pauseAsserted := true }
    let s : State := { held with qm := { held.qm with frames := [{ stored 5 .bulk with cells := 128 }] } }
    (after (.frameReceptionEnd 2 (sent 2 (testReturn 15))) s).out = [.symbol 2 .pauseOn, .symbol 2 .pauseOff] := by
  decide +kernel

/-- The polarity of an external input is sent in the two bytes of its argument (R177, R188): the two relays, then the
first input with its contact closed and its alarm level open. -/
theorem test_polarity :
    (alarmResults State.reset).take 5 = [1, 0, 1, 0, 0] := by decide +kernel

/-- The discard of an assembly that holds no cell changes no held cells, so the pause is not examined: 448 cells leave it
off (R51). -/
theorem test_discard_without_cells :
    let held := site.updPort 2 fun q => { q with assembly := some ⟨0, true⟩ }
    let s : State := { held with qm := { held.qm with frames := [{ stored 5 .bulk with cells := 448 }] } }
    s.heldCells 2 = 448 ∧ ((discardAssembly 2 s).sq 2).paused = false ∧ ((discardAssembly 2 s).port 2).assembly = none := by
  decide +kernel

/-- A hold of 10 ms in the stop after a byte that was not acknowledged ends with that byte's kind, the first event
(R145). -/
theorem test_hold_after_refusal :
    let s := identifying 5 3 { stopped ⟨.ack, .nack, .notReached⟩ with held := some 0 } site
    let late : State := { s with time := { s.time with localTicks := 1250000 } }
    ((after (.holdTimeout .stop) late).slot 5).failureKind = some .offsetNack ∧
      ((after (.holdTimeout .stop) late).slot 5).fault = some .idFail := by decide +kernel

/-- A byte read from a slot whose card was pulled is all ones, the wires being pulled up (8.2, R145). -/
theorem test_pulled_card_is_read_as_ones :
    let x : Transaction := ⟨.data, [1], ⟨.ack, .ack, .ack⟩, 0, none, false, false⟩
    ((elementOver x (identifying 5 1 x site)).1.side.current.map Transaction.bytes) = some [1, 0xFF] := by decide +kernel

/-- A STATE point whose condition returns in HELD goes to ACTIVE without a notice; from CLEAR it gives one (R172). -/
theorem test_held_state_point_gives_no_notice :
    let opened := site.updInput 0 fun x => { x with rawOpen := true, debounce := some 0 }
    let held := opened.updAlarm fun a => { a with
      points := a.points.update 85 fun p => { p with state := .held, latched := true }, active := a.active ++ [85] }
    let told (s : State) : Bool := s.alarm.notices.any fun n => n.body == .alarm 85 .active .major
    told (after (.extInputDebounced 0) opened) = true ∧ told (after (.extInputDebounced 0) held) = false ∧
      ((after (.extInputDebounced 0) held).point 85).state = .active := by decide +kernel

/-- A table word spells no command (the table gives no bits). -/
theorem test_no_table_word : decodeTableWord 8 1 = none ∧ (State.reset.withFetchWord 8 1).pending = [] := by decide

end Sys2Proof.Tests
end

section
namespace Sys2Proof.Machine

/-! ### Records of one port -/

/-- A port that is written reads as its new record. -/
theorem updPort_eq_write (p : Slot) (f : Port → Port) (s : State) :
    s.updPort p f = { s with ports := s.ports.write p (f (s.port p)) } := rfl

/-- Two changes of one port in a row are one. -/
theorem updPort_updPort (p : Slot) (f g : Port → Port) (s : State) :
    (s.updPort p f).updPort p g = s.updPort p fun q => g (f q) := by
  unfold State.updPort Table.update
  simp

/-- What the slot holds follows the cells of its ingress assembly. -/
theorem heldCells_updPort (p : Slot) (f : Port → Port) (s : State) :
    (s.updPort p f).heldCells p = (f (s.port p)).assemblyCells + (s.heldCells p - (s.port p).assemblyCells) := by
  unfold State.heldCells
  rw [State.port_updPort_same, State.updPort_qm, Nat.add_sub_cancel_left]

/-- The pause of a slot is examined after a change of its port that keeps the pause asserted and the link. -/
theorem reexaminePause_updPort (p : Slot) (f : Port → Port) (s : State)
    (told : ∀ b, (s.updPort p f).portTold p b = f (s.portTold p b))
    (link : (f (s.port p)).link = (s.port p).link)
    (asserted : (f (s.port p)).pauseAsserted = (s.port p).pauseAsserted) :
    let b := s.pausedAt p ((s.updPort p f).heldCells p)
    reexaminePause p (s.updPort p f) = { s with
      ports := s.ports.write p (f (s.portTold p b))
      qm := { s.qm with slot := s.qm.slot.write p { s.sq p with paused := b } }
      out := s.out ++ s.symbolsTold p b } := by
  intro b
  have same : (s.updPort p f).pausedAt p ((s.updPort p f).heldCells p) = b := rfl
  rw [reexaminePause_eq, setPaused_eq, same, told]
  have symbols : (s.updPort p f).symbolsTold p b = s.symbolsTold p b := by
    unfold State.symbolsTold
    rw [State.port_updPort_same, State.sq_updPort, link, asserted]
  rw [symbols, State.updPort_ports]
  unfold Table.update
  rw [Table.write_write]
  rfl

/-! ### CELL_REQUEST -/

/-- A truncated frame asks for no cell, and a port that receives no frames gets none (R10). -/
theorem cellRequest_of_closed {p : Slot} {s : State} (h : receives (s.port p) = false ∨
    ∃ a, (s.port p).assembly = some a ∧ a.truncated = true) : cellRequest p s = s := by
  unfold cellRequest
  rcases h with h | ⟨a, ha, truncated⟩
  · simp [h]
  · simp [ha, truncated]

/-- The assembly of a port that takes frames, as a cell is asked for. -/
theorem assembly_getD {p : Slot} {s : State} (whole : ∀ a, (s.port p).assembly = some a → a.truncated = false) :
    (s.port p).assembly.getD ⟨0, false⟩ = ⟨(s.port p).assemblyCells, false⟩ := by
  unfold Port.assemblyCells
  cases h : (s.port p).assembly with
  | none => rfl
  | some a => cases a; simpa using whole _ h

/-- A granted cell joins the assembly, and the pause is examined against one held cell more (R44, R51). -/
theorem cellRequest_granted {p : Slot} {s : State} (takes : receives (s.port p) = true)
    (whole : ∀ a, (s.port p).assembly = some a → a.truncated = false) (granted : cellGranted s p = true) :
    let b := s.pausedAt p (s.heldCells p + 1)
    cellRequest p s = { s with
      ports := s.ports.write p { s.portTold p b with assembly := some ⟨(s.port p).assemblyCells + 1, false⟩ }
      qm := { s.qm with slot := s.qm.slot.write p { s.sq p with paused := b } }
      out := s.out ++ s.symbolsTold p b } := by
  intro b
  have held : (s.updPort p fun q => { q with assembly := some ⟨(s.port p).assemblyCells + 1, false⟩ }).heldCells p =
      s.heldCells p + 1 := by
    have part : (s.port p).assemblyCells ≤ s.heldCells p := Nat.le_add_right _ _
    rw [heldCells_updPort]
    simp only [Port.assemblyCells, Option.map_some, Option.getD_some] at part ⊢
    omega
  unfold cellRequest
  rw [assembly_getD whole]
  simp only [takes, granted, Bool.not_true, Bool.or_self, Bool.false_eq_true, if_false, if_true]
  rw [reexaminePause_updPort p _ s ?told rfl rfl, held]
  case told =>
    intro c
    unfold State.portTold
    rw [State.sq_updPort, State.port_updPort_same]
    split <;> rfl

/-- A refused cell truncates the frame and marks exhaustion seen (R44, R61). -/
theorem cellRequest_refused {p : Slot} {s : State} (takes : receives (s.port p) = true)
    (whole : ∀ a, (s.port p).assembly = some a → a.truncated = false) (refused : cellGranted s p = false) :
    cellRequest p s = { s with
      ports := s.ports.write p { s.port p with assembly := some ⟨(s.port p).assemblyCells, true⟩ }
      qm := { s.qm with exhaustion := true } } := by
  unfold cellRequest
  rw [assembly_getD whole]
  simp only [takes, refused, Bool.not_true, Bool.or_self, Bool.false_eq_true, if_false]
  rfl

/-- Settles O13: the two outcomes of a request on a port that takes it, and the ports that take none. -/
theorem cellRequestGrantsOrTruncates : Obligations.CellRequestGrantsOrTruncates := by
  intro p s
  refine ⟨fun up whole => ?_, fun closed => ?_⟩
  · have takes : receives (s.begin.port p) = true := by
      rcases up with h | h <;> simp [receives, h]
    refine ⟨fun free below => ?_, fun full => ?_⟩
    · have granted : cellGranted s.begin p = true :=
        Bool.and_eq_true_iff.2 ⟨decide_eq_true free, decide_eq_true below⟩
      exact congrArg Host.Outcome.next (cellRequest_granted takes whole granted)
    · have refused : cellGranted s.begin p = false := by
        refine Bool.eq_false_iff.2 fun g => full ?_
        exact (Bool.and_eq_true_iff.1 g).imp of_decide_eq_true of_decide_eq_true
      exact congrArg Host.Outcome.next (cellRequest_refused takes whole refused)
  · refine congrArg Host.Outcome.next (cellRequest_of_closed (s := s.begin) ?_)
    rcases closed with h | h | h
    · exact .inl (by simp [receives, h])
    · exact .inl (by simp [receives, h])
    · exact .inr h

end Sys2Proof.Machine
end

section
namespace Sys2Proof.Machine

/-! ### HOLD_ON, HOLD_OFF and damaged symbols -/

/-- A hold release, as its three items (R54). -/
theorem SlotQueues.released_eq (q : SlotQueues) : q.released =
    { q with
      hold := .none
      holdTimer := if q.hold = .holding then none else q.holdTimer
      stallCount := if q.hold = .holding then 0 else q.stallCount } := by
  unfold SlotQueues.released
  cases h : q.hold
  all_goals
    simp only [reduceCtorEq, if_true, if_false]
  exact h ▸ rfl

/-- Settles O14: each symbol where it acts and where it is ignored. -/
theorem holdSymbolsAndDamage : Obligations.HoldSymbolsAndDamage := by
  intro p s
  refine ⟨fun up off => ?_, fun up on => ?_, fun ignored => ?_, fun ignored => ?_, fun receives => ?_, fun down => ?_⟩
  · exact congrArg Host.Outcome.next (if_pos (c := (s.begin.port p).link = .up ∧ _) ⟨up, off⟩)
  · refine congrArg Host.Outcome.next ((if_pos (c := (s.begin.port p).link = .up ∧ _) ⟨up, on⟩).trans ?_)
    unfold State.updSq Table.update
    rw [SlotQueues.released_eq]
    rfl
  · exact congrArg Host.Outcome.next (if_neg (c := (s.begin.port p).link = .up ∧ _) ignored)
  · exact congrArg Host.Outcome.next (if_neg (c := (s.begin.port p).link = .up ∧ _) ignored)
  · exact congrArg Host.Outcome.next (if_neg (c := (s.begin.port p).link = .down) receives)
  · exact congrArg Host.Outcome.next (if_pos (c := (s.begin.port p).link = .down) down)

end Sys2Proof.Machine
end

section
namespace Sys2Proof.Machine

/-! ### The ingress assembly leaves -/

/-- A discarded assembly: its cells leave the held cells, and the pause follows where it held any (R45, R51). -/
theorem discardAssembly_eq (p : Slot) (s : State) :
    let b := s.pausedWithout p
    discardAssembly p s = { s with
      ports := s.ports.write p { s.portTold p b with assembly := none }
      qm := { s.qm with slot := s.qm.slot.write p { s.sq p with paused := b } }
      out := s.out ++ s.symbolsTold p b } := by
  intro b
  by_cases cells : (s.port p).assemblyCells = 0
  · have kept : b = (s.sq p).paused := if_pos cells
    have told : s.portTold p b = s.port p := if_pos kept
    have quiet : s.symbolsTold p b = [] := if_pos (.inl kept)
    have queues : s.qm.slot.write p { s.sq p with paused := b } = s.qm.slot := by
      rw [kept]; exact Table.write_read s.qm.slot p
    rw [told, quiet, queues, List.append_nil]
    cases h : (s.port p).assembly with
    | none =>
      rw [discardAssembly_of_none h]
      have port : { s.port p with assembly := none } = s.port p := by rw [← h]
      rw [port]
      exact congrArg (fun t => { s with ports := t }) (s.ports.write_read p).symm
    | some a =>
      have none : a.cells = 0 := by simpa [Port.assemblyCells, h] using cells
      rw [discardAssembly_of_no_cells h none]
      rfl
  · have held : (s.updPort p fun q => { q with assembly := none }).heldCells p =
        s.heldCells p - (s.port p).assemblyCells := by
      rw [heldCells_updPort]
      exact Nat.zero_add _
    have examined : b = s.pausedAt p (s.heldCells p - (s.port p).assemblyCells) := if_neg cells
    rw [discardAssembly_of_cells cells, reexaminePause_updPort p _ s ?told rfl rfl, held, ← examined]
    case told =>
      intro c
      unfold State.portTold
      rw [State.sq_updPort, State.port_updPort_same]
      split <;> rfl

/-- Once the assembly has left, what the slot holds is less by its cells. -/
theorem heldCells_discardAssembly (p : Slot) (s : State) :
    (discardAssembly p s).heldCells p = s.heldCells p - (s.port p).assemblyCells := by
  have port : (discardAssembly p s).port p = { s.portTold p (s.pausedWithout p) with assembly := none } := by
    rw [discardAssembly_eq]; exact Table.read_write_same _ _ _
  have frames : (discardAssembly p s).qm.frames = s.qm.frames := by rw [discardAssembly_eq]
  unfold State.heldCells
  rw [port, frames]
  simp [Port.assemblyCells]

/-- A received frame whose count and errors stand has its cells freed as its assembly is discarded (R45, R51). -/
theorem discardAssembly_freed {p : Slot} {errors : Nat} {s t : State}
    (port : t.port p = { portAfterFrame (s.port p) errors with assembly := (s.port p).assembly })
    (others : ∀ q, q ≠ p → t.port q = s.port q) (qm : t.qm = s.qm) (cfg : t.qcfg = s.qcfg) :
    FrameFreed p errors s (discardAssembly p t) := by
  have sq : t.sq p = s.sq p := by unfold State.sq; rw [qm]
  have cells : (t.port p).assemblyCells = (s.port p).assemblyCells := by rw [port]; rfl
  have held : t.heldCells p = s.heldCells p := by unfold State.heldCells; rw [cells, qm]
  have config : t.queueConfig p = s.queueConfig p := by unfold State.queueConfig; rw [cfg]
  have paused : ((discardAssembly p t).sq p).paused = t.pausedWithout p := by
    rw [discardAssembly_eq]; exact congrArg SlotQueues.paused (Table.read_write_same _ _ _)
  have port' : (discardAssembly p t).port p = { t.portTold p (t.pausedWithout p) with assembly := none } := by
    rw [discardAssembly_eq]; exact Table.read_write_same _ _ _
  refine ⟨?_, fun q hq => ?_, ?_, ?_⟩
  · rw [port']
    unfold State.portTold
    split <;> simp [port, portAfterFrame]
  · rw [← others q hq, discardAssembly_eq]
    exact Table.read_write_ne _ _ hq
  · unfold PauseFreed PauseFollows
    rw [paused, port', heldCells_discardAssembly, held, cells]
    unfold State.pausedWithout
    rw [cells]
    split
    · next none =>
      have told : t.portTold p (t.sq p).paused = t.port p := if_pos rfl
      rw [if_pos none, told, sq, port]
      exact ⟨rfl, rfl⟩
    · next some =>
      have config' : (discardAssembly p t).queueConfig p = s.queueConfig p := by
        rw [discardAssembly_eq]; exact config
      simp only [if_neg some]
      unfold State.pausedAt
      rw [sq, held, config, config']
  · rw [paused, discardAssembly_eq]
    simp only [sq, qm]

/-! ### Reception ends -/

/-- The state as a whole frame has been counted at its port, whose error count is then `errors` (R10, R18, R19). -/
def State.counted (p : Slot) (errors : Nat) (s : State) : State :=
  { s with
    ports := s.ports.write p { portAfterFrame (s.port p) errors with assembly := (s.port p).assembly }
    out := [] }

theorem counted_port (p : Slot) (errors : Nat) (s : State) :
    (s.counted p errors).port p = { portAfterFrame (s.port p) errors with assembly := (s.port p).assembly } :=
  Table.read_write_same _ _ _

theorem counted_port_ne {p q : Slot} (errors : Nat) (s : State) (h : q ≠ p) :
    (s.counted p errors).port q = s.port q := Table.read_write_ne _ _ h

/-- A counted frame whose assembly is discarded once the drop counters have changed has its cells freed. -/
theorem counted_freed (p : Slot) (errors : Nat) (s : State) (fwd : Forwarding) :
    let u := discardAssembly p { s.counted p errors with fwd := fwd }
    FrameFreed p errors s u ∧ u.fwd = fwd ∧ OnlyChanges [.ports, .fwd, .qm, .out] s u := by
  have only : OnlyChanges [.ports, .fwd, .qm, .out] s { s.counted p errors with fwd := fwd } :=
    fun q => by cases q <;> simp [Part.Same, State.counted]
  refine ⟨discardAssembly_freed (counted_port p errors s) (fun q hq => counted_port_ne errors s hq) rfl rfl, ?_,
    (discardAssembly_changes _ _).after only rfl⟩
  exact (discardAssembly_changes p _).same .fwd rfl

/-- A frame that was counted is dropped for a reason, against no flow (R35, R45). -/
theorem counted_dropped (p : Slot) (errors : Nat) (reason : DropReason) (s : State) :
    Dropped p reason errors s (dropFrame p reason .none (s.counted p errors)) := by
  unfold dropFrame
  rw [countDrop_none]
  exact counted_freed p errors s _

/-- A frame that was counted is dispatched to the hub, and a block that does nothing takes it (R30). -/
theorem counted_dispatched (p : Slot) (errors : Nat) (s : State) :
    let u := dispatchFrame p id (s.counted p errors)
    FrameFreed p errors s u ∧ u.fwd = { s.fwd with drops := s.dropsAfterDispatch p } ∧
      OnlyChanges [.ports, .fwd, .qm, .out] s u :=
  counted_freed p errors s { s.fwd with drops := s.dropsAfterDispatch p }

/-- The port's error count once a frame was tested: one more where its check failed (R11, R18). -/
def errorsAfter (s : State) (p : Slot) (truncated : Bool) (bytes : List Byte) : Nat :=
  if portTest s p truncated bytes = some .badCheck then count16 (s.port p).errorCount else (s.port p).errorCount

/-- A whole frame is counted, tested, judged in TESTING, and dropped or handed on (R7, R10, R11). -/
theorem receiveFrame_begin (p : Slot) (bytes : List Byte) (a : Assembly) (s : State) :
    let erred := s.counted p (errorsAfter s p a.truncated bytes)
    let judged := if (s.port p).link = .testing then judgeReturn p a.truncated bytes erred else erred
    receiveFrame p bytes a s.begin = match portTest s p a.truncated bytes with
      | some reason => dropFrame p reason .none judged
      | none => forwardFrame p bytes s.hubNow judged := by
  have erred : (if portTest s p a.truncated bytes = some .badCheck
      then countError p (countLink p (fun c => { c with framesReceived := count32 c.framesReceived }) s.begin)
      else countLink p (fun c => { c with framesReceived := count32 c.framesReceived }) s.begin) =
      s.counted p (errorsAfter s p a.truncated bytes) := by
    unfold errorsAfter
    split
    · unfold countError countLink
      rw [updPort_updPort]
      rfl
    · rfl
  unfold receiveFrame
  rw [show portTest s.begin p a.truncated bytes = portTest s p a.truncated bytes from rfl]
  dsimp only
  rw [erred]
  rfl

end Sys2Proof.Machine
end

section
namespace Sys2Proof.Machine

/-! ### Which frames are taken whole, and how they are tested -/

/-- A port takes a frame whole at its end: it receives, over as many lanes as are in use, and the cells agree (R10). -/
def TakenWhole (s : State) (p : Slot) (lanes : List (List Byte)) (a : Assembly) : Prop :=
  ((s.port p).link = .up ∨ (s.port p).link = .testing) ∧ (s.port p).assembly = some a ∧
    a.agrees (frameOfLanes lanes) = true ∧ lanes.length = (s.port p).lanesInUse.length

theorem receives_iff (q : Port) : receives q = true ↔ q.link = .up ∨ q.link = .testing := by
  unfold receives
  cases q.link <;> simp

theorem receptionEnd_of_whole {s : State} {p : Slot} {lanes : List (List Byte)} {a : Assembly}
    (h : TakenWhole s p lanes a) : receptionEnd p lanes s = receiveFrame p (frameOfLanes lanes) a s := by
  obtain ⟨link, assembly, agrees, length⟩ := h
  unfold receptionEnd
  rw [assembly]
  dsimp only
  rw [if_pos]
  simp [(receives_iff _).2 link, agrees, length]

theorem receptionEnd_of_other {s : State} {p : Slot} {lanes : List (List Byte)} (h : ∀ a, ¬ TakenWhole s p lanes a) :
    receptionEnd p lanes s = s := by
  unfold receptionEnd
  split
  · next a assembly =>
    rw [if_neg]
    intro taken
    simp only [Bool.and_eq_true, beq_iff_eq] at taken
    obtain ⟨⟨receives, length⟩, agrees⟩ := taken
    exact h a ⟨(receives_iff _).1 receives, assembly, agrees, length⟩
  · rfl

theorem portTest_of_truncated (s : State) (p : Slot) (bytes : List Byte) :
    portTest s p true bytes = some .noBuffer := rfl

theorem portTest_of_damaged (s : State) (p : Slot) {bytes : List Byte} (h : checkPasses bytes = false) :
    portTest s p false bytes = some .badCheck := by
  simp [portTest, h]

/-- The length test, as R11 lists its cases. -/
theorem badLength_iff (m : Nat) (bytes : List Byte) : badLength m bytes = true ↔
    (bytes.length < 64 ∨ 2048 < bytes.length ∨ m < bytes.length ∨
      (20 + framePayloadLength bytes + 4 ≠ bytes.length ∧
        ¬ (bytes.length = 64 ∧ 20 + framePayloadLength bytes + 4 < 64))) := by
  unfold badLength
  simp only [Bool.or_eq_true, Bool.and_eq_true, decide_eq_true_eq, bne_iff_ne, Bool.not_eq_true',
    Bool.and_eq_false_iff, beq_eq_false_iff_ne, decide_eq_false_iff_not, or_assoc]
  tauto

theorem portTest_of_misfit (s : State) (p : Slot) {bytes : List Byte} (check : checkPasses bytes = true)
    (length : badLength (s.cardMaxFrame p) bytes = true) : portTest s p false bytes = some .badLength := by
  simp [portTest, check, length]

theorem portTest_of_fit (s : State) (p : Slot) {bytes : List Byte} (check : checkPasses bytes = true)
    (length : badLength (s.cardMaxFrame p) bytes = false) : portTest s p false bytes = none := by
  simp [portTest, check, length]

/-! ### A frame on an UP link -/

/-- A whole frame on an UP link that fails a test of its port is dropped for the reason of the first (R11, R35). -/
theorem receptionEnd_dropped {s : State} {p : Slot} {lanes : List (List Byte)} {a : Assembly}
    (whole : TakenWhole s p lanes a) (up : (s.port p).link = .up) {reason : DropReason}
    (fails : portTest s p a.truncated (frameOfLanes lanes) = some reason) :
    receptionEnd p lanes s.begin =
      dropFrame p reason .none (s.counted p (errorsAfter s p a.truncated (frameOfLanes lanes))) := by
  rw [receptionEnd_of_whole (s := s.begin) whole, receiveFrame_begin, fails, up]
  rfl

/-- Settles O18: the three tests in their order, and the ends of a frame that is not taken whole. -/
theorem frameFailsPortTest : Obligations.FrameFailsPortTest := by
  intro p lanes s bytes declared whole
  have dropped {a : Assembly} (h : whole a) (up : (s.port p).link = .up) {reason : DropReason}
      (fails : portTest s p a.truncated bytes = some reason) :
      ∃ u : State, exec (.frameReceptionEnd p lanes) s = .next (checkDrains u) ∧
        Dropped p reason (errorsAfter s p a.truncated bytes) s u :=
    ⟨_, congrArg (fun t => Host.Outcome.next (checkDrains t)) (receptionEnd_dropped h up fails),
      counted_dropped p _ reason s⟩
  refine ⟨fun other => ?_, fun a h up => ⟨fun cut => ?_, fun uncut damaged => ?_, fun uncut check misfit => ?_⟩⟩
  · exact congrArg (fun t => Host.Outcome.next (checkDrains t)) (receptionEnd_of_other (s := s.begin) other)
  · have fails : portTest s p a.truncated bytes = some .noBuffer := by rw [cut]; rfl
    have errors : errorsAfter s p a.truncated bytes = (s.port p).errorCount := by simp [errorsAfter, fails]
    exact errors ▸ dropped h up fails
  · have fails : portTest s p a.truncated bytes = some .badCheck := by rw [uncut]; exact portTest_of_damaged s p damaged
    have errors : errorsAfter s p a.truncated bytes = min ((s.port p).errorCount + 1) 65535 := by
      simp [errorsAfter, fails, count16]
    exact errors ▸ dropped h up fails
  · have fails : portTest s p a.truncated bytes = some .badLength := by
      rw [uncut]; exact portTest_of_misfit s p check ((badLength_iff _ _).2 misfit)
    have errors : errorsAfter s p a.truncated bytes = (s.port p).errorCount := by simp [errorsAfter, fails]
    exact errors ▸ dropped h up fails

/-! ### A frame that passes the tests of an UP port -/

/-- The assembly of a frame that arrives. -/
theorem Arrives.takenWhole {s : State} {p : Slot} {lanes : List (List Byte)} (h : Arrives s p lanes) :
    TakenWhole s p lanes ⟨((frameOfLanes lanes).length + 63) / 64, false⟩ := by
  obtain ⟨up, length, assembly, -⟩ := h
  exact ⟨.inl up, assembly, by simp [Assembly.agrees, cellsOf], length⟩

theorem Arrives.portTest {s : State} {p : Slot} {lanes : List (List Byte)} (h : Arrives s p lanes) :
    portTest s p false (frameOfLanes lanes) = none := by
  obtain ⟨-, -, -, check, low, high, card, declared⟩ := h
  refine portTest_of_fit s p check (Bool.eq_false_iff.2 fun bad => ?_)
  rw [badLength_iff] at bad
  omega

/-- A frame that arrives on an UP link is counted and handed on (R10, R28). -/
theorem Arrives.receptionEnd {s : State} {p : Slot} {lanes : List (List Byte)} (h : Arrives s p lanes) :
    receptionEnd p lanes s.begin =
      forwardFrame p (frameOfLanes lanes) s.hubNow (s.counted p (s.port p).errorCount) := by
  have errors : errorsAfter s p false (frameOfLanes lanes) = (s.port p).errorCount := by
    simp [errorsAfter, h.portTest]
  obtain ⟨up, -⟩ := id h
  rw [receptionEnd_of_whole (s := s.begin) h.takenWhole, receiveFrame_begin, h.portTest, up, errors]
  rfl

/-- A frame on an UP link of a slot that is not in LINKING passes the readiness check, as a TEST frame does (R28). -/
theorem forwardFrame_ready {s : State} {p : Slot} {errors : Nat} (up : (s.port p).link = .up) (bytes : List Byte)
    (arrival : Stamp) (ready : frameKindOf bytes = some .test ∨ (s.slot p).state ≠ .linking) :
    forwardFrame p bytes arrival (s.counted p errors) =
      if frameDest bytes = 0 then dispatchByKind p bytes arrival (s.counted p errors)
      else if frameKindOf bytes = some .data then forwardData p bytes (s.counted p errors)
      else dropFrame p .noPath .none (s.counted p errors) := by
  have link : ((s.counted p errors).port p).link = .up := by rw [counted_port]; exact up
  have slot : (s.counted p errors).slot p = s.slot p := rfl
  unfold forwardFrame
  dsimp only
  rw [if_neg]
  rw [link, slot]
  rintro ⟨kind, linking | down⟩
  · exact ready.elim kind (· linking)
  · exact down rfl

/-- Settles O19: the readiness check, the kinds of no path, and the TEST frame. -/
theorem frameReadinessAndHubKinds : Obligations.FrameReadinessAndHubKinds := by
  intro p lanes s arrives bytes kind
  have up := arrives.1
  have ends {u : State} (h : forwardFrame p bytes s.hubNow (s.counted p (s.port p).errorCount) = u) :
      exec (.frameReceptionEnd p lanes) s = .next (checkDrains u) :=
    h ▸ congrArg (fun t => Host.Outcome.next (checkDrains t)) arrives.receptionEnd
  refine ⟨fun linking other => ?_, fun ready hub noPath => ?_, fun ready slot other => ?_, fun test hub => ?_⟩
  · refine ⟨_, ends ?_, counted_dropped p _ .notReady s⟩
    exact if_pos ⟨other, .inl linking⟩
  · refine ⟨_, ends ?_, counted_dropped p _ .noPath s⟩
    rw [forwardFrame_ready up _ _ (.inr ready), if_pos hub]
    unfold dispatchByKind
    rcases noPath with h | h | h | h | h | h <;> rw [show frameKindOf bytes = _ from h]
  · refine ⟨_, ends ?_, counted_dropped p _ .noPath s⟩
    rw [forwardFrame_ready up _ _ (.inr ready), if_neg slot, if_neg other]
  · refine ⟨_, ends ?_, counted_dispatched p _ s⟩
    rw [forwardFrame_ready up _ _ (.inl test), if_pos hub]
    unfold dispatchByKind
    rw [show frameKindOf bytes = some .test from test]

end Sys2Proof.Machine
end

section
namespace Sys2Proof.Machine

/-! ### Bytes of the hub's frames -/

/-- A field of `k` bytes holds no more than `k` bytes of a number (R186). -/
theorem beBytes_mod {k m : Nat} (h : k ≤ m) (v : Nat) : beBytes k (v % 256 ^ m) = beBytes k v := by
  induction k with
  | zero => rfl
  | succ k ih =>
    obtain ⟨d, rfl⟩ : ∃ d, m = k + (d + 1) := ⟨m - k - 1, by omega⟩
    have byte : BitVec.ofNat 8 (v % 256 ^ (k + (d + 1)) / 256 ^ k) = BitVec.ofNat 8 (v / 256 ^ k) := by
      rw [pow_add, Nat.mod_mul_right_div_self]
      apply BitVec.eq_of_toNat_eq
      rw [BitVec.toNat_ofNat, BitVec.toNat_ofNat, pow_succ]
      exact Nat.mod_mul_left_mod _ _ _
    unfold beBytes
    rw [byte, ih (by omega)]

theorem beBytes_length (k v : Nat) : (beBytes k v).length = k := by
  induction k with
  | zero => rfl
  | succ k ih => simp [beBytes, ih]

/-- What a check was put after passes it (R186). -/
theorem checkPasses_withCheck (bytes : List Byte) : checkPasses (withCheck bytes) = true := by
  have length : (withCheck bytes).length = bytes.length + 4 := by
    simp [withCheck, beBytes_length]
  have before : (withCheck bytes).take ((withCheck bytes).length - 4) = bytes := by
    rw [length, Nat.add_sub_cancel]
    exact List.take_left' rfl
  unfold checkPasses
  rw [before, length]
  simp

/-- The timestamp of a frame that carries hub time plus a compensation (R13, R79). -/
theorem bytes_plus (t : Stamp) (n : Nat) :
    (t.plus n).bytes = beBytes 6 ((t.sec * 1000000000 + t.ns + n) / 1000000000) ++
      beBytes 4 ((t.sec * 1000000000 + t.ns + n) % 1000000000) :=
  congrArg (· ++ _) (beBytes_mod (k := 6) (m := 6) le_rfl _)

/-- The check of the digits 1 to 9 (R186). -/
theorem crc32_digits : crc32 [0x31, 0x32, 0x33, 0x34, 0x35, 0x36, 0x37, 0x38, 0x39] = 0xFC891918 := by decide +kernel

/-- A hub frame's bytes: the header of its kind, two spare bytes, payload, padding and check (12.1). -/
theorem hubBytes_eq (kind : FrameKind) (cls : FrameClass) (dest : Slot) (seq : Byte) (stamp : Stamp)
    (payload : List Byte) : hubBytes kind cls dest seq stamp payload =
      let body := [kind.code, cls.code, BitVec.ofNat 8 (dest.val + 1), 0, 0, seq] ++ beBytes 2 payload.length ++
        stamp.bytes ++ [0, 0] ++ payload ++ List.replicate (40 - payload.length) 0
      body ++ beBytes 4 (crc32 body).toNat := by
  have number : slotByte dest = [BitVec.ofNat 8 (dest.val + 1)] := by
    simp [slotByte, u8, beBytes, slotNumber]
  unfold hubBytes withCheck
  dsimp only
  rw [number]
  rfl

/-! ### The decision -/

/-- A free port with a reported width decides for what the calendar permits (R73–R75). -/
theorem decision_of_permitted {s : State} {p : Slot} {w : Width} {c : FrameClass} {id : Nat}
    (free : s.portFree p = true) (width : (s.port p).reportedWidth = some w) (h : Permitted s p w c id) :
    decision s p = some c ∧ ((s.sq p).queues.ofClass c).head? = some id := by
  have heads {q : Queues} {c : FrameClass} {id : Nat} (h : q.firstOutside = some (c, id)) :
      (q.ofClass c).head? = some id := by
    unfold Queues.firstOutside at h
    split at h <;> cases h <;> simp [Queues.ofClass, *]
  unfold decision
  rw [free, width]
  dsimp only
  rcases h with ⟨none, first⟩ | ⟨win, inside, rfl, head, fits⟩ | ⟨some, outside, first, fits⟩
  · exact ⟨by simp [none, first], heads first⟩
  · refine ⟨?_, head⟩
    have some : (s.cal.active.windows.read p).isEmpty = false := by
      cases h : s.cal.active.windows.read p with
      | nil => rw [h] at inside; cases inside
      | cons => rfl
    obtain ⟨rest, queue⟩ := List.head?_eq_some_iff.1 head
    rw [if_neg (by simp [some]), inside, queue]
    exact if_pos fits
  · refine ⟨?_, heads first⟩
    rw [if_neg (by simpa using some), outside, first]
    exact if_pos fits

/-- A decision for a class is permitted by the calendar. -/
theorem permitted_of_decision {s : State} {p : Slot} {w : Width} {c : FrameClass}
    (width : (s.port p).reportedWidth = some w) (h : decision s p = some c) : ∃ id, Permitted s p w c id := by
  unfold decision at h
  rw [width] at h
  split at h
  next free width' =>
    cases width'
    dsimp only at h
    split at h
    next none =>
      cases first : (s.sq p).queues.firstOutside with
      | none => rw [first] at h; cases h
      | some x =>
        rw [first] at h
        cases h
        exact ⟨x.2, .inl ⟨by simpa using none, first⟩⟩
    next some =>
      split at h
      next win inside =>
        split at h
        next id rest queue =>
          split at h
          next fits => cases h; exact ⟨id, .inr (.inl ⟨win, inside, rfl, by rw [queue]; rfl, fits⟩)⟩
          next => cases h
        next => cases h
      next outside =>
        split at h
        next c' id first =>
          split at h
          next fits => cases h; exact ⟨id, .inr (.inr ⟨by simpa using some, outside, first, fits⟩)⟩
          next => cases h
        next => cases h
  next => cases h

/-! ### The start of a frame -/

/-- The delay unit hears of a PROBE's start where its outstanding probe awaits it (R105). -/
theorem reportEgress_delay (b : FrameBody) (s : State) :
    ((∀ h : HubFrame, b = .hub h → h.kind = .probe →
        (s.slotDelay h.dest).outstanding ≠ some ⟨h.seq.toNat, none⟩) → (reportEgress b s).delay = s.delay) ∧
      (∀ h : HubFrame, b = .hub h → h.kind = .probe → (s.slotDelay h.dest).outstanding = some ⟨h.seq.toNat, none⟩ →
        (reportEgress b s).delay = { s.delay with slot := s.delay.slot.write h.dest { s.slotDelay h.dest with
          outstanding := some ⟨h.seq.toNat, some s.hubNow⟩ } }) := by
  cases b with
  | card n bytes => exact ⟨fun _ => rfl, fun h e => by cases e⟩
  | hub h =>
    refine ⟨fun other => ?_, fun g e probe out => ?_⟩
    · unfold reportEgress
      dsimp only
      split
      · next probe =>
        have other := other h rfl probe
        unfold probeSent
        split
        · next pr out =>
          rw [if_neg]
          rintro ⟨seq, absent⟩
          apply other
          rw [out, ← seq, ← absent]
        · rfl
      · rfl
    · cases e
      unfold reportEgress probeSent
      simp only [probe, if_true, out, and_self]
      rfl

/-- The head of a class queue starts on its port (R13, R14, R48). -/
theorem startFrame_starts {p : Slot} {c : FrameClass} {id : Nat} {f : StoredFrame} {s : State}
    (head : ((s.sq p).queues.ofClass c).head? = some id) (frame : s.frame? id = some f) :
    Starts p c id f s (startFrame p c s) := by
  obtain ⟨rest, queue⟩ := List.head?_eq_some_iff.1 head
  let u : State := { s with
    ports := s.ports.write p { s.port p with
      transmission := some (.frame id (s.nowNs + ((s.port p).workingWidth.map (wireTime f.body.length)).getD 0)) }
    qm := { s.qm with slot := s.qm.slot.write p { s.sq p with
      queues := (s.sq p).queues.setClass c ((s.sq p).queues.ofClass c).tail } }
    out := s.out ++ [frameOutput p (s.port p).lanesInUse (egressBytes f.body s.hubNow)] }
  have start : startFrame p c s = reportEgress f.body u := by
    unfold startFrame
    simp only [queue, frame, u, List.tail_cons]
    rfl
  have only := reportEgress_changes f.body u
  have ports : (reportEgress f.body u).ports = u.ports := only.same .ports rfl
  have qm : (reportEgress f.body u).qm = u.qm := only.same .qm rfl
  have out : (reportEgress f.body u).out = u.out := only.same .out rfl
  obtain ⟨kept, sent⟩ := reportEgress_delay f.body u
  have start' : OnlyChanges sendingParts s u := fun q => by cases q <;> simp [Part.Same, sendingParts, u]
  rw [start]
  refine ⟨?_, fun q hq => ?_, qm, out, kept, sent, only.after start' rfl⟩
  · unfold State.port
    rw [ports]
    exact Table.read_write_same _ _ _
  · unfold State.port
    rw [ports]
    exact Table.read_write_ne _ _ hq

theorem portFree_iff (s : State) (p : Slot) : s.portFree p = true ↔
    (s.port p).link = .up ∧ (s.port p).cardHold = false ∧ (s.port p).transmission = none := by
  unfold State.portFree
  simp [and_assoc]

/-- Settles O15: a window event is a decision of its port, and the bytes of a frame that starts. -/
theorem arbiterDecides : Obligations.ArbiterDecides := by
  intro p s i event
  have decides : exec i s = .next (arbitrate p s.begin) := by rcases event with rfl | rfl <;> rfl
  rw [decides]
  refine ⟨fun busy => ?_, fun up off idle w width => ⟨fun c id permitted f frame => ?_, fun idles => ?_⟩,
    fun n bytes => rfl, fun h => ?_, crc32_digits⟩
  · exact congrArg Host.Outcome.next
      (arbitrate_of_not_free (Bool.eq_false_iff.2 fun free => busy ((portFree_iff s.begin p).1 free)))
  · have free : s.begin.portFree p = true := (portFree_iff s.begin p).2 ⟨up, off, idle⟩
    obtain ⟨decided, head⟩ := decision_of_permitted (s := s.begin) free width permitted
    exact ⟨_, congrArg Host.Outcome.next (arbitrate_starts decided), startFrame_starts (s := s.begin) head frame⟩
  · refine congrArg Host.Outcome.next (arbitrate_idle (s := s.begin) ?_)
    cases decided : decision s.begin p with
    | none => rfl
    | some c =>
      obtain ⟨id, permitted⟩ := permitted_of_decision (s := s.begin) width decided
      exact absurd permitted (idles c id)
  · refine ⟨?_, ?_⟩
    · show hubBytes h.kind.frameKind h.kind.cls h.dest h.seq (egressStamp h s.hubNow) h.payload = _
      rw [hubBytes_eq]
      cases kind : h.kind
      all_goals
        simp only [egressStamp, kind, bytes_plus, List.append_assoc]
        rfl
    · exact checkPasses_withCheck _

end Sys2Proof.Machine
end

section
namespace Sys2Proof.Machine

/-! ### What the freeing of cells moves -/

/-- Between two states nothing of the ports and of what the queue manager keeps for them moved but pauses, and the lists
of the queue manager stood. The stored frames are not spoken of. -/
structure PausesMove (s t : State) : Prop where
  port : ∀ q, t.port q = { s.port q with pauseAsserted := (t.port q).pauseAsserted }
  sq : ∀ q, t.sq q = { s.sq q with paused := (t.sq q).paused }
  waiting : t.qm.waiting = s.qm.waiting
  nextFrame : t.qm.nextFrame = s.qm.nextFrame
  exhaustion : t.qm.exhaustion = s.qm.exhaustion

theorem PausesMove.refl (s : State) : PausesMove s s := ⟨fun _ => rfl, fun _ => rfl, rfl, rfl, rfl⟩

theorem PausesMove.trans {s t u : State} (h : PausesMove s t) (k : PausesMove t u) : PausesMove s u where
  port q := by rw [k.port q, h.port q]
  sq q := by rw [k.sq q, h.sq q]
  waiting := k.waiting.trans h.waiting
  nextFrame := k.nextFrame.trans h.nextFrame
  exhaustion := k.exhaustion.trans h.exhaustion

theorem PausesMove.pausesOnly {s t : State} (h : PausesMove s t) (p : Slot) : PausesOnly p s t :=
  fun q _ => ⟨_, h.port q⟩

theorem setPaused_moves (n : Slot) (b : Bool) (s : State) : PausesMove s (setPaused n b s) := by
  rw [setPaused_eq]
  refine ⟨fun q => ?_, fun q => ?_, rfl, rfl, rfl⟩
  · unfold State.port
    dsimp only
    rw [Table.read_write]
    split
    · next h => subst h; unfold State.portTold; split <;> rfl
    · rfl
  · unfold State.sq
    dsimp only
    rw [Table.read_write]
    split
    · next h => subst h; rfl
    · rfl

theorem reexaminePause_moves (n : Slot) (s : State) : PausesMove s (reexaminePause n s) :=
  reexaminePause_eq n s ▸ setPaused_moves n _ s

theorem freeFrame_moves (f : StoredFrame) (s : State) : PausesMove s (freeFrame f s) := by
  have freed : PausesMove s { s with qm := { s.qm with frames := s.qm.frames.filter fun g => g.id != f.id } } :=
    ⟨fun _ => rfl, fun _ => rfl, rfl, rfl, rfl⟩
  unfold freeFrame
  split
  · dsimp only
    split
    · exact freed
    · exact freed.trans (reexaminePause_moves _ _)
  · exact freed

theorem release_moves (id : Nat) (s : State) : PausesMove s (release id s) := by
  unfold release
  split
  · split
    · exact freeFrame_moves _ s
    · exact ⟨fun _ => rfl, fun _ => rfl, rfl, rfl, rfl⟩
  · exact .refl s

/-- The pause of a slot that is examined follows its held cells (R51). -/
theorem reexaminePause_follows {n : Slot} {s t : State} (paused : (t.sq n).paused = (s.sq n).paused) :
    PauseFollows n s (reexaminePause n t) := by
  have only := reexaminePause_changes n t
  have config : (reexaminePause n t).queueConfig n = t.queueConfig n := by
    unfold State.queueConfig; rw [only.same .qcfg rfl]
  have held : (reexaminePause n t).heldCells n = t.heldCells n := by
    unfold State.heldCells Port.assemblyCells
    rw [(reexaminePause_moves n t).port n, reexaminePause_frames]
  unfold PauseFollows
  rw [config, held, ← paused, reexaminePause_eq, setPaused_eq]
  exact congrArg SlotQueues.paused (Table.read_write_same _ _ _)

theorem reexaminePause_sq_ne {n q : Slot} (s : State) (h : q ≠ n) : (reexaminePause n s).sq q = s.sq q := by
  rw [reexaminePause_eq, setPaused_eq]
  exact Table.read_write_ne _ _ h

/-! ### TRANSMISSION_END -/

/-- The state as the frame of a transmission has left its port and counts as sent (R13, R60). -/
def State.sentFrame (p : Slot) (s : State) : State :=
  (s.begin.updPort p fun q => { q with transmission := none }).updSq p fun q =>
    { q with egress := { q.egress with sent := count32 q.egress.sent } }

/-- At the last reference of a card's CONTROL or BULK frame the pause of its slot alone is examined (R47, R51). -/
theorem release_last {id : Nat} {f : StoredFrame} {s t : State} (frame : t.frame? id = some f) (last : f.refs ≤ 1)
    (cls : f.cls ≠ .sample) {n : Slot} {bytes : List Byte} (body : f.body = .card n bytes)
    (paused : ∀ q, (t.sq q).paused = (s.sq q).paused) :
    PauseFollows n s (release id t) ∧ ∀ q, q ≠ n → ((release id t).sq q).paused = (s.sq q).paused := by
  have examined : release id t =
      reexaminePause n { t with qm := { t.qm with frames := t.qm.frames.filter fun g => g.id != f.id } } := by
    unfold release
    rw [frame]
    simp only [last, if_true, freeFrame, body, FrameBody.ingress, cls, if_false]
  rw [examined]
  exact ⟨reexaminePause_follows (paused n), fun q hq => by rw [reexaminePause_sq_ne _ hq]; exact paused q⟩

/-- A reference that is not the last leaves every pause (R47). -/
theorem release_more {id : Nat} {f : StoredFrame} {t : State} (frame : t.frame? id = some f) (more : 1 < f.refs) (q : Slot) :
    (release id t).sq q = t.sq q := by
  unfold release
  rw [frame]
  dsimp only
  rw [if_neg (by omega)]
  rfl

/-- A port in TESTING that sends nothing starts the first TEST frame that stands built (R6). -/
theorem startTest_sends {p : Slot} {s : State} {seq : Nat} {rest : List Nat} {w : Width}
    (unsent : (s.port p).testUnsent = seq :: rest) (testing : (s.port p).link = .testing)
    (idle : (s.port p).transmission = none) (width : (s.port p).workingWidth = some w) :
    startTest p s = (s.updPort p fun q => { q with
      testUnsent := rest, transmission := some (.test seq (s.nowNs + wireTime 64 w)) }).emit
        (frameOutput p (s.port p).lanesInUse (testBytes p (s.port p).attempt seq)) := by
  unfold startTest
  dsimp only
  rw [unsent]
  dsimp only
  rw [if_pos ⟨testing, idle⟩, width]
  rfl

/-- Without a TEST frame built none starts (R6). -/
theorem startTest_of_none_unsent {p : Slot} {s : State} (none : (s.port p).testUnsent = []) : startTest p s = s := by
  unfold startTest
  dsimp only
  rw [none]

/-- Settles O16: the end of a stored frame's transmission, of a TEST frame's, and of none. -/
theorem transmissionEndGivesBack : Obligations.TransmissionEndGivesBack := by
  intro p s
  refine ⟨fun id ends sending f frame => ?_, fun seq ends sending => ⟨fun testing next rest unsent w width => ?_,
    fun none => ?_⟩, fun idle => ?_⟩
  · have ended : transmissionEnd p s.begin = arbitrate p (release id (s.sentFrame p)) := by
      unfold transmissionEnd
      rw [State.port_begin, sending]
      rfl
    have moves := release_moves id (s.sentFrame p)
    have only : OnlyChanges [.ports, .qm, .out] s (s.sentFrame p) := fun q => by
      cases q <;> simp [Part.Same, State.sentFrame]
    have sq (q : Slot) : ((s.sentFrame p).sq q).paused = (s.sq q).paused ∧
        ((s.sentFrame p).sq q).queues = (s.sq q).queues := by
      by_cases h : q = p
      · subst h; simp [State.sentFrame]
      · rw [State.sentFrame, State.sq_updSq_ne _ _ _ h, State.sq_updPort]; exact ⟨rfl, rfl⟩
    refine ⟨release id (s.sentFrame p), congrArg (fun t => Host.Outcome.next (checkDrains t)) ended, ?_,
      fun q hq => ?_, release_givesBack (s := s.sentFrame p) frame, ?_, fun q => ?_, fun last cls n bytes body => ?_,
      fun more q => ?_, (release_changes id _).after only rfl⟩
    · rw [moves.port p]
      simp [State.sentFrame]
    · refine ⟨((release id (s.sentFrame p)).port q).pauseAsserted, ?_⟩
      rw [moves.port q]
      simp [State.sentFrame, State.port_updPort_ne _ _ _ hq]
    · rw [moves.sq p]
      simp [State.sentFrame, count32]
    · rw [moves.sq q]
      exact (sq q).2
    · exact release_last (s := s) (t := s.sentFrame p) frame last cls body fun q => (sq q).1
    · rw [release_more (t := s.sentFrame p) frame more]
      exact (sq q).1
  · refine congrArg (fun t => Host.Outcome.next (checkDrains t)) ?_
    have started : startTest p (s.begin.updPort p fun q => { q with transmission := none }) = { s with
        ports := s.ports.write p { s.port p with
          testUnsent := rest, transmission := some (.test next (s.time.localTicks * 8 + wireTime 64 w)) }
        out := [frameOutput p (s.port p).lanesInUse (testBytes p (s.port p).attempt next)] } := by
      rw [startTest_sends (by rw [State.port_updPort_same]; exact unsent) (by rw [State.port_updPort_same]; exact testing)
        (by rw [State.port_updPort_same]) (by rw [State.port_updPort_same]; exact width), updPort_updPort,
        State.port_updPort_same]
      rfl
    unfold transmissionEnd
    rw [State.port_begin, sending]
    dsimp only
    rw [started]
    refine arbitrate_of_not_free (Bool.eq_false_iff.2 fun free => ?_)
    obtain ⟨-, -, idle⟩ := (portFree_iff _ p).1 free
    simp [State.port] at idle
  · refine congrArg (fun t => Host.Outcome.next (checkDrains t)) ?_
    unfold transmissionEnd
    rw [State.port_begin, sending]
    dsimp only
    rw [startTest_of_none_unsent (by rw [State.port_updPort_same]; exact none)]
    rfl
  · refine congrArg (fun t => Host.Outcome.next (checkDrains t)) ?_
    unfold transmissionEnd
    rw [State.port_begin, idle]
    rfl

end Sys2Proof.Machine
end

section
/-! POWER_ON: the values of the initial tables, entry by entry. -/

namespace Sys2Proof.Machine

/-! ### The initial tables -/

/-- The thresholds of R154's table, channel by channel. -/
theorem channel_initial : ∀ c : Channel, ChannelRecord.initial c = {
    last := none, inScan := true, hysteresis := 4, warning := none, critical := none
    critLow := if c = 12 then some 420 else if c = 13 then some 430 else none
    warnLow := if c = 12 ∨ c = 13 then some 460 else none
    warnHigh := if c = 14 then some 460 else if c = 15 then some 540 else none
    critHigh := if c = 14 then some 520 else if c = 15 then some 600 else none } := by
  decide

/-- The catalogue of points, in which TIMING_FREERUN alone has been raised (R164). -/
theorem point_initial (inputs : Table 4 Bool) (id : PointId) :
    (AlarmUnit.initial inputs).points.read id = if id = freerunPoint then .freerunFirst else .initial id :=
  (Table.read_write _ _ _ _).trans (by rw [Table.read_build])

theorem slot_initial (lines : PerSlot SlotLines) (n : Slot) :
    (SlotController.initial lines).slot.read n = SlotRecord.initial (lines.read n) := Table.read_mapAll ..

theorem input_initial (inputs : Table 4 Bool) (i : Fin 4) :
    (AlarmUnit.initial inputs).inputs.read i = ExtInput.initial (inputs.read i) := Table.read_mapAll ..

theorem groupMembers_of_none {s : State} {g : Fin 16} (none : s.fwd.groups.read g = Table.fill false) :
    s.groupMembers g = [] := by
  unfold State.groupMembers
  rw [none]
  simp

/-- Settles O3: the value of every field of the power-on state. -/
theorem powerOnInitialValues : Obligations.PowerOnInitialValues := by
  intro s
  refine ⟨_, rfl, rfl, rfl, rfl, fun p => Table.read_fill _ p, fun f => Table.read_fill _ f,
    fun g => groupMembers_of_none (Table.read_fill _ g), rfl, rfl, fun n => Table.read_fill _ n,
    fun n => ⟨Table.read_fill _ n, Table.read_fill _ n⟩, rfl, rfl, rfl,
    fun p => ⟨Table.read_fill _ p, Table.read_fill _ p⟩, rfl, rfl, rfl, rfl, rfl, fun n => Table.read_fill _ n,
    rfl, rfl, rfl, rfl, fun n => ?_, rfl, rfl, rfl, rfl, rfl, rfl, rfl, rfl, rfl, rfl,
    fun n => ⟨Table.read_fill _ n, Table.read_fill _ n⟩, rfl, rfl, rfl, rfl, rfl, rfl, rfl,
    fun n => Table.read_fill _ n, fun c => ?_, fun id => ?_, rfl, rfl, rfl, rfl, rfl, rfl, rfl,
    fun n => Table.read_fill _ n, rfl, fun i => ?_, rfl⟩
  · exact (slot_initial _ n).trans (by rw [Table.read_mapAll]; rfl)
  · exact (Table.read_build _ c).trans (channel_initial c)
  · refine (point_initial _ id).trans ?_
    revert id
    decide
  · exact (input_initial _ i).trans (by rw [Table.read_mapAll]; rfl)

end Sys2Proof.Machine
end

section
/-! SUPPORT. What the operations of the hub leave of a slot and a port that they are not about: the three relations
`Aside`, `Away` and `Calm`, said once for each operation. -/

namespace Sys2Proof.Machine

variable {mv : Bool}

/-! ### The relations -/

/-- Between two states one slot and its port stood aside: the slot's record stood, the port moved in its transmission and
its pause alone, and a drain of the slot that could not end still cannot. -/
structure Aside (mv : Bool) (n : Slot) (s t : State) : Prop where
  slot : t.slot n = s.slot n
  port : t.port n = { s.port n with
    transmission := (t.port n).transmission, pauseAsserted := (t.port n).pauseAsserted }
  idle : (s.port n).link ≠ .up → (t.port n).transmission = (s.port n).transmission
  hold : (t.sq n).hold = (s.sq n).hold
  holdTimer : (t.sq n).holdTimer = (s.sq n).holdTimer
  stallCount : (t.sq n).stallCount = (s.sq n).stallCount
  empty : (s.slot n).state.isUp = false → (s.sq n).queues = .empty → (t.sq n).queues = .empty
  busy : s.egressEmpty n = false → t.egressEmpty n = false
  stays : s.EgressStays n → t.EgressStays n
  pause : mv = false → (t.port n).pauseAsserted = (s.port n).pauseAsserted ∧ (t.sq n).paused = (s.sq n).paused
  synced : (s.port n).pauseAsserted = (s.sq n).paused → (t.port n).pauseAsserted = (t.sq n).paused
  out : s.out <+: t.out
  told : (s.port n).link = .up → (t.port n).pauseAsserted = (s.port n).pauseAsserted ∨
    .symbol n (if (t.port n).pauseAsserted then .pauseOn else .pauseOff) ∈ t.out

/-- What the agent holds for a slot only shrank, and no request left the queue. -/
structure AgentKept (n : Slot) (s t : State) : Prop where
  queue : t.agent.queue = s.agent.queue
  inflight : ∀ f ∈ t.agent.inflight, f ∈ s.agent.inflight
  responses : (∀ f ∈ s.agent.inflight, f.requester ≠ n) →
    ∀ r ∈ t.agent.responses, r.dest = n → r ∈ s.agent.responses

/-- A slot stood aside, with what the agent holds for it. -/
structure Away (mv : Bool) (n : Slot) (s t : State) : Prop extends Aside mv n s t where
  agent : AgentKept n s t

/-- With no alarm wait outstanding none became so, and the agent and its entry in the reserve waiting list stood. -/
structure Quiet (s t : State) : Prop where
  waits : s.alarm.waits = [] → t.alarm.waits = []
  agent : s.alarm.waits = [] → t.agent = s.agent
  entry : s.alarm.waits = [] → (.agent ∈ t.qm.waiting ↔ .agent ∈ s.qm.waiting)

/-- A slot stood aside, and where no alarm wait was outstanding so did the whole agent. -/
structure Calm (mv : Bool) (n : Slot) (s t : State) : Prop extends Away mv n s t where
  quiet : Quiet s t

section
variable {n : Slot} {s t u : State}

theorem Aside.refl (n : Slot) (s : State) : Aside mv n s s :=
  ⟨rfl, rfl, fun _ => rfl, rfl, rfl, rfl, fun _ h => h, id, id, fun _ => ⟨rfl, rfl⟩, id, List.prefix_refl _,
    fun _ => .inl rfl⟩

theorem Aside.link (h : Aside mv n s t) : (t.port n).link = (s.port n).link := by rw [h.port]

theorem Aside.trans (h : Aside mv n s t) (k : Aside mv n t u) : Aside mv n s u where
  slot := k.slot.trans h.slot
  port := by rw [k.port, h.port]
  idle down := (k.idle (h.link ▸ down)).trans (h.idle down)
  hold := k.hold.trans h.hold
  holdTimer := k.holdTimer.trans h.holdTimer
  stallCount := k.stallCount.trans h.stallCount
  empty off none := k.empty (h.slot ▸ off) (h.empty off none)
  busy some := k.busy (h.busy some)
  stays some := k.stays (h.stays some)
  pause still := ⟨(k.pause still).1.trans (h.pause still).1, (k.pause still).2.trans (h.pause still).2⟩
  synced same := k.synced (h.synced same)
  out := h.out.trans k.out
  told up := by
    rcases k.told (h.link ▸ up) with same | told
    · rw [same]
      exact (h.told up).imp_right fun told => k.out.subset told
    · exact .inr told

theorem AgentKept.of_eq (h : t.agent = s.agent) : AgentKept n s t :=
  ⟨by rw [h], fun f hf => h ▸ hf, fun _ r hr _ => h ▸ hr⟩

theorem AgentKept.trans (h : AgentKept n s t) (k : AgentKept n t u) : AgentKept n s u where
  queue := k.queue.trans h.queue
  inflight f hf := h.inflight f (k.inflight f hf)
  responses none r hr dest := h.responses none r (k.responses (fun f hf => none f (h.inflight f hf)) r hr dest) dest

theorem Quiet.trans (h : Quiet s t) (k : Quiet t u) : Quiet s u where
  waits none := k.waits (h.waits none)
  agent none := (k.agent (h.waits none)).trans (h.agent none)
  entry none := (k.entry (h.waits none)).trans (h.entry none)

theorem Quiet.of_eq (alarm : t.alarm.waits = s.alarm.waits) (agent : t.agent = s.agent)
    (waiting : t.qm.waiting = s.qm.waiting) : Quiet s t :=
  ⟨fun none => alarm.trans none, fun _ => agent, fun _ => by rw [waiting]⟩

theorem Away.refl (n : Slot) (s : State) : Away mv n s s := ⟨.refl n s, .of_eq rfl⟩

theorem Away.trans (h : Away mv n s t) (k : Away mv n t u) : Away mv n s u :=
  ⟨h.toAside.trans k.toAside, h.agent.trans k.agent⟩

theorem Calm.refl (n : Slot) (s : State) : Calm mv n s s := ⟨.refl n s, .of_eq rfl rfl rfl⟩

theorem Calm.trans (h : Calm mv n s t) (k : Calm mv n t u) : Calm mv n s u := ⟨h.toAway.trans k.toAway, h.quiet.trans k.quiet⟩

theorem Calm.forEach {α : Type} {f : α → State → State} (h : ∀ a v, Calm mv n v (f a v)) (xs : List α) (v : State) :
    Calm mv n v (forEach xs f v) := by
  unfold Sys2Proof.Machine.forEach
  induction xs generalizing v with
  | nil => exact .refl n v
  | cons x xs ih => exact (h x v).trans (ih _)

end

/-! ### Ways into the relations -/

/-- What is not a TIME_MARK does not become one. -/
def MarksKept (s t : State) : Prop := ∀ id, s.isMark id = false → t.isMark id = false

theorem MarksKept.of_frames {s t : State} (h : t.qm.frames = s.qm.frames) : MarksKept s t := fun j => by
  unfold State.isMark State.frame?
  rw [h]
  exact fun h => h

theorem MarksKept.trans {s t u : State} (h : MarksKept s t) (k : MarksKept t u) : MarksKept s u :=
  fun id mark => k id (h id mark)

/-- A slot whose record, port and queues stood has stood aside. -/
theorem Aside.of_same {n : Slot} {s t : State} (slot : t.slot n = s.slot n) (port : t.port n = s.port n)
    (sq : t.sq n = { s.sq n with egress := (t.sq n).egress }) (marks : MarksKept s t)
    (out : s.out <+: t.out) : Aside mv n s t where
  slot := slot
  port := by rw [port]
  idle _ := by rw [port]
  hold := by rw [sq]
  holdTimer := by rw [sq]
  stallCount := by rw [sq]
  empty _ none := by rw [sq]; exact none
  busy some := by unfold State.egressEmpty at some ⊢; rw [port, sq]; exact some
  stays some := by
    unfold State.EgressStays at some ⊢
    dsimp only at some ⊢
    rw [port, sq]
    exact some.imp_right (.imp_right fun ⟨id, mem, mark⟩ => ⟨id, mem, marks id mark⟩)
  pause _ := ⟨by rw [port], by rw [sq]⟩
  synced same := by rw [port, sq]; exact same
  out := out
  told _ := .inl (by rw [port])

/-- A slot stood aside where nothing but pauses moved, each told to its port. -/
theorem Aside.of_moves {n : Slot} {s t : State} (moves : PausesMove s t) (slots : t.slots = s.slots)
    (marks : MarksKept s t) (out : s.out <+: t.out)
    (synced : (s.port n).pauseAsserted = (s.sq n).paused → (t.port n).pauseAsserted = (t.sq n).paused)
    (told : (s.port n).link = .up → (t.port n).pauseAsserted = (s.port n).pauseAsserted ∨
      .symbol n (if (t.port n).pauseAsserted then .pauseOn else .pauseOff) ∈ t.out) : Aside true n s t where
  slot := by unfold State.slot; rw [slots]
  port := by rw [moves.port n]
  idle _ := by rw [moves.port n]
  hold := by rw [moves.sq n]
  holdTimer := by rw [moves.sq n]
  stallCount := by rw [moves.sq n]
  empty _ none := by rw [moves.sq n]; exact none
  busy some := by unfold State.egressEmpty at some ⊢; rw [moves.port n, moves.sq n]; exact some
  stays some := by
    unfold State.EgressStays at some ⊢
    dsimp only at some ⊢
    rw [moves.port n, moves.sq n]
    exact some.imp_right (.imp_right fun ⟨id, mem, mark⟩ => ⟨id, mem, marks id mark⟩)
  pause still := by cases still
  synced := synced
  out := out
  told := told

theorem Aside.calm {n : Slot} {s t : State} {ps : List Part} (h : Aside mv n s t) (only : OnlyChanges ps s t)
    (apart : ([.alarm, .agent].all fun p : Part => !ps.contains p) = true)
    (waiting : t.qm.waiting = s.qm.waiting) : Calm mv n s t := by
  have alarm : t.alarm = s.alarm := only.same .alarm (by simpa using List.all_eq_true.1 apart .alarm (by decide))
  have agent : t.agent = s.agent := only.same .agent (by simpa using List.all_eq_true.1 apart .agent (by decide))
  exact ⟨⟨h, .of_eq agent⟩, .of_eq (by rw [alarm]) agent waiting⟩

/-- A change of other blocks than the ports, the queue manager and the slot controller. -/
theorem Aside.of_changes {ps : List Part} {s t : State} (only : OnlyChanges ps s t)
    (apart : ([.ports, .qm, .slots, .out].all fun p : Part => !ps.contains p) = true) (n : Slot) : Aside mv n s t := by
  have same (p : Part) (hp : p ∈ [Part.ports, .qm, .slots, .out]) : p.Same s t :=
    only.same p (by simpa using List.all_eq_true.1 apart p hp)
  have ports : t.ports = s.ports := same .ports (by decide)
  have qm : t.qm = s.qm := same .qm (by decide)
  have slots : t.slots = s.slots := same .slots (by decide)
  have out : t.out = s.out := same .out (by decide)
  exact .of_same (by unfold State.slot; rw [slots]) (by unfold State.port; rw [ports]) (by unfold State.sq; rw [qm])
    (.of_frames (by rw [qm])) (out ▸ List.prefix_refl _)

/-- A change of none of the parts that the relations speak of. -/
theorem Calm.of_changes {ps : List Part} {s t : State} (only : OnlyChanges ps s t)
    (apart : ([.ports, .qm, .slots, .out, .alarm, .agent].all fun p : Part => !ps.contains p) = true) (n : Slot) :
    Calm mv n s t := by
  have fewer (qs : List Part) (sub : ∀ p ∈ qs, p ∈ [Part.ports, .qm, .slots, .out, .alarm, .agent]) :
      (qs.all fun p : Part => !ps.contains p) = true :=
    List.all_eq_true.2 fun p hp => List.all_eq_true.1 apart p (sub p hp)
  refine (Aside.of_changes only (fewer _ (by decide)) n).calm only (fewer _ (by decide)) ?_
  rw [show t.qm = s.qm from only.same .qm (by simpa using List.all_eq_true.1 apart .qm (by decide))]

/-- A change of the alarm unit that makes no wait. -/
theorem Calm.updAlarm (n : Slot) {f : AlarmUnit → AlarmUnit} {s : State}
    (waits : s.alarm.waits = [] → (f s.alarm).waits = []) : Calm mv n s (s.updAlarm f) :=
  ⟨⟨.of_changes (updAlarm_changes f s) rfl n, .of_eq rfl⟩, ⟨waits, fun _ => rfl, fun _ => .rfl⟩⟩

theorem Calm.updSq_ne {n m : Slot} (h : n ≠ m) (f : SlotQueues → SlotQueues) (s : State) : Calm mv n s (s.updSq m f) :=
  (Aside.of_same (s := s) (t := s.updSq m f) rfl rfl (by rw [State.sq_updSq_ne _ _ _ h]) (.of_frames rfl)
    (List.prefix_refl _)).calm (updSq_changes m f s)
    rfl rfl

/-- A change of a slot's queue manager record that leaves its queues and its hold. -/
theorem Calm.updSq_counted (n m : Slot) {f : SlotQueues → SlotQueues}
    (h : ∀ q, f q = { q with egress := (f q).egress }) (s : State) : Calm mv n s (s.updSq m f) := by
  by_cases hn : n = m
  · subst hn
    refine Aside.calm (.of_same rfl rfl ?_ (.of_frames rfl) (List.prefix_refl _)) (updSq_changes n f s) rfl rfl
    rw [State.sq_updSq_same]
    exact h _
  · exact .updSq_ne hn f s

theorem Calm.updPort_ne {n m : Slot} (h : n ≠ m) (f : Port → Port) (s : State) : Calm mv n s (s.updPort m f) :=
  (Aside.of_same (s := s) (t := s.updPort m f) rfl (State.port_updPort_ne _ _ _ h) rfl (.of_frames rfl) (List.prefix_refl _)).calm
    (updPort_changes m f s) rfl rfl

theorem Calm.updSlot_ne {n m : Slot} (h : n ≠ m) (f : SlotRecord → SlotRecord) (s : State) :
    Calm mv n s (s.updSlot m f) :=
  (Aside.of_same (State.slot_updSlot_ne _ _ _ h) rfl rfl (.of_frames rfl) (List.prefix_refl _)).calm
    (updSlot_changes m f s) rfl rfl

theorem Calm.emit (n : Slot) (o : Output) (s : State) : Calm mv n s (s.emit o) :=
  (Aside.of_same (s := s) (t := s.emit o) rfl rfl rfl (.of_frames rfl) (List.prefix_append _ _)).calm (emit_changes o s) rfl rfl

/-! ### The queue manager and the arbiter -/

theorem setPaused_calm (n m : Slot) (b : Bool) (s : State) : Calm true n s (setPaused m b s) := by
  have changes := setPaused_changes m b s
  have moves := setPaused_moves m b s
  refine Aside.calm (.of_moves moves (changes.same .slots rfl) (.of_frames ?_) ?_ (fun same => ?_) fun up => ?_) changes rfl
    moves.waiting
  · rw [setPaused_eq]
  · rw [setPaused_eq]
    exact List.prefix_append _ _
  · by_cases hn : n = m
    · subst hn
      rw [setPaused_eq]
      unfold State.port State.sq State.portTold
      dsimp only
      rw [Table.read_write_same, Table.read_write_same]
      split
      · next kept => rw [kept]; exact same
      · rfl
    · rw [setPaused_eq]
      unfold State.port State.sq
      rw [Table.read_write_ne _ _ hn, Table.read_write_ne _ _ hn]
      exact same
  · by_cases hn : n = m
    · subst hn
      rw [setPaused_eq]
      unfold State.port State.portTold State.symbolsTold
      dsimp only
      rw [Table.read_write_same]
      by_cases same : b = (s.sq n).paused
      · simp [same, State.port]
      · by_cases asserted : b = (s.port n).pauseAsserted
        · simp [asserted, State.port]
        · simp [same, asserted, up]
    · rw [setPaused_eq]
      exact .inl (by unfold State.port; rw [Table.read_write_ne _ _ hn])

theorem reexaminePause_calm (n m : Slot) (s : State) : Calm true n s (reexaminePause m s) := by
  rw [reexaminePause_eq]
  exact setPaused_calm n m _ s

/-- A frame that is freed, and one with another reference count, leave what is not a TIME_MARK what it is. -/
theorem MarksKept.freed (id : Nat) (s : State) :
    MarksKept s { s with qm := { s.qm with frames := s.qm.frames.filter fun g => g.id != id } } := fun j mark => by
  unfold State.isMark State.frame? at mark ⊢
  dsimp only
  rw [frame?_filter]
  by_cases h : j = id
  · rw [if_pos h]; rfl
  · rw [if_neg h]; exact mark

theorem MarksKept.updFrame (id : Nat) {f : StoredFrame → StoredFrame} (ids : ∀ g, (f g).id = g.id)
    (bodies : ∀ g, (f g).body = g.body) (s : State) : MarksKept s (updFrame id f s) := fun j mark => by
  unfold State.isMark at mark ⊢
  rw [frame?_updFrame id j f ids]
  by_cases h : j = id
  · rw [if_pos h, Option.map_map, show StoredFrame.body ∘ f = StoredFrame.body from funext bodies]
    exact mark
  · rw [if_neg h]; exact mark

theorem freeFrame_calm (n : Slot) (f : StoredFrame) (s : State) : Calm true n s (freeFrame f s) := by
  have freed : Calm true n s { s with qm := { s.qm with frames := s.qm.frames.filter fun g => g.id != f.id } } := by
    refine Aside.calm ?_ (with_qm_changes s _) rfl rfl
    exact .of_same rfl rfl rfl (.freed f.id s) (List.prefix_refl _)
  unfold freeFrame
  split
  · dsimp only
    split
    · exact freed
    · exact freed.trans (reexaminePause_calm ..)
  · exact freed

theorem release_calm (n : Slot) (id : Nat) (s : State) : Calm true n s (release id s) := by
  unfold release
  split
  · split
    · exact freeFrame_calm ..
    · refine Aside.calm ?_ (updFrame_changes _ _ s) rfl rfl
      exact .of_same rfl rfl rfl (MarksKept.updFrame id (f := fun g => { g with refs := g.refs - 1 }) (fun _ => rfl)
        (fun _ => rfl) s) (List.prefix_refl _)
  · exact .refl n s

theorem discardCopy_calm (n m : Slot) (id : Nat) (s : State) : Calm true n s (discardCopy m id s) :=
  (Calm.updSq_counted n m (fun _ => rfl) s).trans (release_calm n id _)

/-- The flush of another port. -/
theorem flushAll_calm {n m : Slot} (h : n ≠ m) (s : State) : Calm true n s (flushAll m s) :=
  (Calm.updSq_ne h _ s).trans (.forEach (discardCopy_calm n m) _ _)

/-- A decision leaves the port as it is, or starts the head of one of its queues. -/
theorem arbitrate_cases (p : Slot) (s : State) : arbitrate p s = s ∨
    ∃ (c : FrameClass) (id : Nat) (rest : List Nat) (f : StoredFrame), s.portFree p = true ∧
      (s.sq p).queues.ofClass c = id :: rest ∧ Starts p c id f s (arbitrate p s) := by
  cases decided : decision s p with
  | none => exact .inl (arbitrate_idle decided)
  | some c =>
    rw [arbitrate_starts decided]
    have free : s.portFree p = true := by
      by_contra busy
      rw [decision, Bool.eq_false_iff.2 busy] at decided
      cases decided
    cases head : (s.sq p).queues.ofClass c with
    | nil =>
      unfold startFrame
      rw [head]
      exact .inl rfl
    | cons id rest =>
      cases frame : s.frame? id with
      | none =>
        unfold startFrame
        rw [head]
        dsimp only
        rw [frame]
        exact .inl rfl
      | some f => exact .inr ⟨c, id, rest, f, free, head, startFrame_starts (by rw [head]; rfl) frame⟩

theorem arbitrate_calm (n m : Slot) (s : State) : Calm mv n s (arbitrate m s) := by
  rcases arbitrate_cases m s with same | ⟨c, id, rest, f, free, head, port, others, qm, out, -, -, only⟩
  · rw [same]
    exact .refl n s
  · have up := ((portFree_iff s m).1 free).1
    have slot : (arbitrate m s).slot n = s.slot n := by
      unfold State.slot; rw [show (arbitrate m s).slots = s.slots from only.same .slots rfl]
    have outs : s.out <+: (arbitrate m s).out := out ▸ List.prefix_append _ _
    have marks : MarksKept s (arbitrate m s) := .of_frames (by rw [qm])
    refine Aside.calm ?_ only rfl (by rw [qm])
    by_cases hn : n = m
    · subst hn
      have sq : (arbitrate n s).sq n = { s.sq n with
          queues := (s.sq n).queues.setClass c ((s.sq n).queues.ofClass c).tail } := by
        unfold State.sq
        rw [qm]
        exact Table.read_write_same _ _ _
      exact {
        slot := slot
        port := by rw [port]
        idle := fun down => absurd up down
        hold := by rw [sq]
        holdTimer := by rw [sq]
        stallCount := by rw [sq]
        empty := fun _ none => by rw [none] at head; cases c <;> cases head
        busy := fun _ => by simp [State.egressEmpty, port]
        stays := fun _ => .inl (by rw [port]; simp)
        pause := fun _ => ⟨by rw [port], by rw [sq]⟩
        synced := fun same => by rw [port, sq]; exact same
        out := outs
        told := fun _ => .inl (by rw [port]) }
    · refine .of_same slot (others n hn) ?_ marks outs
      unfold State.sq
      rw [qm, Table.read_write_ne _ _ hn]

theorem joinWaiting_agent (m : Maker) (other : m ≠ .agent) (s : State) :
    .agent ∈ (joinWaiting m s).qm.waiting ↔ .agent ∈ s.qm.waiting := by
  unfold joinWaiting
  split
  · exact .rfl
  · simp [other.symm]

theorem joinWaiting_aside (n : Slot) (m : Maker) (s : State) : Aside mv n s (joinWaiting m s) := by
  unfold joinWaiting
  split
  · exact .refl n s
  · exact .of_same rfl rfl rfl (.of_frames rfl) (List.prefix_refl _)

theorem withdrawMaker_aside (n : Slot) (m : Maker) (s : State) : Aside mv n s (withdrawMaker m s) :=
  .of_same rfl rfl rfl (.of_frames rfl) (List.prefix_refl _)

/-- A CONTROL frame of the hub is stored for the queue of an up slot. -/
theorem storeFrame_aside (n : Slot) {h : HubFrame} (cls : h.kind.cls = .control) {s : State} (up : s.isUp h.dest = true)
    (cells : Nat) : Aside mv n s (storeFrame (.hub h) h.kind.cls cells [h.dest] s) := by
  have marks : MarksKept s (storeFrame (.hub h) h.kind.cls cells [h.dest] s) := fun j mark => by
    unfold State.isMark State.frame? at mark ⊢
    rw [show (storeFrame (.hub h) h.kind.cls cells [h.dest] s).qm.frames =
      s.qm.frames ++ [⟨s.qm.nextFrame, .hub h, h.kind.cls, cells, 1⟩] from rfl, List.find?_append]
    cases found : s.qm.frames.find? (·.id == j) with
    | some f =>
      rw [found] at mark
      exact mark
    | none =>
      by_cases new : s.qm.nextFrame = j
      · simp only [List.find?_cons, new, beq_self_eq_true, Option.none_or, Option.map_some]
        revert cls
        cases h.kind <;> simp [HubKind.cls]
      · simp [new]
  by_cases hn : n = h.dest
  · subst hn
    have sq : (storeFrame (.hub h) h.kind.cls cells [h.dest] s).sq h.dest = { s.sq h.dest with
        queues := { (s.sq h.dest).queues with control := (s.sq h.dest).queues.control ++ [s.qm.nextFrame] } } := by
      rw [cls]
      exact Table.read_write_same _ _ _
    exact {
      slot := rfl
      port := rfl
      idle := fun _ => rfl
      hold := by rw [sq]
      holdTimer := by rw [sq]
      stallCount := by rw [sq]
      empty := fun off => absurd up (by unfold State.isUp; rw [off]; simp)
      busy := fun _ => by simp [State.egressEmpty, Queues.isEmpty, sq]
      stays := fun _ => by simp [State.EgressStays, sq]
      pause := fun _ => ⟨rfl, by rw [sq]⟩
      synced := fun same => by rw [sq]; exact same
      out := List.prefix_refl _
      told := fun _ => .inl rfl }
  · exact .of_same rfl rfl (by
      rw [show (storeFrame (.hub h) h.kind.cls cells [h.dest] s).sq n = s.sq n from Table.read_write_ne _ _ hn]) marks
      (List.prefix_refl _)

theorem admitHub_aside (n : Slot) {h : HubFrame} (cls : h.kind.cls = .control) {s : State} (up : s.isUp h.dest = true) :
    Aside mv n s (admitHub h s) :=
  (storeFrame_aside n cls up _).trans (arbitrate_calm n _ _).toAside

/-! ### The agent -/

theorem sendResponse_aside (n : Slot) (r : Response) (s : State) : Aside mv n s (sendResponse r s) := by
  unfold sendResponse
  split
  · next admissible =>
    have up : s.isUp r.dest = true := by
      unfold hubAdmissible at admissible
      exact (Bool.and_eq_true_iff.1 admissible).1
    refine (Aside.of_changes (updAgent_changes _ s) rfl n).trans (admitHub_aside n rfl ?_)
    exact up
  · exact (Calm.updSq_counted n _ (fun _ => rfl) s).toAside

theorem sendResponse_agent (r : Response) (s : State) :
    (sendResponse r s).agent.queue = s.agent.queue ∧ (sendResponse r s).agent.inflight = s.agent.inflight ∧
      (sendResponse r s).agent.responses = s.agent.responses := by
  unfold sendResponse
  split
  · rw [show (admitHub r.frame _).agent = _ from (admitHub_changes r.frame _).same .agent rfl]
    exact ⟨rfl, rfl, rfl⟩
  · exact ⟨rfl, rfl, rfl⟩

theorem makeResponse_aside (n : Slot) (kind : ResponseKind) (dest : Slot) (seq : Byte) (payload : List Byte) (s : State) :
    Aside mv n s (makeResponse kind dest seq payload s) := by
  rcases makeResponse_cases kind dest seq payload s with h | ⟨-, h⟩ | h <;> rw [h]
  · exact sendResponse_aside ..
  · exact .of_changes (updAgent_changes _ s) rfl n
  · exact (Aside.of_changes (updAgent_changes _ s) rfl n).trans (joinWaiting_aside ..)

/-- A response that is made joins the response list at most, and nothing else of what the agent holds moves. -/
theorem makeResponse_agent (kind : ResponseKind) (dest : Slot) (seq : Byte) (payload : List Byte) (s : State) :
    (makeResponse kind dest seq payload s).agent.queue = s.agent.queue ∧
      (makeResponse kind dest seq payload s).agent.inflight = s.agent.inflight ∧
      ∀ r ∈ (makeResponse kind dest seq payload s).agent.responses, r ∈ s.agent.responses ∨ r.dest = dest := by
  rcases makeResponse_cases kind dest seq payload s with h | ⟨-, h⟩ | h <;> rw [h]
  · obtain ⟨queue, inflight, responses⟩ := sendResponse_agent ⟨kind, dest, seq, payload, s.hubNow⟩ s
    exact ⟨queue, inflight, fun r hr => .inl (responses ▸ hr)⟩
  · exact ⟨rfl, rfl, fun r hr => .inl hr⟩
  · rw [show (joinWaiting .agent _).agent = _ from (joinWaiting_changes .agent _).same .agent rfl]
    exact ⟨rfl, rfl, fun r hr => by simpa using (List.mem_append.1 hr).imp_right fun h => (List.mem_singleton.1 h) ▸ rfl⟩

theorem complete_away (n : Slot) (record : Nat) (status : Status) (results : List Byte) (s : State) :
    Away mv n s (complete record status results s) := by
  unfold complete
  split
  · next f found =>
    obtain ⟨queue, inflight, responses⟩ := makeResponse_agent .completion f.requester f.seq
      (answerPayload f.kind.code f.tag status results)
      (s.updAgent fun a => { a with inflight := a.inflight.filter (·.record != record) })
    refine ⟨(Aside.of_changes (updAgent_changes _ s) rfl n).trans (makeResponse_aside ..), queue, fun g hg => ?_,
      fun none r hr dest => ?_⟩
    · rw [inflight] at hg
      exact List.mem_of_mem_filter hg
    · exact (responses r hr).resolve_right fun own =>
        none f (List.mem_of_find?_eq_some found) (own.symm.trans dest)
  · exact .refl n s

/-! ### The alarm unit -/

theorem setRelays_calm (n : Slot) (s : State) : Calm mv n s (setRelays s) := .updAlarm n fun none => none

theorem movePoint_calm (n : Slot) (id : PointId) (new : Point) (s : State) : Calm mv n s (movePoint id new s) :=
  (Calm.updAlarm n fun none => none).trans (setRelays_calm ..)

theorem pendNotice_calm (n : Slot) (x : Notice) (s : State) : Calm mv n s (pendNotice x s) :=
  .updAlarm n fun none => by split <;> exact none

theorem deliver_away (n : Slot) (ws : List Wait) (ns : List Notice) (s : State) : Away mv n s (deliver ws ns s) := by
  induction ws generalizing ns s with
  | nil => exact (Calm.forEach (pendNotice_calm n) ns s).toAway
  | cons w ws ih =>
    unfold deliver
    split
    · exact .refl n s
    · exact ((Calm.updAlarm n fun none => by rw [none]; rfl).toAway.trans (complete_away ..)).trans (ih ..)

theorem produce_calm (n : Slot) (bodies : List NoticeBody) (s : State) : Calm mv n s (produce bodies s) where
  toAway := (Calm.updAlarm n fun none => none).toAway.trans (deliver_away ..)
  quiet := {
    waits := fun none => (produce_of_no_waits none bodies).2
    agent := fun none => (produce_of_no_waits none bodies).1.same .agent rfl
    entry := fun none => by
      rw [show (produce bodies s).qm = s.qm from (produce_of_no_waits none bodies).1.same .qm rfl] }

theorem changePoint_calm (n : Slot) (id : PointId) (new : Point) (s : State) : Calm mv n s (changePoint id new s) :=
  (movePoint_calm ..).trans (produce_calm ..)

theorem reportCondition_calm (n : Slot) (id : PointId) (b : Bool) (s : State) : Calm mv n s (reportCondition id b s) :=
  changePoint_calm ..

theorem occurPoint_calm (n : Slot) (id : PointId) (s : State) : Calm mv n s (occurPoint id s) := changePoint_calm ..

theorem samplePoint_calm (n : Slot) (id : PointId) (b : Bool) (s : State) : Calm mv n s (samplePoint id b s) :=
  changePoint_calm ..

theorem alarmTiming_calm (n : Slot) (state : TimingState) (selected : Option Source) (s : State) :
    Calm mv n s (alarmTiming state selected s) :=
  ((movePoint_calm ..).trans (movePoint_calm ..)).trans (produce_calm ..)

theorem withdrawAcks_calm (n m : Slot) (s : State) : Calm mv n s (withdrawAcks m s) := by
  have kept : Calm mv n s (s.updAlarm fun a => { a with acks := s.alarm.acks.filter (·.dest != m) }) :=
    .updAlarm n fun none => none
  have withdrawn (t : State) : Calm mv n t (withdrawMaker .alarm t) :=
    ⟨⟨withdrawMaker_aside .., .of_eq rfl⟩, ⟨id, fun _ => rfl, fun _ => by simp [withdrawMaker]⟩⟩
  have joined (t : State) : Calm mv n t (joinWaiting .alarm t) := by
    have only := joinWaiting_changes .alarm t
    have alarm : (joinWaiting .alarm t).alarm = t.alarm := only.same .alarm rfl
    have agent : (joinWaiting .alarm t).agent = t.agent := only.same .agent rfl
    exact ⟨⟨joinWaiting_aside .., .of_eq agent⟩, ⟨fun none => by rw [alarm]; exact none, fun _ => agent,
      fun _ => joinWaiting_agent .alarm (by decide) t⟩⟩
  unfold withdrawAcks
  dsimp only
  split
  · split
    · exact kept.trans (withdrawn _)
    · exact (kept.trans (withdrawn _)).trans (joined _)
  · exact kept

/-! ### The flow table and the tracker -/

theorem resuspendFlows_calm (n : Slot) (g : FlowRecord → Suspension → Suspension) (s : State) :
    Calm mv n s (resuspendFlows g s) :=
  (Calm.of_changes (with_fwd_changes s _) rfl n).trans (reportCondition_calm ..)

theorem evaluateFit_calm (n : Slot) (s : State) : Calm mv n s (evaluateFit s) := resuspendFlows_calm ..

theorem flowsSlotChange_calm (n m : Slot) (active : Bool) (s : State) : Calm mv n s (flowsSlotChange m active s) :=
  resuspendFlows_calm ..

theorem flowsTimingChange_calm (n : Slot) (old new : TimingState) (s : State) :
    Calm mv n s (flowsTimingChange old new s) := by
  unfold flowsTimingChange
  split
  · exact resuspendFlows_calm ..
  · exact .refl n s

theorem enterTiming_calm (n : Slot) (new : TimingState) (s : State) : Calm mv n s (enterTiming new s) := by
  unfold enterTiming
  dsimp only
  refine .trans ?_ (alarmTiming_calm ..)
  refine .trans ?_ (Calm.of_changes (with_delay_changes _ _) rfl n)
  refine .trans ?_ (flowsTimingChange_calm ..)
  split
  · exact (Calm.of_changes (updTrk_changes _ s) rfl n).trans (.of_changes (setFreq_changes _ _) rfl n)
  · exact .of_changes (updTrk_changes _ s) rfl n

theorem examineSelection_calm (n : Slot) (s : State) : Calm mv n s (examineSelection s) := by
  have selected (x : Option Source) : Calm mv n s (s.updTrk fun k => { k with selected := x }) :=
    .of_changes (updTrk_changes _ s) rfl n
  unfold examineSelection
  dsimp only
  split
  · exact .refl n s
  · split
    case h_5 | h_6 =>
      split <;> exact (selected _).trans (enterTiming_calm ..)
    all_goals first
      | exact selected _
      | exact (selected _).trans (enterTiming_calm ..)

theorem setSource_calm (n : Slot) (src : Source) (r : SourceRecord) (s : State) : Calm mv n s (setSource src r s) :=
  (Calm.of_changes (updSource_changes src _ s) rfl n).trans (reportCondition_calm ..)

theorem reworkProvider_calm (n : Slot) (src : Source) (s : State) : Calm mv n s (reworkProvider src s) := by
  unfold reworkProvider
  dsimp only
  split
  · exact .refl n s
  · split <;> exact setSource_calm ..

theorem reworkProviders_calm (n : Slot) (s : State) : Calm mv n s (reworkProviders s) :=
  ((reworkProvider_calm ..).trans (reworkProvider_calm ..)).trans (examineSelection_calm ..)

end Sys2Proof.Machine
end

section
/-! SUPPORT. What a slot state change does to another slot, to the slot's own port and queues, and to what the agent
holds for it. -/

namespace Sys2Proof.Machine

variable {mv : Bool}

/-! ### The reports of a slot state change -/

theorem updSq_eq_self {n : Slot} {f : SlotQueues → SlotQueues} {s : State} (h : f (s.sq n) = s.sq n) :
    s.updSq n f = s := by
  unfold State.updSq Table.update
  rw [show f (s.qm.slot.read n) = s.qm.slot.read n from h, Table.write_read]

theorem withdrawMark_calm (n m : Slot) (id : Nat) (s : State) : Calm true n s (withdrawMark m id s) :=
  (Calm.of_changes (countDelay_changes m _ s) rfl n).trans (release_calm ..)

theorem withdrawMarks_calm {n m : Slot} (other : n ≠ m) (s : State) : Calm true n s (withdrawMarks m s) :=
  ((Calm.updSq_ne other _ s).trans (.forEach (withdrawMark_calm n m) _ _)).trans (arbitrate_calm ..)

/-- Without a frame in the queues no mark is withdrawn. -/
theorem withdrawMarks_of_empty {n : Slot} {s : State} (none : (s.sq n).queues = .empty) : withdrawMarks n s = s := by
  unfold withdrawMarks
  dsimp only
  rw [none, updSq_eq_self]
  · exact arbitrate_of_empty none
  · cases hq : s.sq n
    rw [hq] at none
    simp_all [Queues.empty]

theorem abandonProbe_calm (n m : Slot) (s : State) : Calm mv n s (abandonProbe m s) :=
  .of_changes (abandonProbe_changes m s) rfl n

/-- The delay unit's part is as calm as the withdrawal of the slot's marks. -/
theorem delaySlotChange_calm {n m : Slot} {old new : SlotState} {s : State}
    (withdrawn : ∀ t : State, t.qm = s.qm → Calm mv n t (withdrawMarks m t)) :
    Calm mv n s (delaySlotChange m old new s) := by
  unfold delaySlotChange
  split
  · exact .of_changes (delayArrival_changes m s) rfl n
  · split
    · unfold delayDeparture
      split
      · have forgotten : Calm mv n s ((abandonProbe m s).updDelay m fun d =>
            { d with client := false, window := [], base := none, missRun := 0, highRun := 0, delays := none }) :=
          (abandonProbe_calm ..).trans (.of_changes (updDelay_changes m _ _) rfl n)
        exact forgotten.trans (withdrawn _ ((abandonProbe_changes m s).same .qm rfl))
      · exact .refl n s
    · exact .refl n s

theorem alarmSlotChange_calm (n m : Slot) (old new : SlotState) (reason : Option FaultReason) (s : State) :
    Calm mv n s (alarmSlotChange m old new reason s) := by
  unfold alarmSlotChange
  dsimp only
  have cancelled : Calm mv n s (if old = .active ∧ new ≠ .active ∧ isControllerSlot m = true then cancelWaits m s else s) := by
    split
    · exact .updAlarm n fun none => by rw [none]; rfl
    · exact .refl n s
  have noticed (p : Point) :=
    (cancelled.trans (movePoint_calm n (slotFaultPoint m) p _)).trans (produce_calm n [.slot m new reason] _)
  split
  · refine .trans ?_ (withdrawAcks_calm ..)
    split
    · exact noticed _
    · exact (noticed _).trans (.updAlarm n fun none => none)
  · exact noticed _

theorem flowsSlotReport_calm (n m : Slot) (old new : SlotState) (s : State) : Calm mv n s (flowsSlotReport m old new s) := by
  unfold flowsSlotReport
  split
  · exact (flowsSlotChange_calm ..).trans (evaluateFit_calm ..)
  · exact .refl n s

theorem trackerSlotChange_calm (n : Slot) (old new : SlotState) (s : State) : Calm mv n s (trackerSlotChange old new s) := by
  unfold trackerSlotChange
  split
  · exact reworkProviders_calm n s
  · exact .refl n s

theorem monitorSlotChange_calm (n m : Slot) (new : SlotState) (s : State) : Calm mv n s (monitorSlotChange m new s) :=
  .of_changes (monitorSlotChange_changes m new s) rfl n

/-- Outside an entry to EMPTY the sideband's part is the sideband's alone. -/
theorem sidebandReport_side (m : Slot) {old new : SlotState} (here : new ≠ .empty) (s : State) :
    OnlyChanges [.side] s (sidebandReport m old new s) := by
  have entered (t : State) : OnlyChanges [.side] t (sidebandSlotChange m old new t) := by
    unfold sidebandSlotChange
    dsimp only
    rw [if_neg here]
    split
    · exact joinSideband_changes _ t
    · split
      · exact removeEntries_changes _ t
      · exact .refl t
  refine .seq ?_ (entered _)
  split
  · exact sidebandDeparture_changes m s
  · exact .refl s

theorem sidebandReport_calm (n m : Slot) {old new : SlotState} (here : new ≠ .empty) (s : State) :
    Calm mv n s (sidebandReport m old new s) :=
  .of_changes (sidebandReport_side m here s) rfl n

theorem queueSlotChange_calm {n m : Slot} (h : n ≠ m) (old new : SlotState) (s : State) :
    Calm true n s (queueSlotChange m old new s) := by
  unfold queueSlotChange
  dsimp only
  have flushed : Calm true n s (if old.isUp && !new.isUp then
      (setPaused m false (flushAll m s)).updSq m fun q => { q with hold := .none, holdTimer := none } else s) := by
    split
    · exact ((flushAll_calm h s).trans (setPaused_calm ..)).trans (.updSq_ne h _ _)
    · exact .refl n s
  split
  · exact flushed.trans (.updSq_ne h _ _)
  · exact flushed

/-- The responses of another slot are withdrawn, and nothing of its requests where it was not ACTIVE. -/
theorem agentSlotChange_away {n m : Slot} {old new : SlotState} (inactive : old ≠ .active) (s : State) :
    Away mv n s (agentSlotChange m old new s) := by
  have stays : ¬ (old = .active ∧ new ≠ .active ∧ s.holdsController m = true) := fun h => inactive h.1
  unfold agentSlotChange
  rw [if_neg stays]
  dsimp only
  split
  · unfold withdrawResponses
    dsimp only
    have kept : Away mv n s (s.updAgent fun a =>
        { a with
          responses := s.agent.responses.filter (·.dest != m)
          counters := { a.counters with
            withdrawn := addCount32 a.counters.withdrawn (s.agent.responses.filter (·.dest == m)).length } }) :=
      ⟨.of_changes (updAgent_changes _ s) rfl n, ⟨rfl, fun _ => id, fun _ r hr _ => List.mem_of_mem_filter hr⟩⟩
    split
    · have withdrawn := kept.trans ⟨withdrawMaker_aside n .agent _, .of_eq rfl⟩
      split
      · exact withdrawn
      · exact withdrawn.trans ⟨joinWaiting_aside .., .of_eq ((joinWaiting_changes .agent _).same .agent rfl)⟩
    · exact kept
  · exact .refl n s

/-- The change of another slot, which was not ACTIVE and is not left empty, is none of a slot's business. -/
theorem changeSlot_away {n m : Slot} (other : n ≠ m) {new : SlotState} {reason : Option FaultReason} {s : State}
    (inactive : (s.slot m).state ≠ .active) (here : new ≠ .empty) : Away true n s (changeSlot m new reason s) := by
  unfold changeSlot
  dsimp only
  refine .trans ?_ (trackerSlotChange_calm ..).toAway
  refine .trans ?_ (monitorSlotChange_calm ..).toAway
  refine .trans ?_ (delaySlotChange_calm fun t _ => withdrawMarks_calm other t).toAway
  refine .trans ?_ (queueSlotChange_calm other ..).toAway
  refine .trans ?_ (flowsSlotReport_calm ..).toAway
  refine .trans ?_ (sidebandReport_calm n m here _).toAway
  refine .trans ?_ (alarmSlotChange_calm ..).toAway
  exact (Calm.updSlot_ne other _ s).toAway.trans (agentSlotChange_away inactive _)

/-! ### The ports of other slots -/

theorem setReportedWidth_calm {n m : Slot} (other : n ≠ m) (w : Option Width) (s : State) :
    Calm mv n s (setReportedWidth m w s) := by
  unfold setReportedWidth
  split
  · exact .refl n s
  · exact ((Calm.updPort_ne other _ s).trans (.updSlot_ne other _ _)).trans (evaluateFit_calm ..)

theorem cutTransmission_calm {n m : Slot} (other : n ≠ m) (s : State) : Calm true n s (cutTransmission m s) := by
  unfold cutTransmission
  dsimp only
  split
  · exact ((Calm.updPort_ne other _ s).trans (.updSq_counted n m (fun _ => rfl) _)).trans (release_calm ..)
  · exact .updPort_ne other _ s
  · exact .refl n s

theorem withdrawTest_calm (n m : Slot) (s : State) : Calm mv n s (withdrawMaker (.test m) s) :=
  ⟨⟨withdrawMaker_aside .., .of_eq rfl⟩, ⟨id, fun _ => rfl, fun _ => by simp [withdrawMaker]⟩⟩

theorem discardAssembly_calm {n m : Slot} (other : n ≠ m) (s : State) : Calm true n s (discardAssembly m s) := by
  unfold discardAssembly
  split
  · dsimp only
    split
    · exact .updPort_ne other _ s
    · exact (Calm.updPort_ne other _ s).trans (reexaminePause_calm ..)
  · exact .refl n s

theorem stopPort_calm {n m : Slot} (other : n ≠ m) (link : LinkState) (s : State) : Calm true n s (stopPort m link s) := by
  unfold stopPort dropTests
  dsimp only
  refine .trans ?_ (setReportedWidth_calm other ..)
  refine .trans ?_ (.updPort_ne other _ _)
  refine .trans ?_ (discardAssembly_calm other _)
  refine .trans ?_ (withdrawTest_calm n m _)
  refine .trans ?_ (.updPort_ne other _ _)
  exact (Calm.updPort_ne other _ s).trans (cutTransmission_calm other _)

theorem bringUp_calm {n m : Slot} (other : n ≠ m) (s : State) : Calm true n s (bringUp m s) :=
  ((stopPort_calm other ..).trans (.updPort_ne other _ _)).trans (.updPort_ne other _ _)

theorem with_slots_calm {n : Slot} {s : State} {x : SlotController} (same : x.slot.read n = s.slot n) :
    Calm mv n s { s with slots := x } :=
  ⟨⟨.of_same same rfl rfl (.of_frames rfl) (List.prefix_refl _), .of_eq rfl⟩, .of_eq rfl rfl rfl⟩

theorem leavePower_calm {n m : Slot} (other : n ≠ m) (s : State) : Calm true n s (leavePower m s) := by
  have released (t : State) : Calm true n t (releasePower m t) :=
    (Calm.updSlot_ne other _ t).trans (with_slots_calm rfl)
  unfold leavePower
  split
  · exact released s
  all_goals first
    | exact .refl n s
    | exact (stopPort_calm other ..).trans (released _)

/-! ### The slot controller's record beside a slot's own change -/

theorem setReportedWidth_slots (p : Slot) (w : Option Width) (s : State) :
    (setReportedWidth p w s).slots = if (s.port p).reportedWidth = w then s.slots else
      { s.slots with slot := s.slots.slot.write p { s.slot p with width := w } } := by
  unfold setReportedWidth
  split
  · rfl
  · rw [(evaluateFit_changes _).same .slots rfl]
    rfl

/-- A change of the reported width reaches the port's reported width, and of the rest of it what a notice moves. -/
theorem setReportedWidth_port (p : Slot) (w : Option Width) (s : State) :
    (setReportedWidth p w s).port p = { s.port p with
      reportedWidth := w, transmission := ((setReportedWidth p w s).port p).transmission } := by
  unfold setReportedWidth
  split
  · next same => rw [← same]
  · have calm : Calm false p _ _ := evaluateFit_calm p ((s.updPort p fun q => { q with reportedWidth := w }).updSlot p
      fun r => { r with width := w })
    rw [calm.port, (calm.pause rfl).1, State.port_updSlot, State.port_updPort_same]

theorem setReportedWidth_idle {p : Slot} (w : Option Width) {s : State} (down : (s.port p).link ≠ .up) :
    ((setReportedWidth p w s).port p).transmission = (s.port p).transmission := by
  unfold setReportedWidth
  split
  · rfl
  · have calm : Calm false p _ _ := evaluateFit_calm p ((s.updPort p fun q => { q with reportedWidth := w }).updSlot p
      fun r => { r with width := w })
    rw [calm.idle, State.port_updSlot, State.port_updPort_same]
    rw [State.port_updSlot, State.port_updPort_same]
    exact down

theorem setReportedWidth_paused (p : Slot) (w : Option Width) (s : State) :
    ((setReportedWidth p w s).sq p).paused = (s.sq p).paused := by
  unfold setReportedWidth
  split
  · rfl
  · have calm : Calm false p _ _ := evaluateFit_calm p ((s.updPort p fun q => { q with reportedWidth := w }).updSlot p
      fun r => { r with width := w })
    exact (calm.pause rfl).2

theorem cutTransmission_port (p : Slot) (s : State) : (cutTransmission p s).port p = { s.port p with
    transmission := none, pauseAsserted := ((cutTransmission p s).port p).pauseAsserted } := by
  unfold cutTransmission
  dsimp only
  split
  · rw [(release_moves ..).port p, State.port_updSq, State.port_updPort_same]
  · rw [State.port_updPort_same]
  · next idle => rw [← idle]

theorem discardAssembly_port (p : Slot) (s : State) : (discardAssembly p s).port p = { s.port p with
    assembly := none, pauseAsserted := ((discardAssembly p s).port p).pauseAsserted } := by
  rw [discardAssembly_eq]
  unfold State.port
  dsimp only
  rw [Table.read_write_same]
  unfold State.portTold
  split <;> rfl

theorem dropTests_port (p : Slot) (s : State) : (dropTests p s).port p = { s.port p with
    testUnsent := [], testNext := 16, testDeadline := none } :=
  State.port_updPort_same ..

/-- What a port held is given up. -/
theorem clearedPort (p : Slot) (s : State) : (discardAssembly p (dropTests p (cutTransmission p s))).port p =
    { s.port p with
      transmission := none, testUnsent := [], testNext := 16, testDeadline := none, assembly := none
      pauseAsserted := ((discardAssembly p (dropTests p (cutTransmission p s))).port p).pauseAsserted } := by
  rw [discardAssembly_port, dropTests_port, cutTransmission_port]

/-- The common part of bring-up and take-down as the port sees it (R2). -/
theorem stopPort_port (p : Slot) {link : LinkState} (down : link ≠ .up) (s : State) :
    (stopPort p link s).port p = { s.port p with
      link := link, cardHold := false, trainingDeadline := none, transmission := none, testUnsent := [], testNext := 16
      testDeadline := none, assembly := none, workingWidth := none, lanesInUse := [], reportedWidth := none
      pauseAsserted := ((stopPort p link s).sq p).paused } := by
  unfold stopPort
  dsimp only
  have cleared := clearedPort p (s.updPort p fun q => { q with link := link, cardHold := false, trainingDeadline := none })
  rw [State.port_updPort_same] at cleared
  rw [setReportedWidth_port, setReportedWidth_paused, setReportedWidth_idle]
  · rw [State.port_updPort_same, cleared, State.sq_updPort]
  · rw [State.port_updPort_same, cleared]
    exact down

/-! ### What the operations on a slot's own port leave of the agent -/

/-- What went out stays out, and what the agent holds for a slot only shrank, not at all where no alarm wait was
outstanding. -/
structure Tame (n : Slot) (s t : State) : Prop where
  out : s.out <+: t.out
  agent : AgentKept n s t
  quiet : Quiet s t

theorem Tame.trans {n : Slot} {s t u : State} (h : Tame n s t) (k : Tame n t u) : Tame n s u :=
  ⟨h.out.trans k.out, h.agent.trans k.agent, h.quiet.trans k.quiet⟩

theorem Calm.tame {n : Slot} {s t : State} (h : Calm mv n s t) : Tame n s t := ⟨h.out, h.agent, h.quiet⟩

theorem Tame.of_same {n : Slot} {s t : State} (out : s.out <+: t.out) (alarm : t.alarm = s.alarm)
    (agent : t.agent = s.agent) (waiting : Maker.agent ∈ t.qm.waiting ↔ .agent ∈ s.qm.waiting) : Tame n s t :=
  ⟨out, .of_eq agent, ⟨fun none => alarm ▸ none, fun _ => agent, fun _ => waiting⟩⟩

theorem Tame.updPort (n p : Slot) (f : Port → Port) (s : State) : Tame n s (s.updPort p f) :=
  .of_same (List.prefix_refl _) rfl rfl .rfl

theorem Tame.updSlot (n p : Slot) (f : SlotRecord → SlotRecord) (s : State) : Tame n s (s.updSlot p f) :=
  .of_same (List.prefix_refl _) rfl rfl .rfl

theorem Tame.updSq (n p : Slot) (f : SlotQueues → SlotQueues) (s : State) : Tame n s (s.updSq p f) :=
  .of_same (List.prefix_refl _) rfl rfl .rfl

theorem setReportedWidth_tame (n p : Slot) (w : Option Width) (s : State) : Tame n s (setReportedWidth p w s) := by
  unfold setReportedWidth
  split
  · exact (Calm.refl (mv := true) n s).tame
  · exact ((Tame.updPort n p _ s).trans (.updSlot n p _ _)).trans (evaluateFit_calm (mv := true) ..).tame

theorem cutTransmission_tame (n p : Slot) (s : State) : Tame n s (cutTransmission p s) := by
  unfold cutTransmission
  dsimp only
  split
  · exact ((Tame.updPort n p _ s).trans (.updSq n p _ _)).trans (release_calm ..).tame
  · exact .updPort n p _ s
  · exact (Calm.refl (mv := true) n s).tame

theorem discardAssembly_tame (n p : Slot) (s : State) : Tame n s (discardAssembly p s) := by
  unfold discardAssembly
  split
  · dsimp only
    split
    · exact .updPort n p _ s
    · exact (Tame.updPort n p _ s).trans (reexaminePause_calm ..).tame
  · exact (Calm.refl (mv := true) n s).tame

theorem dropTests_tame (n p : Slot) (s : State) : Tame n s (dropTests p s) :=
  (Tame.updPort n p _ s).trans (withdrawTest_calm (mv := true) ..).tame

theorem stopPort_tame (n p : Slot) (link : LinkState) (s : State) : Tame n s (stopPort p link s) :=
  (((((Tame.updPort n p _ s).trans (cutTransmission_tame ..)).trans (dropTests_tame ..)).trans
    (discardAssembly_tame ..)).trans (.updPort n p _ _)).trans (setReportedWidth_tame ..)

theorem flushAll_tame (n p : Slot) (s : State) : Tame n s (flushAll p s) :=
  (Tame.updSq n p _ s).trans (Calm.forEach (discardCopy_calm n p) _ _).tame

/-! ### The slot controller's record at a port's stop -/

theorem stopPort_slots (p : Slot) (link : LinkState) (s : State) :
    (stopPort p link s).slots = if (s.port p).reportedWidth = none then s.slots else
      { s.slots with slot := s.slots.slot.write p { s.slot p with width := none } } := by
  have cleared := clearedPort p (s.updPort p fun q => { q with link := link, cardHold := false, trainingDeadline := none })
  rw [State.port_updPort_same] at cleared
  unfold stopPort
  dsimp only
  rw [setReportedWidth_slots, State.port_updPort_same, cleared]
  unfold State.slot
  rw [State.updPort_slots, (discardAssembly_changes _ _).same .slots rfl, (dropTests_changes _ _).same .slots rfl,
    (cutTransmission_changes _ _).same .slots rfl]
  rfl

/-! ### A slot's own change -/

/-- The state as a slot's record takes a new state, with its power enable and lamp (R136). -/
def State.enters (n : Slot) (new : SlotState) (s : State) : State :=
  s.updSlot n fun r =>
    { r with state := new, lines := { r.lines with powerEnable := new.poweredOn, removeLamp := new.lampLit } }

theorem changeSlot_slots (n : Slot) (new : SlotState) (reason : Option FaultReason) (s : State) :
    (changeSlot n new reason s).slots = (s.enters n new).slots := by
  unfold changeSlot
  dsimp only
  rw [(trackerSlotChange_changes _ _ _).same .slots rfl, (monitorSlotChange_changes _ _ _).same .slots rfl,
    (delaySlotChange_changes _ _ _ _).same .slots rfl, (queueSlotChange_changes _ _ _ _).same .slots rfl,
    (flowsSlotReport_changes _ _ _ _).same .slots rfl, (sidebandReport_changes _ _ _ _).same .slots rfl,
    (alarmSlotChange_changes _ _ _ _ _).same .slots rfl, (agentSlotChange_changes _ _ _ _).same .slots rfl]
  rfl

theorem changeSlot_slot (n : Slot) (new : SlotState) (reason : Option FaultReason) (s : State) :
    (changeSlot n new reason s).slot n = { s.slot n with
      state := new, lines := { (s.slot n).lines with powerEnable := new.poweredOn, removeLamp := new.lampLit } } := by
  unfold State.slot
  rw [changeSlot_slots]
  exact Table.read_update_same _ _ _

theorem changeSlot_slot_ne {n m : Slot} (other : m ≠ n) (new : SlotState) (reason : Option FaultReason) (s : State) :
    (changeSlot n new reason s).slot m = s.slot m := by
  unfold State.slot
  rw [changeSlot_slots]
  exact Table.read_update_ne _ _ other

/-- The reports of a slot's own change before the queue manager's leave the port and the queues to it. -/
theorem reportsBeforeQueues_calm (n : Slot) {old new : SlotState} (here : new ≠ .empty) (reason : Option FaultReason)
    (s : State) :
    Calm mv n s (flowsSlotReport n old new (sidebandReport n old new (alarmSlotChange n old new reason s))) :=
  ((alarmSlotChange_calm ..).trans (sidebandReport_calm n n here _)).trans (flowsSlotReport_calm ..)

theorem queueSlotChange_tame (n m : Slot) (old new : SlotState) (s : State) : Tame n s (queueSlotChange m old new s) := by
  unfold queueSlotChange
  dsimp only
  have flushed : Tame n s (if old.isUp && !new.isUp then
      (setPaused m false (flushAll m s)).updSq m fun q => { q with hold := .none, holdTimer := none } else s) := by
    split
    · exact ((flushAll_tame n m s).trans (setPaused_calm ..).tame).trans (.updSq n m _ _)
    · exact (Calm.refl (mv := true) n s).tame
  split
  · exact flushed.trans (.updSq n m _ _)
  · exact flushed

theorem withdrawMarks_tame (n m : Slot) (s : State) : Tame n s (withdrawMarks m s) :=
  ((Tame.updSq n m _ s).trans (Calm.forEach (withdrawMark_calm n m) _ _).tame).trans (arbitrate_calm (mv := true) ..).tame

theorem delaySlotChange_tame (n m : Slot) (old new : SlotState) (s : State) : Tame n s (delaySlotChange m old new s) := by
  unfold delaySlotChange
  split
  · exact (Calm.of_changes (mv := true) (delayArrival_changes m s) rfl n).tame
  · split
    · unfold delayDeparture
      split
      · have forgotten : Calm true n s ((abandonProbe m s).updDelay m fun d =>
            { d with client := false, window := [], base := none, missRun := 0, highRun := 0, delays := none }) :=
          (abandonProbe_calm ..).trans (.of_changes (updDelay_changes m _ _) rfl n)
        exact forgotten.tame.trans (withdrawMarks_tame ..)
      · exact (Calm.refl (mv := true) n s).tame
    · exact (Calm.refl (mv := true) n s).tame

/-- After the agent's part the reports of a slot change leave of the agent what notices leave of it. -/
theorem changeSlot_tame (n m : Slot) {new : SlotState} (here : new ≠ .empty) (reason : Option FaultReason) (s : State) :
    Tame n (agentSlotChange m (s.slot m).state new (s.enters m new)) (changeSlot m new reason s) := by
  unfold changeSlot
  dsimp only
  refine .trans ?_ (trackerSlotChange_calm (mv := true) ..).tame
  refine .trans ?_ (monitorSlotChange_calm (mv := true) ..).tame
  refine .trans ?_ (delaySlotChange_tame ..)
  refine .trans ?_ (queueSlotChange_tame ..)
  refine .trans ?_ (flowsSlotReport_calm (mv := true) ..).tame
  refine .trans ?_ (sidebandReport_calm (mv := true) n m here _).tame
  exact (alarmSlotChange_calm (mv := true) ..).tame

/-- The agent without what it holds for a slot whose waiting responses go (R181). -/
theorem withdrawResponses_agent (n : Slot) (s : State) :
    let a := s.agent
    let kept := a.responses.filter fun r => r.dest != n
    (withdrawResponses n s).agent = { a with
      responses := kept
      counters := { a.counters with
        withdrawn := min (a.counters.withdrawn + (a.responses.length - kept.length)) (2 ^ 32 - 1) } } := by
  intro a kept
  have gone : (a.responses.filter fun r => r.dest == n).length = a.responses.length - kept.length := by
    have := List.length_eq_length_filter_add (l := a.responses) fun r => r.dest == n
    have flip : kept.length = (a.responses.filter fun r => !(r.dest == n)).length := rfl
    omega
  have counted : addCount32 a.counters.withdrawn (a.responses.filter fun r => r.dest == n).length =
      min (a.counters.withdrawn + (a.responses.length - kept.length)) (2 ^ 32 - 1) := by rw [gone]; rfl
  rw [← counted]
  unfold withdrawResponses
  dsimp only
  split
  · split
    · rfl
    · rw [(joinWaiting_changes _ _).same .agent rfl]
      rfl
  · rfl

/-- The agent's entry in the reserve waiting list stands for the new head where the old one was withdrawn (R181). -/
theorem withdrawResponses_entry {n : Slot} {s : State} {r : Response} (head : s.agent.responses.head? = some r)
    (dest : r.dest = n) :
    .agent ∈ (withdrawResponses n s).qm.waiting ↔ s.agent.responses.filter (fun r => r.dest != n) ≠ [] := by
  unfold withdrawResponses
  dsimp only
  rw [if_pos (by rw [head]; simp [dest])]
  split
  · next empty => simp_all [withdrawMaker]
  · next more =>
    refine iff_of_true ?_ (by simpa using more)
    unfold joinWaiting
    split
    · next listed => simpa using listed
    · simp

/-- What the agent holds once a slot's change reached it (R181, R182). -/
theorem agentSlotChange_agent (n : Slot) (old new : SlotState) (s : State) :
    let a := s.agent
    let leaves : Bool := old == .active && new != .active && s.holdsController n
    let falls : Bool := old.isUp && !new.isUp
    let kept := a.responses.filter fun r => r.dest != n
    (agentSlotChange n old new s).agent = { a with
      queue := if leaves then a.queue.filter fun r => r.requester != n else a.queue
      inflight := if leaves then a.inflight.filter fun f => f.requester != n else a.inflight
      responses := if falls then kept else a.responses
      counters := if falls then { a.counters with
        withdrawn := min (a.counters.withdrawn + (a.responses.length - kept.length)) (2 ^ 32 - 1) } else a.counters } := by
  intro a leaves falls kept
  have left : leaves = true ↔ old = .active ∧ new ≠ .active ∧ s.holdsController n = true := by
    simp [leaves, and_assoc]
  have dropped : (if old = .active ∧ new ≠ .active ∧ s.holdsController n = true then dropController n s else s).agent =
      { a with
        queue := if leaves then a.queue.filter fun r => r.requester != n else a.queue
        inflight := if leaves then a.inflight.filter fun f => f.requester != n else a.inflight } := by
    split
    · next h => rw [if_pos (left.2 h), if_pos (left.2 h)]; rfl
    · next h => rw [if_neg (mt left.1 h), if_neg (mt left.1 h)]
  unfold agentSlotChange
  dsimp only
  by_cases fell : falls = true
  · rw [if_pos fell, if_pos fell, if_pos fell, withdrawResponses_agent, dropped]
  · rw [if_neg fell, if_neg fell, if_neg fell, dropped]

/-- A slot change is followed by the agent: from the state before it, through its own part, to a state that notices alone
separate from it (R181, R182). -/
theorem agentFollows_of_change {n : Slot} {new : SlotState} {s t u : State} (before : Tame n s t)
    (state : (t.slot n).state = (s.slot n).state) (identity : (t.slot n).identity = (s.slot n).identity)
    (after : AgentKept n (agentSlotChange n (t.slot n).state new (t.enters n new)) u)
    (quiet : (∀ m : Slot, m ≠ n → (u.slot m).state = (s.slot m).state) →
      Quiet (agentSlotChange n (t.slot n).state new (t.enters n new)) u) : AgentFollows n new s u := by
  have controller : (t.enters n new).holdsController n = s.holdsController n := by
    unfold State.holdsController State.enters
    rw [State.slot_updSlot_same, identity]
  have agent := agentSlotChange_agent n (t.slot n).state new (t.enters n new)
  dsimp only at agent
  rw [controller, state] at agent
  rw [state] at after quiet
  unfold AgentFollows
  intro a leaves falls kept
  refine ⟨fun left => ⟨?_, fun f hf => ?_⟩, fun fell none r hr dest => ?_, fun waits _ others => ?_⟩
  · rw [after.queue, agent]
    dsimp only
    rw [if_pos left]
    exact congrArg _ before.agent.queue
  · have mem := after.inflight f hf
    rw [agent] at mem
    dsimp only at mem
    rw [if_pos left] at mem
    simpa using (List.mem_filter.1 mem).2
  · have gone : ∀ f ∈ (agentSlotChange n (s.slot n).state new (t.enters n new)).agent.inflight, f.requester ≠ n := by
      rw [agent]
      dsimp only
      intro f hf
      split at hf
      · simpa using (List.mem_filter.1 hf).2
      · next h => exact (none.resolve_left h) f (before.agent.inflight f hf)
    have mem := after.responses gone r hr dest
    rw [agent] at mem
    dsimp only at mem
    rw [if_pos fell] at mem
    simpa [dest] using (List.mem_filter.1 mem).2
  · have same : t.agent = a := before.quiet.agent waits
    have enters : (t.enters n new).agent = a := same
    have still : t.alarm.waits = [] := before.quiet.waits waits
    have own : (agentSlotChange n (s.slot n).state new (t.enters n new)).alarm.waits = [] := by
      rw [(agentSlotChange_changes _ _ _ _).same .alarm rfl]
      exact still
    obtain ⟨-, kept', entry⟩ := quiet others
    refine ⟨?_, fun fell ⟨r, head, dest⟩ => ?_⟩
    · rw [kept' own, agent, enters]
    · rw [entry own]
      unfold agentSlotChange
      dsimp only
      rw [if_pos fell]
      have responses (v : State) (hv : v = t.enters n new ∨ v = dropController n (t.enters n new)) :
          v.agent.responses = a.responses := by
        rcases hv with rfl | rfl
        · rw [enters]
        · rw [← enters]; rfl
      split
      · rw [withdrawResponses_entry (r := r) (by rw [responses _ (.inr rfl)]; exact head) dest, responses _ (.inr rfl)]
      · rw [withdrawResponses_entry (r := r) (by rw [responses _ (.inl rfl)]; exact head) dest, responses _ (.inl rfl)]

end Sys2Proof.Machine
end

section
/-! SUPPORT. The flush of a port, and what a slot's own change leaves of its port and its queues. -/

namespace Sys2Proof.Machine

variable {mv : Bool}

/-! ### Flushes -/

/-- Between two states copies of a port were thrown away: pauses, the port's egress discards and the stored frames moved. -/
structure Discarded (p : Slot) (ids : List Nat) (s t : State) : Prop where
  port : ∀ q, t.port q = { s.port q with pauseAsserted := (t.port q).pauseAsserted }
  sq_ne : ∀ q, q ≠ p → t.sq q = { s.sq q with paused := (t.sq q).paused }
  sq : t.sq p = { s.sq p with
    paused := (t.sq p).paused, egress := { (s.sq p).egress with discards := (t.sq p).egress.discards } }
  counted : (s.sq p).egress.discards < 2 ^ 32 →
    (t.sq p).egress.discards = min ((s.sq p).egress.discards + ids.length) (2 ^ 32 - 1)
  waiting : t.qm.waiting = s.qm.waiting
  nextFrame : t.qm.nextFrame = s.qm.nextFrame
  exhaustion : t.qm.exhaustion = s.qm.exhaustion
  frames : ∀ id, id ∉ ids → t.frame? id = s.frame? id

theorem discardCopy_discarded (p : Slot) (id : Nat) (s : State) : Discarded p [id] s (discardCopy p id s) := by
  have moves := release_moves id (s.updSq p fun q => { q with egress := { q.egress with
    discards := count32 q.egress.discards } })
  exact {
    port := moves.port
    sq_ne := fun q hq => by
      unfold discardCopy
      rw [moves.sq q, State.sq_updSq_ne _ _ _ hq]
    sq := by
      unfold discardCopy
      rw [moves.sq p, State.sq_updSq_same]
    counted := fun _ => by
      unfold discardCopy
      rw [moves.sq p, State.sq_updSq_same]
      rfl
    waiting := moves.waiting
    nextFrame := moves.nextFrame
    exhaustion := moves.exhaustion
    frames := fun j hj => by
      unfold discardCopy
      cases frame : (s.updSq p fun q => { q with egress := { q.egress with
          discards := count32 q.egress.discards } }).frame? id with
      | none => rw [release, frame]; rfl
      | some f => exact (release_givesBack frame).2.2 j (by simpa using hj) }

theorem Discarded.cons {p : Slot} {id : Nat} {ids : List Nat} {s t u : State} (h : Discarded p [id] s t)
    (k : Discarded p ids t u) : Discarded p (id :: ids) s u where
  port q := by rw [k.port q, h.port q]
  sq_ne q hq := by rw [k.sq_ne q hq, h.sq_ne q hq]
  sq := by rw [k.sq, h.sq]
  counted few := by
    have first : (t.sq p).egress.discards = min ((s.sq p).egress.discards + 1) (2 ^ 32 - 1) := h.counted few
    rw [k.counted (by omega), first, List.length_cons]
    omega
  waiting := k.waiting.trans h.waiting
  nextFrame := k.nextFrame.trans h.nextFrame
  exhaustion := k.exhaustion.trans h.exhaustion
  frames j hj := by
    rw [List.mem_cons, not_or] at hj
    rw [k.frames j hj.2, h.frames j (by simpa using hj.1)]

theorem discardCopies_discarded (p : Slot) (ids : List Nat) (s : State) :
    Discarded p ids s (forEach ids (discardCopy p) s) := by
  unfold forEach
  induction ids generalizing s with
  | nil => exact ⟨fun _ => rfl, fun _ _ => rfl, rfl, fun few => by simp; omega, rfl, rfl, rfl, fun _ _ => rfl⟩
  | cons id ids ih => exact (discardCopy_discarded p id s).cons (ih _)

/-- A frame of which a list of copies names one gives one reference back (R47). -/
theorem discardCopies_givesBack {p : Slot} {ids : List Nat} {s : State} {id : Nat} {f : StoredFrame}
    (once : ids.count id = 1) (frame : s.frame? id = some f) :
    (f.refs ≤ 1 → (forEach ids (discardCopy p) s).frame? id = none) ∧
      (1 < f.refs → (forEach ids (discardCopy p) s).frame? id = some { f with refs := f.refs - 1 }) := by
  induction ids generalizing s with
  | nil => simp at once
  | cons j ids ih =>
    by_cases h : j = id
    · subst h
      have rest : j ∉ ids := by
        rw [List.count_cons_self] at once
        exact List.count_eq_zero.1 (by omega)
      rw [show forEach (j :: ids) (discardCopy p) s = forEach ids (discardCopy p) (discardCopy p j s) from rfl,
        (discardCopies_discarded p ids _).frames j rest]
      have back := release_givesBack (s := s.updSq p fun q => { q with egress := { q.egress with
        discards := count32 q.egress.discards } }) frame
      exact ⟨back.1, back.2.1⟩
    · rw [List.count_cons_of_ne h] at once
      refine ih once ?_
      rw [(discardCopy_discarded p j s).frames id (by simpa using Ne.symm h)]
      exact frame

/-- The copies that stand in a port's queues, in the order of a flush (R57; LOG 52). -/
def Queues.copies (q : Queues) : List Nat := q.sample ++ q.timing ++ q.control ++ q.bulk

theorem flushAll_discarded (p : Slot) (s : State) :
    Discarded p (s.sq p).queues.copies (s.updSq p fun q => { q with queues := .empty }) (flushAll p s) :=
  discardCopies_discarded ..

/-- A flush leaves a port's queues empty, counts its copies and keeps its hold (R57, R60). -/
theorem flushAll_sq (p : Slot) (s : State) : (flushAll p s).sq p = { s.sq p with
    queues := .empty, paused := ((flushAll p s).sq p).paused
    egress := { (s.sq p).egress with discards := ((flushAll p s).sq p).egress.discards } } := by
  have flushed := (flushAll_discarded p s).sq
  rw [State.sq_updSq_same] at flushed
  rw [flushed]

theorem flushAll_port (p q : Slot) (s : State) : (flushAll p s).port q = { s.port q with
    pauseAsserted := ((flushAll p s).port q).pauseAsserted } :=
  (flushAll_discarded p s).port q

/-! ### A slot's own change: its port -/

/-- Between two states a port stood but for its transmission and its pause, the first where its link is not UP, and the
second told where it is. -/
structure PortStands (n : Slot) (s t : State) : Prop where
  port : t.port n = { s.port n with
    transmission := (t.port n).transmission, pauseAsserted := (t.port n).pauseAsserted }
  idle : (s.port n).link ≠ .up → (t.port n).transmission = (s.port n).transmission
  synced : (s.port n).pauseAsserted = (s.sq n).paused → (t.port n).pauseAsserted = (t.sq n).paused
  out : s.out <+: t.out
  told : (s.port n).link = .up → (t.port n).pauseAsserted = (s.port n).pauseAsserted ∨
    .symbol n (if (t.port n).pauseAsserted then .pauseOn else .pauseOff) ∈ t.out

theorem Aside.portStands {n : Slot} {s t : State} (h : Aside mv n s t) : PortStands n s t :=
  ⟨h.port, h.idle, h.synced, h.out, h.told⟩

theorem PortStands.trans {n : Slot} {s t u : State} (h : PortStands n s t) (k : PortStands n t u) : PortStands n s u where
  port := by rw [k.port, h.port]
  idle down := (k.idle (by rw [h.port]; exact down)).trans (h.idle down)
  synced same := k.synced (h.synced same)
  out := h.out.trans k.out
  told up := by
    rcases k.told (by rw [h.port]; exact up) with same | told
    · rw [same]
      exact (h.told up).imp_right fun told => k.out.subset told
    · exact .inr told

/-- A change of other blocks and of what the queue manager keeps besides pauses. -/
theorem PortStands.of_same {n : Slot} {s t : State} (port : t.port n = s.port n)
    (paused : (t.sq n).paused = (s.sq n).paused) (out : s.out <+: t.out) : PortStands n s t :=
  ⟨by rw [port], fun _ => by rw [port], fun same => by rw [port, paused]; exact same, out, fun _ => .inl (by rw [port])⟩

theorem PortStands.refl (n : Slot) (s : State) : PortStands n s s := .of_same rfl rfl (List.prefix_refl _)

theorem PortStands.updSq (n : Slot) (f : SlotQueues → SlotQueues) (paused : ∀ q, (f q).paused = q.paused) (s : State) :
    PortStands n s (s.updSq n f) :=
  .of_same rfl (by rw [State.sq_updSq_same]; exact paused _) (List.prefix_refl _)

theorem flushAll_stands (n : Slot) (s : State) : PortStands n s (flushAll n s) :=
  (PortStands.updSq n (fun q => { q with queues := .empty }) (fun _ => rfl) s).trans
    (Calm.forEach (discardCopy_calm n n) _ _).portStands

theorem queueSlotChange_stands (n : Slot) (old new : SlotState) (s : State) :
    PortStands n s (queueSlotChange n old new s) := by
  unfold queueSlotChange
  dsimp only
  have flushed : PortStands n s (if old.isUp && !new.isUp then
      (setPaused n false (flushAll n s)).updSq n fun q => { q with hold := .none, holdTimer := none } else s) := by
    split
    · refine ((flushAll_stands n s).trans (setPaused_calm ..).portStands).trans (.updSq n _ ?_ _)
      exact fun _ => rfl
    · exact .refl n s
  split
  · refine flushed.trans (.updSq n _ ?_ _)
    exact fun _ => rfl
  · exact flushed

theorem withdrawMarks_stands (n : Slot) (s : State) : PortStands n s (withdrawMarks n s) :=
  ((PortStands.updSq n (fun q => { q with queues := { q.queues with
      timing := (s.sq n).queues.timing.filter fun id => !s.isMark id } }) (fun _ => rfl) s).trans
    (Calm.forEach (withdrawMark_calm n n) _ _).portStands).trans (arbitrate_calm (mv := true) ..).portStands

theorem delaySlotChange_stands (n : Slot) (old new : SlotState) (s : State) :
    PortStands n s (delaySlotChange n old new s) := by
  unfold delaySlotChange
  split
  · exact (Aside.of_changes (mv := true) (delayArrival_changes n s) rfl n).portStands
  · split
    · unfold delayDeparture
      split
      · have forgotten : Calm true n s ((abandonProbe n s).updDelay n fun d =>
            { d with client := false, window := [], base := none, missRun := 0, highRun := 0, delays := none }) :=
          (abandonProbe_calm ..).trans (.of_changes (updDelay_changes n _ _) rfl n)
        exact forgotten.portStands.trans (withdrawMarks_stands ..)
      · exact .refl n s
    · exact .refl n s

/-- The agent's part is none of any port's. -/
theorem agentSlotChange_aside (n m : Slot) (old new : SlotState) (s : State) :
    Aside mv n s (agentSlotChange m old new s) := by
  have withdrawn (t : State) : Aside mv n t (withdrawResponses m t) := by
    unfold withdrawResponses
    dsimp only
    split
    · split
      · exact (Aside.of_changes (updAgent_changes _ t) rfl n).trans (withdrawMaker_aside ..)
      · exact ((Aside.of_changes (updAgent_changes _ t) rfl n).trans (withdrawMaker_aside ..)).trans
          (joinWaiting_aside ..)
    · exact .of_changes (updAgent_changes _ t) rfl n
  unfold agentSlotChange
  dsimp only
  have dropped : Aside mv n s
      (if old = .active ∧ new ≠ .active ∧ s.holdsController m = true then dropController m s else s) := by
    split
    · exact .of_changes (dropController_changes m s) rfl n
    · exact .refl n s
  split
  · exact dropped.trans (withdrawn _)
  · exact dropped

theorem changeSlot_stands (n : Slot) {new : SlotState} (here : new ≠ .empty) (reason : Option FaultReason) (s : State) :
    PortStands n s (changeSlot n new reason s) := by
  unfold changeSlot
  dsimp only
  refine .trans ?_ (trackerSlotChange_calm (mv := true) ..).portStands
  refine .trans ?_ (monitorSlotChange_calm (mv := true) ..).portStands
  refine .trans ?_ (delaySlotChange_stands ..)
  refine .trans ?_ (queueSlotChange_stands ..)
  refine .trans ?_ (reportsBeforeQueues_calm (mv := true) n here reason _).portStands
  refine .trans ?_ (agentSlotChange_aside (mv := true) ..).portStands
  exact .of_same rfl rfl (List.prefix_refl _)

/-! ### A slot's own change: its queues -/

/-- A slot that leaves the up states has its port flushed, its pause released and its hold ended (R58). -/
theorem queueSlotChange_fallen {n : Slot} {old new : SlotState} (falls : (old.isUp && !new.isUp) = true) (s : State) :
    (queueSlotChange n old new s).sq n = { s.sq n with
      queues := .empty, paused := false, hold := .none, holdTimer := none
      stallCount := if new = .linking then 0 else (s.sq n).stallCount
      egress := { (s.sq n).egress with discards := ((flushAll n s).sq n).egress.discards } } := by
  have unpaused : (setPaused n false (flushAll n s)).sq n = { (flushAll n s).sq n with paused := false } := by
    rw [setPaused_eq]
    exact Table.read_write_same _ _ _
  unfold queueSlotChange
  dsimp only
  rw [if_pos falls]
  split
  · rw [State.sq_updSq_same, State.sq_updSq_same, unpaused, flushAll_sq]
  · rw [State.sq_updSq_same, unpaused, flushAll_sq]

/-- Otherwise its port keeps what it holds (R56, R58). -/
theorem queueSlotChange_standing {n : Slot} {old new : SlotState} (stands : (old.isUp && !new.isUp) = false) (s : State) :
    queueSlotChange n old new s = if new = .linking then s.updSq n fun q => { q with stallCount := 0 } else s := by
  unfold queueSlotChange
  dsimp only
  rw [stands]
  rfl

/-- With its port flushed a slot's change leaves the queues empty and the pause and the hold ended (R56, R58). -/
theorem changeSlot_sq_fallen {n : Slot} {new : SlotState} {s : State} (falls : ((s.slot n).state.isUp && !new.isUp) = true)
    (here : new ≠ .empty) (reason : Option FaultReason) :
    let q := (changeSlot n new reason s).sq n
    q.queues = .empty ∧ q.paused = false ∧ q.hold = .none ∧ q.holdTimer = none ∧
      q.stallCount = if new = .linking then 0 else (s.sq n).stallCount := by
  have down : new.isUp = false := by simpa using (Bool.and_eq_true_iff.1 falls).2
  let v := flowsSlotReport n (s.slot n).state new (sidebandReport n (s.slot n).state new
    (alarmSlotChange n (s.slot n).state new reason (agentSlotChange n (s.slot n).state new (s.enters n new))))
  let w := queueSlotChange n (s.slot n).state new v
  have before : (v.sq n).stallCount = (s.sq n).stallCount :=
    ((agentSlotChange_aside (mv := true) n n (s.slot n).state new (s.enters n new)).trans
      (reportsBeforeQueues_calm n here reason _).toAside).stallCount
  have record : (v.slot n).state = new := by
    rw [((agentSlotChange_aside (mv := true) n n (s.slot n).state new (s.enters n new)).trans
      (reportsBeforeQueues_calm n here reason _).toAside).slot]
    unfold State.enters
    rw [State.slot_updSlot_same]
  have fallen : w.sq n = _ := queueSlotChange_fallen falls v
  have off : (w.slot n).state.isUp = false := by
    unfold State.slot
    rw [(queueSlotChange_changes _ _ _ v).same .slots rfl]
    exact record ▸ down
  have queues : (w.sq n).queues = .empty := by rw [fallen]
  have after : Calm false n w (changeSlot n new reason s) :=
    ((delaySlotChange_calm fun t same => by
        rw [withdrawMarks_of_empty (by unfold State.sq; rw [same]; exact queues)]
        exact .refl n t).trans (monitorSlotChange_calm ..)).trans (trackerSlotChange_calm ..)
  refine ⟨after.empty off queues, ?_, ?_, ?_, ?_⟩
  · rw [(after.pause rfl).2, fallen]
  · rw [after.hold, fallen]
  · rw [after.holdTimer, fallen]
  · rw [after.stallCount, fallen, before]

end Sys2Proof.Machine
end

section
/-! SUPPORT. The slot controller's operations beside the slots they are not about: what a slot that leaves its power does
to its record, and what grants of power and ends of drains leave alone. -/

namespace Sys2Proof.Machine

variable {mv : Bool}

/-! ### A slot leaves its power -/

theorem takeDown_slots (n : Slot) (s : State) :
    (takeDown n s).slots = { s.slots with slot := s.slots.slot.write n { s.slot n with
      width := ((takeDown n s).slot n).width } } := by
  have slots : (takeDown n s).slots = _ := stopPort_slots n .down s
  unfold State.slot
  rw [slots]
  split
  · exact congrArg (fun t => { s.slots with slot := t }) (Table.write_read s.slots.slot n).symm
  · rw [Table.read_write_same]
    rfl

theorem takeDown_width (n : Slot) (s : State) : ((takeDown n s).slot n).width =
    if (s.port n).reportedWidth = none then (s.slot n).width else none := by
  have slots : (takeDown n s).slots = _ := stopPort_slots n .down s
  unfold State.slot
  rw [slots]
  split
  · rfl
  · rw [Table.read_write_same]

theorem releasePower_slots (n : Slot) (s : State) : (releasePower n s).slots = { s.slots with
    committed := s.slots.committed - s.classOf n
    slot := s.slots.slot.write n { s.slot n with softStart := none, drainTimer := none } } := rfl

/-- A slot that leaves a power-on state has its timers stopped and its class out of committed power (R136). -/
theorem leavePower_slots {n : Slot} {s : State} (on : (s.slot n).state.poweredOn = true) :
    (leavePower n s).slots = { s.slots with
      committed := s.slots.committed - s.classOf n
      slot := s.slots.slot.write n { s.slot n with
        softStart := none, drainTimer := none, width := ((leavePower n s).slot n).width } } := by
  have taken : (releasePower n (takeDown n s)).slots = { s.slots with
      committed := s.slots.committed - s.classOf n
      slot := s.slots.slot.write n { s.slot n with
        softStart := none, drainTimer := none, width := ((releasePower n (takeDown n s)).slot n).width } } := by
    have same : (takeDown n s).slot n = { s.slot n with width := ((takeDown n s).slot n).width } := by
      unfold State.slot
      rw [takeDown_slots]
      rw [Table.read_write_same]
      rfl
    have width : ((releasePower n (takeDown n s)).slot n).width = ((takeDown n s).slot n).width := by
      unfold State.slot
      rw [releasePower_slots, Table.read_write_same]
      rfl
    rw [width, releasePower_slots, State.classOf, same, takeDown_slots]
    dsimp only
    rw [Table.write_write]
    rfl
  unfold leavePower
  cases h : (s.slot n).state <;> rw [h] at on
  case linking | standby | active | draining => exact taken
  case powering =>
    dsimp only
    rw [releasePower_slots]
    unfold State.slot
    rw [releasePower_slots, Table.read_write_same]
    rfl
  all_goals cases on

/-- Out of the power-on states nothing is left. -/
theorem leavePower_of_off {n : Slot} {s : State} (off : (s.slot n).state.poweredOn = false) : leavePower n s = s := by
  unfold leavePower
  cases h : (s.slot n).state <;> rw [h] at off
  case linking | standby | active | draining | powering => cases off

theorem leavePower_waitingList (n : Slot) (s : State) : (leavePower n s).slots.waitingList = s.slots.waitingList := by
  cases on : (s.slot n).state.poweredOn with
  | true => rw [leavePower_slots on]
  | false => rw [leavePower_of_off on]

theorem leavePower_slot {n : Slot} {s : State} (on : (s.slot n).state.poweredOn = true) :
    (leavePower n s).slot n = { s.slot n with
      softStart := none, drainTimer := none, width := ((leavePower n s).slot n).width } := by
  have read := congrArg (fun t => t.slot.read n) (leavePower_slots on)
  rw [Table.read_write_same] at read
  exact read

theorem leavePower_state (n : Slot) (s : State) : ((leavePower n s).slot n).state = (s.slot n).state := by
  cases on : (s.slot n).state.poweredOn with
  | true => rw [leavePower_slot on]
  | false => rw [leavePower_of_off on]

theorem changeSlot_waitingList (n : Slot) (new : SlotState) (reason : Option FaultReason) (s : State) :
    (changeSlot n new reason s).slots.waitingList = s.slots.waitingList := by
  rw [changeSlot_slots]
  rfl

theorem changeSlot_state (n : Slot) (new : SlotState) (reason : Option FaultReason) (s : State) :
    ((changeSlot n new reason s).slot n).state = new := by rw [changeSlot_slot]

theorem bringUp_slots (n : Slot) (s : State) : (bringUp n s).slots = (stopPort n .training s).slots := rfl

theorem stopPort_waitingList (n : Slot) (link : LinkState) (s : State) :
    (stopPort n link s).slots.waitingList = s.slots.waitingList := by
  rw [stopPort_slots]
  split <;> rfl

theorem stopPort_state (n : Slot) (link : LinkState) (s : State) :
    ((stopPort n link s).slot n).state = (s.slot n).state := by
  unfold State.slot
  rw [stopPort_slots]
  split
  · rfl
  · rw [Table.read_write_same]
    rfl

/-! ### What stands beside a service of the waiting list or of the drains -/

/-- A slot whose state no grant and no drain can end: it does not wait for power, and if it drains its port has something
to send. -/
def State.Stays (s : State) (n : Slot) : Prop :=
  (s.slot n).state ≠ .waitingPower ∧ ((s.slot n).state = .draining → s.egressEmpty n = false)

/-- A state that neither a grant nor the end of a drain leaves. -/
def SlotState.settled (x : SlotState) : Prop := x ≠ .waitingPower ∧ x ≠ .draining

/-- The slots of the waiting list wait for power. -/
def State.Listed (s : State) : Prop := ∀ m ∈ s.slots.waitingList, (s.slot m).state = .waitingPower

theorem State.PowerInv.listed {s : State} (h : s.PowerInv) : s.Listed := fun m hm => (h.2.2.2 m).1 hm

/-- Between two states grants were made and drains ended: slots that neither could reach stood aside, and where no slot's
state changed the agent was left alone. -/
structure Serves (s t : State) : Prop where
  listed : t.Listed
  away : ∀ m, s.Stays m → Away true m s t
  moves : (Quiet s t ∧ ∀ m, (t.slot m).state = (s.slot m).state) ∨
    ∃ m, ¬ (s.slot m).state.settled ∧ (t.slot m).state.settled
  out : s.out <+: t.out

theorem SlotState.settled.stays {s : State} {n : Slot} (h : (s.slot n).state.settled) : s.Stays n :=
  ⟨h.1, fun draining => absurd draining h.2⟩

theorem Away.toStays {n : Slot} {s t : State} (h : Away mv n s t) (stays : s.Stays n) : t.Stays n :=
  ⟨by rw [h.slot]; exact stays.1, fun draining => h.busy (stays.2 (by rw [← h.slot]; exact draining))⟩

theorem Serves.refl {s : State} (listed : s.Listed) : Serves s s :=
  ⟨listed, fun m _ => .refl m s, .inl ⟨.of_eq rfl rfl rfl, fun _ => rfl⟩, List.prefix_refl _⟩

theorem Serves.trans {s t u : State} (h : Serves s t) (k : Serves t u) : Serves s u where
  listed := k.listed
  away m stays := (h.away m stays).trans (k.away m ((h.away m stays).toStays stays))
  moves := by
    rcases h.moves with ⟨quiet, same⟩ | ⟨m, moved, settled⟩
    · rcases k.moves with ⟨quiet', same'⟩ | ⟨m, moved, settled⟩
      · exact .inl ⟨quiet.trans quiet', fun m => (same' m).trans (same m)⟩
      · exact .inr ⟨m, by rw [← same m]; exact moved, settled⟩
    · exact .inr ⟨m, moved, by rw [(k.away m settled.stays).slot]; exact settled⟩
  out := h.out.trans k.out

/-- What is calm for every slot serves none. -/
theorem Serves.of_calm {s t : State} (listed : s.Listed) (waiting : t.slots.waitingList = s.slots.waitingList)
    (calm : ∀ m, Calm true m s t) : Serves s t where
  listed m hm := by rw [(calm m).slot]; exact listed m (waiting ▸ hm)
  away m _ := (calm m).toAway
  moves := .inl ⟨(calm 0).quiet, fun m => by rw [(calm m).slot]⟩
  out := (calm 0).out

/-- A change of one slot from a state that waits or drains to one that does neither, with its entry in the list gone. -/
theorem Serves.of_change {n : Slot} {s t : State} (listed : s.Listed) (moved : ¬ (s.slot n).state.settled)
    (settled : (t.slot n).state.settled) (others : ∀ m, m ≠ n → Away true m s t)
    (waiting : t.slots.waitingList = s.slots.waitingList.filter (· != n)) (out : s.out <+: t.out)
    (blocked : ¬ s.Stays n) : Serves s t where
  listed m hm := by
    rw [waiting, List.mem_filter] at hm
    rw [(others m (by simpa using hm.2)).slot]
    exact listed m hm.1
  away m stays := others m fun h => blocked (h ▸ stays)
  moves := .inr ⟨n, moved, settled⟩
  out := out

/-! ### Grants of power -/

theorem leavePower_tame (n m : Slot) (s : State) : Tame n s (leavePower m s) := by
  have released (t : State) : Tame n t (releasePower m t) := .of_same (List.prefix_refl _) rfl rfl .rfl
  unfold leavePower
  split
  · exact released s
  all_goals first
    | exact (Calm.refl (mv := true) n s).tame
    | exact (stopPort_tame n m .down s).trans (released _)

theorem bringUp_tame (n m : Slot) (s : State) : Tame n s (bringUp m s) :=
  ((stopPort_tame ..).trans (.updPort n m _ _)).trans (.updPort n m _ _)

theorem changeSlot_out (n : Slot) {new : SlotState} (here : new ≠ .empty) (reason : Option FaultReason) (s : State) :
    s.out <+: (changeSlot n new reason s).out := (changeSlot_stands n here reason s).out

theorem enterFaulted_away {n m : Slot} (other : m ≠ n) {s : State} (inactive : (s.slot n).state ≠ .active)
    (reason : FaultReason) (kind : Option SidebandOutcome) : Away true m s (enterFaulted n reason kind s) := by
  unfold enterFaulted
  dsimp only
  refine .trans ((leavePower_calm other s).trans (.updSlot_ne other _ _)).toAway (changeSlot_away other ?_ (by decide))
  rw [State.slot_updSlot_same]
  dsimp only
  rw [leavePower_state]
  exact inactive

theorem enterFaulted_out (n : Slot) (reason : FaultReason) (kind : Option SidebandOutcome) (s : State) :
    s.out <+: (enterFaulted n reason kind s).out := by
  have left := (leavePower_tame n n s).out
  unfold enterFaulted
  dsimp only
  refine List.IsPrefix.trans ?_ (changeSlot_out n (by decide) _ _)
  exact left

theorem enterFaulted_waitingList (n : Slot) (reason : FaultReason) (kind : Option SidebandOutcome) (s : State) :
    (enterFaulted n reason kind s).slots.waitingList = s.slots.waitingList := by
  unfold enterFaulted
  dsimp only
  rw [changeSlot_waitingList, State.updSlot_slots]
  exact leavePower_waitingList n s

theorem enterFaulted_state (n : Slot) (reason : FaultReason) (kind : Option SidebandOutcome) (s : State) :
    ((enterFaulted n reason kind s).slot n).state = .faulted := by
  unfold enterFaulted
  rw [changeSlot_slot]

theorem enterLinking_away {n m : Slot} (other : m ≠ n) {s : State} (inactive : (s.slot n).state ≠ .active) :
    Away true m s (enterLinking n s) := by
  have state : ((bringUp n (s.updSlot n fun r => { r with softStart := none })).slot n).state = (s.slot n).state := by
    unfold State.slot
    rw [bringUp_slots]
    exact (stopPort_state n .training _).trans (by rw [State.slot_updSlot_same]; rfl)
  exact ((Calm.updSlot_ne other _ s).trans (bringUp_calm other _)).toAway.trans
    (changeSlot_away other (state ▸ inactive) (by decide))

theorem enterLinking_out (n : Slot) (s : State) : s.out <+: (enterLinking n s).out := by
  have up := (bringUp_tame n n (s.updSlot n fun r => { r with softStart := none })).out
  unfold enterLinking
  exact up.trans (changeSlot_out n (by decide) _ _)

theorem enterLinking_waitingList (n : Slot) (s : State) :
    (enterLinking n s).slots.waitingList = s.slots.waitingList := by
  unfold enterLinking
  rw [changeSlot_waitingList, bringUp_slots, stopPort_waitingList]
  rfl

theorem enterLinking_state (n : Slot) (s : State) : ((enterLinking n s).slot n).state = .linking := by
  unfold enterLinking
  rw [changeSlot_slot]

theorem with_slots_updSlot_calm {n m : Slot} (other : m ≠ n) {s : State} {x : SlotController}
    (same : x.slot = s.slots.slot) (f : SlotRecord → SlotRecord) :
    Calm mv m s (({ s with slots := x } : State).updSlot n f) :=
  (with_slots_calm (by rw [same]; rfl)).trans (.updSlot_ne other f _)

theorem grantPower_serves {n : Slot} {s : State} (listed : s.Listed) (waits : (s.slot n).state = .waitingPower) :
    Serves s (grantPower n s) := by
  unfold grantPower
  dsimp only
  generalize hon : ((({ leaveWaiting n s with slots := _ } : State).updSlot n _)) = on
  have record : (on.slot n).state = .waitingPower := by
    rw [← hon, State.slot_updSlot_same]
    exact waits
  have list : on.slots.waitingList = s.slots.waitingList.filter (· != n) := by rw [← hon]; rfl
  have beside (m : Slot) (other : m ≠ n) : Away true m s on := by
    rw [← hon]
    exact (with_slots_updSlot_calm (s := s) (x := { s.slots with
      committed := s.slots.committed + s.classOf n
      waitingList := s.slots.waitingList.filter (· != n) }) other rfl _).toAway
  have quiet : s.out <+: on.out := by rw [← hon]; exact List.prefix_refl _
  let t := reportWaiting (changeSlot n .powering none on)
  have powering : (t.slot n).state = .powering := by
    unfold State.slot
    rw [(reportWaiting_changes _).same .slots rfl]
    exact congrArg SlotRecord.state (changeSlot_slot n .powering none on)
  have granted (m : Slot) (other : m ≠ n) : Away true m s t :=
    ((beside m other).trans (changeSlot_away other (by rw [record]; decide) (by decide))).trans
      (reportCondition_calm ..).toAway
  have list' : t.slots.waitingList = s.slots.waitingList.filter (· != n) := by
    rw [(reportWaiting_changes _).same .slots rfl, changeSlot_waitingList, list]
  have out : s.out <+: t.out :=
    quiet.trans ((changeSlot_out n (new := .powering) (by decide) none on).trans (reportCondition_calm (mv := true) n ..).out)
  have blocked : ¬ s.Stays n := fun h => h.1 waits
  have moved : ¬ (s.slot n).state.settled := fun h => h.1 waits
  have inactive : (t.slot n).state ≠ .active := by rw [powering]; decide
  show Serves s (if (t.slot n).lines.fastFault then enterFaulted n .overcurrent none t
    else if (t.slot n).lines.powerGood then enterLinking n t else t)
  split
  · refine .of_change listed moved ?_ (fun m other => (granted m other).trans (enterFaulted_away other inactive _ _)) ?_
      (out.trans (enterFaulted_out ..)) blocked
    · rw [enterFaulted_state]
      exact ⟨by decide, by decide⟩
    · rw [enterFaulted_waitingList, list']
  · split
    · refine .of_change listed moved ?_ (fun m other => (granted m other).trans (enterLinking_away other inactive)) ?_
        (out.trans (enterLinking_out ..)) blocked
      · rw [enterLinking_state]
        exact ⟨by decide, by decide⟩
      · rw [enterLinking_waitingList, list']
    · refine .of_change listed moved ?_ granted list' out blocked
      rw [powering]
      exact ⟨by decide, by decide⟩

theorem examineWaiting_serves (k : Nat) {s : State} (listed : s.Listed) : Serves s (examineWaiting k s) := by
  induction k generalizing s with
  | zero => exact .refl listed
  | succ k ih =>
    unfold examineWaiting
    split
    · exact .refl listed
    · next n rest list =>
      split
      · have granted := grantPower_serves listed (listed n (by rw [list]; exact List.mem_cons_self))
        exact granted.trans (ih granted.listed)
      · exact .refl listed

theorem servePower_serves {s : State} (listed : s.Listed) : Serves s (servePower s) := by
  have reported : Serves s (reportWaiting (reportOverBudget s)) :=
    .of_calm listed (by rw [(reportWaiting_changes _).same .slots rfl, (reportOverBudget_changes _).same .slots rfl])
      fun m => (reportCondition_calm ..).trans (reportCondition_calm ..)
  exact reported.trans (examineWaiting_serves _ reported.listed)

/-! ### Ends of drains -/

theorem endDrain_serves {n : Slot} {s : State} (listed : s.Listed) (drains : (s.slot n).state = .draining)
    (empty : s.egressEmpty n = true) : Serves s (endDrain n s) := by
  unfold endDrain
  let t := (leavePower n s).updSlot n fun r => { r with pullGuard := false }
  have record : (t.slot n).state = .draining := by
    show (((leavePower n s).updSlot n _).slot n).state = _
    rw [State.slot_updSlot_same]
    exact (leavePower_state n s).trans drains
  have changed : Serves s (changeSlot n .quiesced none t) := by
    refine .of_change (n := n) listed (fun h => h.2 drains) ?_ (fun m other => ?_) ?_ ?_ fun h => ?_
    · rw [changeSlot_state]
      exact ⟨by decide, by decide⟩
    · exact ((leavePower_calm other s).trans (.updSlot_ne other _ _)).toAway.trans
        (changeSlot_away other (by rw [record]; decide) (by decide))
    · rw [changeSlot_waitingList]
      refine (leavePower_waitingList n s).trans (List.filter_eq_self.2 fun m hm => ?_).symm
      have waits := listed m hm
      simp only [bne_iff_ne, ne_eq]
      rintro rfl
      rw [drains] at waits
      cases waits
    · exact (leavePower_tame n n s).out.trans (changeSlot_out n (new := .quiesced) (by decide) _ t)
    · have busy := h.2 drains
      rw [empty] at busy
      cases busy
  exact changed.trans (servePower_serves changed.listed)

theorem checkDrain_serves (n : Slot) {s : State} (listed : s.Listed) : Serves s (checkDrain n s) := by
  unfold checkDrain
  split
  · next h =>
    have counted : ∀ m, ((countSlot n (fun c => { c with drainsCompleted := count32 c.drainsCompleted }) s).slot m).state =
        (s.slot m).state := fun m => by
      by_cases hm : m = n
      · subst hm
        unfold countSlot
        rw [State.slot_updSlot_same]
      · unfold countSlot
        rw [State.slot_updSlot_ne _ _ _ hm]
    have ended := endDrain_serves (n := n)
      (s := countSlot n (fun c => { c with drainsCompleted := count32 c.drainsCompleted }) s)
      (fun m hm => (counted m).trans (listed m hm)) ((counted n).trans h.1) h.2
    refine ⟨ended.listed, fun m stays => ?_, ?_, ended.out⟩
    · have other : m ≠ n := by
        rintro rfl
        have busy := stays.2 h.1
        rw [h.2] at busy
        cases busy
      exact (Calm.updSlot_ne other _ s).toAway.trans
        (ended.away m ⟨by rw [counted]; exact stays.1, fun draining => stays.2 (by rw [← counted]; exact draining)⟩)
    · rcases ended.moves with ⟨quiet, same⟩ | ⟨m, moved, settled⟩
      · exact .inl ⟨(Tame.updSlot n n _ s).quiet.trans quiet, fun m => (same m).trans (counted m)⟩
      · exact .inr ⟨m, by rw [← counted m]; exact moved, settled⟩
  · exact .refl listed

theorem checkDrains_serves {s : State} (listed : s.Listed) : Serves s (checkDrains s) := by
  unfold checkDrains forSlots
  generalize allSlots = slots
  induction slots generalizing s with
  | nil => exact .refl listed
  | cons n ns ih => exact (checkDrain_serves n listed).trans (ih (checkDrain_serves n listed).listed)

end Sys2Proof.Machine
end

section
/-! The faults of a slot that is linked or up, and the failed bring-up attempts that end in one. -/

namespace Sys2Proof.Machine

/-! ### A fault of a slot that is linked or up -/

/-- A slot whose port is in use: it is LINKING or up. -/
def State.Linked (s : State) (n : Slot) : Prop := (s.slot n).state = .linking ∨ (s.slot n).state.isUp = true

theorem State.Linked.poweredOn {s : State} {n : Slot} (h : s.Linked n) : (s.slot n).state.poweredOn = true := by
  unfold State.Linked at h
  revert h
  cases (s.slot n).state <;> simp [SlotState.isUp, SlotState.poweredOn]

theorem State.Linked.not_waiting {s : State} {n : Slot} (h : s.Linked n) : (s.slot n).state ≠ .waitingPower := by
  intro waits
  have on := h.poweredOn
  rw [waits] at on
  cases on

/-- Such a slot leaves its power with its port taken down. -/
theorem State.Linked.leavePower {s : State} {n : Slot} (h : s.Linked n) :
    leavePower n s = releasePower n (takeDown n s) := by
  unfold State.Linked at h
  unfold Sys2Proof.Machine.leavePower
  revert h
  cases (s.slot n).state <;> simp [SlotState.isUp]

theorem leavePower_slot_ne {n m : Slot} (other : m ≠ n) (s : State) : (leavePower n s).slot m = s.slot m :=
  (leavePower_calm other s).slot

/-- The record of a slot as its port is taken down and its power released, which its entry to another state follows. -/
theorem State.Linked.left {s : State} {n : Slot} (h : s.Linked n) : (Sys2Proof.Machine.leavePower n s).slot n =
    { s.slot n with
      softStart := none, drainTimer := none
      width := if (s.port n).reportedWidth = none then (s.slot n).width else none } := by
  have width : ((Sys2Proof.Machine.leavePower n s).slot n).width =
      if (s.port n).reportedWidth = none then (s.slot n).width else none := by
    rw [h.leavePower, ← takeDown_width]
    unfold State.slot
    rw [releasePower_slots, Table.read_write_same]
    rfl
  rw [leavePower_slot h.poweredOn, width]

theorem State.Linked.left_port {s : State} {n : Slot} (h : s.Linked n) : (Sys2Proof.Machine.leavePower n s).port n =
    { s.port n with
      link := .down, cardHold := false, trainingDeadline := none, transmission := none, testUnsent := [], testNext := 16
      testDeadline := none, assembly := none, workingWidth := none, lanesInUse := [], reportedWidth := none
      pauseAsserted := ((Sys2Proof.Machine.leavePower n s).sq n).paused } := by
  have port (t : State) : (releasePower n t).port n = t.port n := rfl
  have sq (t : State) : (releasePower n t).sq n = t.sq n := rfl
  rw [h.leavePower, port, sq, takeDown, stopPort_port n (by decide)]

/-- The state in which a faulted slot's change is reported. -/
def State.faulting (n : Slot) (reason : FaultReason) (kind : Option SidebandOutcome) (s : State) : State :=
  (Sys2Proof.Machine.leavePower n s).updSlot n fun r =>
    { r with
      fault := some reason, failureKind := kind
      pullGuard := (s.slot n).state.poweredOn && r.pullGuard && !r.lines.rawPresent
      counters := { r.counters with faults := count32 r.counters.faults } }

theorem enterFaulted_eq (n : Slot) (reason : FaultReason) (kind : Option SidebandOutcome) (s : State) :
    enterFaulted n reason kind s = changeSlot n .faulted (some reason) (s.faulting n reason kind) := rfl

theorem faulting_slot {n : Slot} {s : State} (h : s.Linked n) (reason : FaultReason) (kind : Option SidebandOutcome) :
    (s.faulting n reason kind).slot n = { s.slot n with
      fault := some reason, failureKind := kind, softStart := none, drainTimer := none
      pullGuard := (s.slot n).state.poweredOn && (s.slot n).pullGuard && !(s.slot n).lines.rawPresent
      width := if (s.port n).reportedWidth = none then (s.slot n).width else none
      counters := { (s.slot n).counters with faults := count32 (s.slot n).counters.faults } } := by
  unfold State.faulting
  rw [State.slot_updSlot_same, h.left]

theorem faulting_tame (n : Slot) (reason : FaultReason) (kind : Option SidebandOutcome) (s : State) :
    Tame n s (s.faulting n reason kind) :=
  (leavePower_tame n n s).trans (.updSlot ..)

/-- A slot that is LINKING or up is faulted: its record and its port (R2, R131, R132). -/
theorem enterFaulted_slot {n : Slot} {s : State} (h : s.Linked n) (reason : FaultReason) (kind : Option SidebandOutcome) :
    (enterFaulted n reason kind s).slot n = { s.slot n with
      state := .faulted, fault := some reason, failureKind := kind, softStart := none, drainTimer := none
      pullGuard := (s.slot n).state.poweredOn && (s.slot n).pullGuard && !(s.slot n).lines.rawPresent
      width := if (s.port n).reportedWidth = none then (s.slot n).width else none
      lines := { (s.slot n).lines with powerEnable := false, removeLamp := true }
      counters := { (s.slot n).counters with faults := count32 (s.slot n).counters.faults } } := by
  rw [enterFaulted_eq, changeSlot_slot, faulting_slot h]
  rfl

theorem enterFaulted_slot_ne {n m : Slot} (other : m ≠ n) (reason : FaultReason) (kind : Option SidebandOutcome)
    (s : State) : (enterFaulted n reason kind s).slot m = s.slot m := by
  rw [enterFaulted_eq, changeSlot_slot_ne other]
  unfold State.faulting
  rw [State.slot_updSlot_ne _ _ _ other, leavePower_slot_ne other]

theorem enterFaulted_port {n : Slot} {s : State} (h : s.Linked n) (reason : FaultReason) (kind : Option SidebandOutcome) :
    (enterFaulted n reason kind s).port n = { s.port n with
      link := .down, cardHold := false, trainingDeadline := none, transmission := none, testUnsent := [], testNext := 16
      testDeadline := none, assembly := none, workingWidth := none, lanesInUse := [], reportedWidth := none
      pauseAsserted := ((enterFaulted n reason kind s).port n).pauseAsserted } := by
  have left : (s.faulting n reason kind).port n = _ := h.left_port
  have stands := changeSlot_stands n (new := .faulted) (by decide) (some reason) (s.faulting n reason kind)
  have idle := stands.idle (by rw [left]; simp)
  rw [enterFaulted_eq, stands.port, idle, left]

/-- The queues, the pause and the hold of a slot that was up end, and its stall count stays (R56, R58). -/
theorem enterFaulted_sq {n : Slot} {s : State} (up : (s.slot n).state.isUp = true) (reason : FaultReason)
    (kind : Option SidebandOutcome) :
    let q := (enterFaulted n reason kind s).sq n
    q.queues = .empty ∧ q.paused = false ∧ q.hold = .none ∧ q.holdTimer = none := by
  have falls : (((s.faulting n reason kind).slot n).state.isUp && !SlotState.faulted.isUp) = true := by
    rw [faulting_slot (.inr up)]
    simp only [up]
    rfl
  obtain ⟨queues, paused, hold, timer, -⟩ := changeSlot_sq_fallen falls (by decide) (some reason)
  exact ⟨queues, paused, hold, timer⟩

theorem enterFaulted_listed {n : Slot} {s : State} (h : s.Linked n) (listed : s.Listed) (reason : FaultReason)
    (kind : Option SidebandOutcome) : (enterFaulted n reason kind s).Listed := fun m hm => by
  rw [enterFaulted_waitingList] at hm
  rw [enterFaulted_slot_ne]
  · exact listed m hm
  · rintro rfl
    exact h.not_waiting (listed m hm)

/-- The fault of a slot that is LINKING or up serves the slots that wait, after its own change. -/
theorem faultSlot_serves {n : Slot} {s : State} (h : s.Linked n) (listed : s.Listed) (reason : FaultReason)
    (kind : Option SidebandOutcome) : Serves (enterFaulted n reason kind s) (faultSlot n reason kind s) := by
  have served : faultSlot n reason kind s = servePower (enterFaulted n reason kind s) := if_pos h.poweredOn
  rw [served]
  exact servePower_serves (enterFaulted_listed h listed reason kind)

/-- After the fault, and whatever drains end with it, the slot is as its own change left it. -/
theorem faulted_away {n : Slot} {s t : State} {reason : FaultReason} {kind : Option SidebandOutcome}
    (serves : Serves (enterFaulted n reason kind s) t) : Away true n (enterFaulted n reason kind s) t :=
  serves.away n ⟨by rw [enterFaulted_state]; decide, fun h => by rw [enterFaulted_state] at h; cases h⟩

/-- The agent follows a fault (R181, R182). -/
theorem faulted_agentFollows {n : Slot} {s₀ s t : State} {reason : FaultReason} {kind : Option SidebandOutcome}
    (before : Tame n s₀ s) (same : (s.slot n).state = (s₀.slot n).state) (identity : (s.slot n).identity = (s₀.slot n).identity)
    (others : ∀ m, m ≠ n → (s.slot m).state = (s₀.slot m).state) (h : s.Linked n)
    (serves : Serves (enterFaulted n reason kind s) t) : AgentFollows n .faulted s₀ t := by
  have record := faulting_slot h reason kind
  have change := changeSlot_tame n n (new := .faulted) (by decide) (some reason) (s.faulting n reason kind)
  refine agentFollows_of_change (before.trans (faulting_tame n reason kind s)) ?_ ?_
    (change.agent.trans (faulted_away serves).agent) fun still => ?_
  · rw [record]
    exact same
  · rw [record]
    exact identity
  · refine change.quiet.trans ?_
    rcases serves.moves with ⟨quiet, -⟩ | ⟨m, moved, settled⟩
    · exact quiet
    · exfalso
      by_cases hm : m = n
      · subst hm
        rw [enterFaulted_state] at moved
        exact moved ⟨by decide, by decide⟩
      · rw [enterFaulted_slot_ne hm] at moved
        rw [still m hm, ← others m hm] at settled
        exact moved settled

/-! ### A failed attempt -/

/-- The state as a bring-up attempt has ended in failure, before what follows it (R5; LOG 36, 40). -/
def State.attemptEnded (p : Slot) (s : State) : State :=
  let b := s.pausedWithout p
  { s with
    ports := s.ports.write p { s.portTold p b with
      trainingDeadline := none, testDeadline := none, testUnsent := [], testNext := 16, testProgress := 0
      assembly := none
      transmission := match (s.port p).transmission with
        | some (.test _ _) => none
        | x => x
      counters := { (s.port p).counters with failedAttempts := oneMore (s.port p).counters.failedAttempts } }
    qm := { s.qm with
      waiting := s.qm.waiting.filter (· ≠ .test p), slot := s.qm.slot.write p { s.sq p with paused := b } } }

/-- The clearing of a port whose attempt failed, in one update (R5; LOG 36, 40). -/
theorem attemptEnded_eq {p : Slot} {s : State} (down : (s.port p).link ≠ .up) :
    discardAssembly p (withdrawMaker (.test p) (s.updPort p fun q => { q with
      trainingDeadline := none, testDeadline := none, testUnsent := [], testNext := 16, testProgress := 0
      transmission := match (s.port p).transmission with
        | some (.test _ _) => none
        | x => x
      counters := { q.counters with failedAttempts := oneMore q.counters.failedAttempts } })) = s.attemptEnded p := by
  let t := withdrawMaker (.test p) (s.updPort p fun q => { q with
      trainingDeadline := none, testDeadline := none, testUnsent := [], testNext := 16, testProgress := 0
      transmission := match (s.port p).transmission with
        | some (.test _ _) => none
        | x => x
      counters := { q.counters with failedAttempts := oneMore q.counters.failedAttempts } })
  have port : t.port p = _ := State.port_updPort_same ..
  have cells : (t.port p).assemblyCells = (s.port p).assemblyCells := by rw [port]; rfl
  have paused : t.pausedWithout p = s.pausedWithout p := by
    unfold State.pausedWithout State.heldCells
    rw [cells]
    rfl
  have quiet : t.symbolsTold p (t.pausedWithout p) = [] := by
    unfold State.symbolsTold
    rw [port]
    exact if_pos (.inr (.inr down))
  have ports (q : Port) : t.ports.write p q = s.ports.write p q := Table.write_write ..
  have told (b : Bool) : { t.portTold p b with assembly := none } = { s.portTold p b with
      trainingDeadline := none, testDeadline := none, testUnsent := [], testNext := 16, testProgress := 0
      assembly := none
      transmission := match (s.port p).transmission with
        | some (.test _ _) => none
        | x => x
      counters := { (s.port p).counters with failedAttempts := oneMore (s.port p).counters.failedAttempts } } := by
    unfold State.portTold
    rw [port, show t.sq p = s.sq p from rfl]
    split <;> rfl
  have waiting : (s.qm.waiting.filter fun m => decide (m ≠ .test p)) = s.qm.waiting.filter (· != .test p) :=
    List.filter_congr fun m _ => by rw [Bool.eq_iff_iff]; simp
  rw [discardAssembly_eq, ports, told, quiet, paused, List.append_nil]
  unfold State.attemptEnded
  dsimp only
  rw [waiting]
  rfl

/-- What a failed attempt is followed by: the next one, whose training fails at once where it has no target, or the end of
the bring-up (R3, R5). -/
theorem failAttempt_eq (k : Nat) {p : Slot} {s : State} (down : (s.port p).link ≠ .up) :
    failAttempt k p s =
      if (s.port p).attempt < 3 then
        let again := enterTraining p ((s.attemptEnded p).updPort p fun q => { q with attempt := q.attempt + 1 })
        match k with
        | 0 => again
        | k + 1 => if trainingTarget again p = 0 then failAttempt k p again else again
      else giveUp p (s.attemptEnded p) := by
  have counted : (countLink p (fun c => { c with failedAttempts := count32 c.failedAttempts }) s).port p =
      { s.port p with counters := { (s.port p).counters with
        failedAttempts := oneMore (s.port p).counters.failedAttempts } } := State.port_updPort_same ..
  have attempt : ((s.attemptEnded p).port p).attempt = (s.port p).attempt := by
    unfold State.port State.attemptEnded State.portTold
    dsimp only
    rw [Table.read_write_same]
    split <;> rfl
  have cleared (c : State) (cut : c = s.updPort p fun q => { q with
      transmission := match (s.port p).transmission with
        | some (.test _ _) => none
        | x => x
      counters := { q.counters with failedAttempts := oneMore q.counters.failedAttempts } }) :
      discardAssembly p ((dropTests p c).updPort p fun q => { q with trainingDeadline := none, testProgress := 0 }) =
        s.attemptEnded p := by
    have merged : (dropTests p c).updPort p (fun q => { q with trainingDeadline := none, testProgress := 0 }) =
        withdrawMaker (.test p) ((c.updPort p fun q =>
          { q with testUnsent := [], testNext := 16, testDeadline := none }).updPort p fun q =>
          { q with trainingDeadline := none, testProgress := 0 }) := rfl
    rw [← attemptEnded_eq down, merged, cut, updPort_updPort, updPort_updPort]
  conv_lhs => unfold failAttempt
  dsimp only
  rw [cleared]
  · exact attempt ▸ rfl
  · rw [counted]
    dsimp only
    unfold countLink
    cases h : (s.port p).transmission with
    | none =>
      dsimp only
      rw [updPort_eq_write, updPort_eq_write, ← h]
      rfl
    | some x =>
      cases x <;> dsimp only
      · rw [updPort_eq_write, updPort_eq_write, ← h]
        rfl
      · rw [updPort_updPort]
        rfl

theorem attemptEnded_port (p : Slot) (s : State) : (s.attemptEnded p).port p = { s.port p with
    trainingDeadline := none, testDeadline := none, testUnsent := [], testNext := 16, testProgress := 0, assembly := none
    pauseAsserted := (s.portTold p (s.pausedWithout p)).pauseAsserted
    transmission := ((s.attemptEnded p).port p).transmission
    counters := { (s.port p).counters with failedAttempts := oneMore (s.port p).counters.failedAttempts } } := by
  unfold State.port State.attemptEnded State.portTold
  dsimp only
  rw [Table.read_write_same]
  split <;> rfl

/-- The next attempt begins (R3, R5). -/
def State.nextAttempt (p : Slot) (s : State) : State :=
  enterTraining p ((s.attemptEnded p).updPort p fun q => { q with attempt := q.attempt + 1 })

theorem nextAttempt_port (p : Slot) (s : State) : (s.nextAttempt p).port p = { (s.attemptEnded p).port p with
    link := .training, attempt := (s.port p).attempt + 1, trained := [], workingWidth := none, lanesInUse := []
    trainingDeadline := some (s.time.localTicks + 250000) } := by
  unfold State.nextAttempt enterTraining
  rw [State.port_updPort_same, State.port_updPort_same, attemptEnded_port]
  rfl

theorem nextAttempt_eq {p : Slot} {s : State} (fresh : s.out = []) : s.nextAttempt p = s.trainsAgain p := by
  have told : (s.portTold p (s.pausedWithout p)).attempt = (s.port p).attempt := by
    unfold State.portTold
    split <;> rfl
  have ports : (s.nextAttempt p).ports = (s.trainsAgain p).ports := by
    unfold State.nextAttempt enterTraining
    rw [updPort_updPort, updPort_eq_write]
    show (s.attemptEnded p).ports.write p _ = _
    unfold State.attemptEnded State.port
    dsimp only
    rw [Table.write_write, Table.read_write_same, told]
    rfl
  have rest : s.nextAttempt p = { s.trainsAgain p with ports := (s.nextAttempt p).ports, out := s.out } := rfl
  rw [rest, ports, fresh]
  rfl

/-- The training target is 0 exactly where no lane is GOOD, a card having a lane (R3; LOG 41). -/
theorem trainingTarget_eq_zero (s : State) (p : Slot) :
    trainingTarget s p = 0 ↔ ∀ l : Lane, (s.port p).laneGood.read l = false := by
  have lanes : 1 ≤ s.laneCapability p := Nat.le_max_left ..
  have every : ∀ l : Lane, l ∈ allLanes := by decide
  unfold trainingTarget
  rw [Nat.min_eq_zero_iff, List.length_eq_zero_iff, List.filter_eq_nil_iff]
  refine ⟨fun h l => ?_, fun h => .inr fun l _ => by rw [h l]; decide⟩
  simpa using (h.resolve_left (by omega)) l (every l)

/-- A failed attempt that is not the last, with a GOOD lane left, is followed by the next (R5). -/
theorem attemptFails_again {p : Slot} {s : State} (down : (s.port p).link ≠ .up) (few : (s.port p).attempt < 3)
    (good : ∃ l : Lane, (s.port p).laneGood.read l = true) : attemptFails p s = s.nextAttempt p := by
  have target : trainingTarget (s.nextAttempt p) p ≠ 0 := fun none => by
    obtain ⟨l, hl⟩ := good
    have bad := (trainingTarget_eq_zero _ _).1 none l
    rw [nextAttempt_port, attemptEnded_port] at bad
    exact absurd (bad.symm.trans hl) (by decide)
  unfold attemptFails
  rw [failAttempt_eq 3 down, if_pos few]
  exact if_neg target

theorem attemptEnded_slots (p : Slot) (s : State) : (s.attemptEnded p).slots = s.slots := rfl

theorem attemptEnded_tame (n p : Slot) (s : State) : Tame n s (s.attemptEnded p) :=
  .of_same (List.prefix_refl _) rfl rfl (by simp [State.attemptEnded])

theorem nextAttempt_tame (n p : Slot) (s : State) : Tame n s (s.nextAttempt p) :=
  ((attemptEnded_tame n p s).trans (.updPort ..)).trans (.updPort ..)

/-! ### The end of a bring-up -/

/-- The state with which a bring-up is given up: from a state with a number of attempts failed and no other change that the
slot controller, the agent or the lanes would see (R5). -/
structure Exhausted (p : Slot) (failures : Nat) (s t : State) : Prop where
  slots : t.slots = s.slots
  tame : Tame p s t
  laneGood : (t.port p).laneGood = (s.port p).laneGood
  reportedWidth : (t.port p).reportedWidth = (s.port p).reportedWidth
  counters : (t.port p).counters = { (s.port p).counters with
    failedAttempts := min ((s.port p).counters.failedAttempts + failures) (2 ^ 32 - 1) }

theorem attemptEnded_exhausted (p : Slot) (s : State) : Exhausted p 1 s (s.attemptEnded p) where
  slots := rfl
  tame := attemptEnded_tame ..
  laneGood := by rw [attemptEnded_port]
  reportedWidth := by rw [attemptEnded_port]
  counters := by rw [attemptEnded_port]; rfl

/-- Attempts that fail at once, one after another, exhaust the bring-up (R3, R5). -/
theorem failAttempt_exhausts (k : Nat) {p : Slot} {s : State} (down : (s.port p).link ≠ .up)
    (enough : 3 ≤ (s.port p).attempt + k)
    (none : (s.port p).attempt < 3 → ∀ l : Lane, (s.port p).laneGood.read l = false) :
    ∃ t, failAttempt k p s = giveUp p t ∧ Exhausted p (max 1 (4 - (s.port p).attempt)) s t := by
  induction k generalizing s with
  | zero =>
    rw [failAttempt_eq 0 down, if_neg (by omega)]
    refine ⟨_, rfl, ?_⟩
    rw [show max 1 (4 - (s.port p).attempt) = 1 by omega]
    exact attemptEnded_exhausted p s
  | succ k ih =>
    rw [failAttempt_eq (k + 1) down]
    by_cases few : (s.port p).attempt < 3
    · rw [if_pos few]
      have port := nextAttempt_port p s
      have lanes : ∀ l : Lane, ((s.nextAttempt p).port p).laneGood.read l = false := by
        rw [port, attemptEnded_port]
        exact none few
      obtain ⟨t, gives, ended⟩ := ih (s := s.nextAttempt p) (by rw [port]; simp) (by rw [port]; dsimp only; omega)
        fun _ => lanes
      refine ⟨t, ?_, ?_⟩
      · rw [← gives]
        exact if_pos ((trainingTarget_eq_zero _ _).2 lanes)
      · have first := attemptEnded_exhausted p s
        refine ⟨ended.slots, (nextAttempt_tame p p s).trans ended.tame, ?_, ?_, ?_⟩
        · rw [ended.laneGood, port]
          exact first.laneGood
        · rw [ended.reportedWidth, port]
          exact first.reportedWidth
        · rw [ended.counters, port, first.counters]
          dsimp only
          congr 1
          omega
    · rw [if_neg few]
      refine ⟨_, rfl, ?_⟩
      rw [show max 1 (4 - (s.port p).attempt) = 1 by omega]
      exact attemptEnded_exhausted p s

theorem setReportedWidth_slot_ne {p n : Slot} (other : n ≠ p) (w : Option Width) (s : State) :
    (setReportedWidth p w s).slot n = s.slot n :=
  (setReportedWidth_calm (mv := true) other w s).slot

theorem setReportedWidth_slot (p : Slot) (w : Option Width) (s : State) :
    (setReportedWidth p w s).slot p = { s.slot p with
      width := if (s.port p).reportedWidth = w then (s.slot p).width else w } := by
  unfold State.slot
  rw [setReportedWidth_slots]
  split
  · rfl
  · rw [Table.read_write_same]
    rfl

theorem setReportedWidth_state (p n : Slot) (w : Option Width) (s : State) :
    ((setReportedWidth p w s).slot n).state = (s.slot n).state := by
  by_cases h : n = p
  · subst h
    rw [setReportedWidth_slot]
  · rw [setReportedWidth_slot_ne h]

theorem setReportedWidth_waitingList (p : Slot) (w : Option Width) (s : State) :
    (setReportedWidth p w s).slots.waitingList = s.slots.waitingList := by
  rw [setReportedWidth_slots]
  split <;> rfl

theorem State.Listed.setReportedWidth {s : State} (listed : s.Listed) (p : Slot) (w : Option Width) :
    (setReportedWidth p w s).Listed := fun m hm => by
  rw [setReportedWidth_waitingList] at hm
  rw [setReportedWidth_state]
  exact listed m hm

/-- A port that gives its bring-up up at a slot in LINKING or up faults the slot, its width reported absent first. -/
theorem giveUp_eq {p : Slot} {s t : State} (slots : t.slots = s.slots) (h : s.Linked p) (listed : s.Listed) :
    let w := setReportedWidth p none (t.updPort p fun q => { q with link := .down })
    giveUp p t = faultSlot p .link none w ∧ w.Linked p ∧ w.Listed := by
  intro w
  have same (m : Slot) : (t.updPort p fun q => { q with link := .down }).slot m = s.slot m := by
    show t.slot m = _
    unfold State.slot
    rw [slots]
  have linked : w.Linked p := by
    unfold State.Linked
    rw [setReportedWidth_state, same]
    exact h
  exact ⟨if_pos linked, linked, State.Listed.setReportedWidth (s := t.updPort p fun q => { q with link := .down })
    (fun m hm => by
      rw [same]
      exact listed m (by rw [← slots]; exact hm)) p none⟩

theorem giveUp_listed {p : Slot} {s t : State} (slots : t.slots = s.slots) (h : s.Linked p) (listed : s.Listed) :
    (giveUp p t).Listed := by
  obtain ⟨gives, linked, listed'⟩ := giveUp_eq slots h listed
  rw [gives]
  exact (faultSlot_serves linked listed' .link none).listed

/-- What a port that gives its bring-up up at a slot in LINKING or up comes to, with the grants and the ends of drains that
follow (R5, R131, R132). -/
theorem giveUp_givesUp {p : Slot} {failures : Nat} {s t u : State} (exhausted : Exhausted p failures s t) (h : s.Linked p)
    (listed : s.Listed) (after : Serves (giveUp p t) u) : GivesUp p failures s u := by
  let d := t.updPort p fun q => { q with link := .down }
  let w := setReportedWidth p none d
  obtain ⟨gives, linked, listed'⟩ : giveUp p t = faultSlot p .link none w ∧ w.Linked p ∧ w.Listed :=
    giveUp_eq exhausted.slots h listed
  have same (m : Slot) : d.slot m = s.slot m := by
    show t.slot m = _
    unfold State.slot
    rw [exhausted.slots]
  have down : d.port p = { t.port p with link := .down } := State.port_updPort_same ..
  have state (m : Slot) : (w.slot m).state = (s.slot m).state := by rw [setReportedWidth_state, same]
  have record : w.slot p = { s.slot p with
      width := if (s.port p).reportedWidth = none then (s.slot p).width else none } := by
    rw [setReportedWidth_slot, same, down]
    dsimp only
    rw [exhausted.reportedWidth]
  have port : w.port p = { d.port p with reportedWidth := none, transmission := (w.port p).transmission } :=
    setReportedWidth_port p none d
  have serves : Serves (enterFaulted p .link none w) u := (faultSlot_serves linked listed' .link none).trans (gives ▸ after)
  have away := faulted_away serves
  have finalSlot := away.slot.trans (enterFaulted_slot linked .link none)
  have finalPort := enterFaulted_port linked .link none
  refine ⟨?_, ?_, ?_, ?_, ?_, ?_, ?_, fun width => ?_, ?_, ?_, fun up => ?_, ?_⟩
  · rw [away.port, finalPort]
  · rw [away.port, finalPort]
  · rw [away.port, finalPort]
  · rw [away.port, finalPort, port, down]
    exact exhausted.laneGood
  · rw [away.port, finalPort, port, down]
    exact exhausted.counters
  · rw [finalSlot]
  · rw [finalSlot]
  · rw [finalSlot, port]
    dsimp only
    rw [if_pos rfl, record]
    dsimp only
    rw [width]
    split
    · next none => exact none
    · rfl
  · rw [finalSlot]
  · rw [finalSlot, record]
    rfl
  · refine away.empty ?_ (enterFaulted_sq (by rw [state]; exact up) .link none).1
    rw [enterFaulted_state]
    rfl
  · refine faulted_agentFollows ?_ (state p) (by rw [record]) (fun m _ => state m) linked serves
    exact exhausted.tame.trans ((Tame.updPort p p _ t).trans (setReportedWidth_tame ..))

/-! ### The two deadlines -/

/-- A failed attempt takes the training deadline with it, whether it still ran or not. -/
theorem attemptFails_deadline {p : Slot} {s : State} (down : (s.port p).link ≠ .up) :
    attemptFails p (s.updPort p fun q => { q with trainingDeadline := none }) = attemptFails p s := by
  let t := s.updPort p fun q => { q with trainingDeadline := none }
  have port : t.port p = { s.port p with trainingDeadline := none } := State.port_updPort_same ..
  have paused : t.pausedWithout p = s.pausedWithout p := by
    unfold State.pausedWithout State.heldCells
    rw [port]
    rfl
  have told (b : Bool) : t.portTold p b = { s.portTold p b with trainingDeadline := none } := by
    unfold State.portTold
    rw [port]
    split <;> split <;> first | rfl | contradiction
  have ended : t.attemptEnded p = s.attemptEnded p := by
    unfold State.attemptEnded
    dsimp only
    rw [paused, told, port, show t.ports = s.ports.write p { s.port p with trainingDeadline := none } from rfl,
      Table.write_write]
    rfl
  unfold attemptFails
  rw [failAttempt_eq 3 down, failAttempt_eq 3 (by rw [port]; exact down), ended, port]

theorem trainingExpiry_fails {p : Slot} {s : State} (training : (s.port p).link = .training)
    (runs : (s.port p).trainingDeadline.isSome = true) (none : (s.port p).trained = []) :
    trainingExpiry p s = attemptFails p s := by
  unfold trainingExpiry endTraining
  dsimp only
  rw [if_pos ⟨training, runs⟩, State.port_updPort_same]
  dsimp only
  rw [none, attemptFails_deadline (by rw [training]; decide)]
  rfl

theorem testExpiry_fails {p : Slot} {s : State} (testing : (s.port p).link = .testing)
    (runs : (s.port p).testDeadline.isSome = true) : testExpiry p s = attemptFails p s :=
  if_pos ⟨testing, runs⟩

theorem trainsAgain_begin (p : Slot) (s : State) : s.begin.trainsAgain p = s.trainsAgain p := rfl

/-- What a failed attempt on a port that is not UP ends in: the next attempt, or the end of the bring-up (R5). -/
theorem attemptFails_ends {p : Slot} {s : State} (down : (s.port p).link ≠ .up) :
    ((s.port p).attempt < 3 → (∃ l : Lane, (s.port p).laneGood.read l = true) →
      attemptFails p s.begin = s.trainsAgain p) ∧
    (3 ≤ (s.port p).attempt → s.Linked p → s.Listed → GivesUp p 1 s (checkDrains (attemptFails p s.begin))) := by
  refine ⟨fun few good => ?_, fun last linked listed => ?_⟩
  · rw [attemptFails_again (s := s.begin) down few good, nextAttempt_eq rfl, trainsAgain_begin]
  · obtain ⟨t, gives, exhausted⟩ := failAttempt_exhausts 3 (s := s.begin) down (by rw [State.port_begin]; omega)
      fun few => absurd few (by rw [State.port_begin]; omega)
    rw [State.port_begin, show max 1 (4 - (s.port p).attempt) = 1 by omega] at exhausted
    unfold attemptFails
    rw [gives]
    exact giveUp_givesUp (s := s.begin) exhausted linked listed
      (checkDrains_serves (giveUp_listed (s := s.begin) exhausted.slots linked listed))

/-- Settles O25: both deadlines fail the attempt, and a failed attempt ends so. -/
theorem failedAttemptTrainsAgainOrGivesUp : Obligations.FailedAttemptTrainsAgainOrGivesUp := by
  rintro p s i expires
  have fails : (s.port p).link ≠ .up ∧ exec i s = .next (checkDrains (attemptFails p s.begin)) := by
    rcases expires with ⟨rfl, testing, runs⟩ | ⟨rfl, training, runs, none⟩
    · exact ⟨by rw [testing]; decide, congrArg (fun t => Host.Outcome.next (checkDrains t))
        (testExpiry_fails (s := s.begin) testing runs)⟩
    · exact ⟨by rw [training]; decide, congrArg (fun t => Host.Outcome.next (checkDrains t))
        (trainingExpiry_fails (s := s.begin) training runs none)⟩
  obtain ⟨down, run⟩ := fails
  obtain ⟨again, givesUp⟩ := attemptFails_ends down
  refine ⟨fun few good => ?_, fun last linked inv => ⟨_, run, givesUp last linked inv.listed⟩⟩
  rw [run, again few good]

end Sys2Proof.Machine
end

section
/-! The end of training, the entry to TESTING and the failure of a lane. -/

namespace Sys2Proof.Machine

/-! ### The entry to TESTING -/

/-- The state in which a port that enters TESTING asks for the cells of its TEST frames (R4, R6). -/
def State.entersTest (p : Slot) (trained : List Lane) (s : State) : State :=
  let lanes := allLanes.filter fun m => trained.contains m
  let w := Width.largest (min (s.laneCapability p) lanes.length)
  { s with
    ports := s.ports.write p { s.port p with
      link := .testing, trained := trained, trainingDeadline := none, workingWidth := w
      lanesInUse := lanes.take ((w.map Width.lanes).getD 0), testProgress := 0
      testDeadline := some (s.time.localTicks + 125000), testUnsent := [], testNext := 0 }
    out := [] }

theorem entersTest_port (p : Slot) (trained : List Lane) (s : State) :
    let lanes := allLanes.filter fun m => trained.contains m
    let w := Width.largest (min (s.laneCapability p) lanes.length)
    (s.entersTest p trained).port p = { s.port p with
      link := .testing, trained := trained, trainingDeadline := none, workingWidth := w
      lanesInUse := lanes.take ((w.map Width.lanes).getD 0), testProgress := 0
      testDeadline := some (s.time.localTicks + 125000), testUnsent := [], testNext := 0 } :=
  Table.read_write_same ..

/-- Training that ends with trained lanes enters TESTING (R3, R4, R6). -/
theorem endTraining_enters {p : Slot} {trained : List Lane} (some : trained ≠ []) (s : State) :
    endTraining p (s.begin.updPort p fun q => { q with trained := trained }) =
      startTest p (buildTests 16 p (s.entersTest p trained)) := by
  unfold endTraining
  dsimp only
  rw [updPort_updPort, State.port_updPort_same]
  dsimp only
  rw [if_neg (by simpa using some)]
  unfold enterTesting selectWidth
  dsimp only
  rw [updPort_updPort, updPort_updPort, State.port_updPort_same]
  rfl

/-- A port without TEST frames that enters TESTING leaves the reserve as it is. -/
theorem entersTest_reserveFree {p : Slot} {s : State} (trained : List Lane) (unsent : (s.port p).testUnsent = [])
    (idle : (s.port p).transmission = none) : (s.entersTest p trained).reserveFree = s.reserveFree := by
  have cells (q : Slot) : ((s.entersTest p trained).port q).testCells = (s.port q).testCells := by
    by_cases h : q = p
    · subst h
      rw [entersTest_port]
      unfold Port.testCells
      rw [unsent]
    · exact congrArg Port.testCells (Table.read_write_ne _ _ h)
  unfold State.reserveFree State.reserveUsed
  simp only [cells]
  rfl

/-- A port asks for no more TEST frames than it lacks (R6). -/
theorem buildTests_enough {m : Nat} {p : Slot} {s : State} (enough : 16 - (s.port p).testNext ≤ m) :
    buildTests (m + 1) p s = buildTests m p s := by
  induction m generalizing s with
  | zero => exact buildTests_of_done 1 (by omega)
  | succ m ih =>
    conv_lhs => unfold buildTests
    conv_rhs => unfold buildTests
    rw [ih (by rw [buildTest_port]; dsimp only; omega)]

/-- TEST frames are built as far as the reserve goes, and where another maker waits none is (R6, R46). -/
theorem buildTests_of_fresh {p : Slot} {s : State} (fresh : (s.port p).testNext = 0) :
    (s.qm.waiting = [] → buildTests 16 p s = (s.testsBuilt (min 16 s.reserveFree) p).withWaiting
      (if min 16 s.reserveFree < 16 then [.test p] else [])) ∧
    (s.qm.waiting ≠ [] → buildTests 16 p s = joinWaiting (.test p) s) := by
  constructor
  · intro none
    rw [← buildTests_enough (by omega), buildTests_of_none_waiting none (by omega), fresh, Nat.zero_add]
  · intro waits
    have refused : reserveGrants s 1 = false := by
      unfold reserveGrants
      rw [List.isEmpty_eq_false_iff.2 waits]
      rfl
    unfold buildTests
    rw [if_pos (by omega), refused]
    rfl

/-- Frame 0 starts at once where it is built, and no frame starts where none is (R6). -/
theorem startTest_first {p : Slot} {s : State} {w : Width} (n : Nat) (list : List Maker)
    (unsent : (s.port p).testUnsent = []) (fresh : (s.port p).testNext = 0) (testing : (s.port p).link = .testing)
    (idle : (s.port p).transmission = none) (width : (s.port p).workingWidth = some w) :
    startTest p ((s.testsBuilt (n + 1) p).withWaiting list) = { s with
      ports := s.ports.write p { s.port p with
        testUnsent := List.range' 1 n, testNext := n + 1
        transmission := some (.test 0 (s.nowNs + wireTime 64 w)) }
      qm := { s.qm with waiting := list }
      out := s.out ++ [frameOutput p (s.port p).lanesInUse (testBytes p (s.port p).attempt 0)] } := by
  have port : ((s.testsBuilt (n + 1) p).withWaiting list).port p = { s.port p with
      testUnsent := 0 :: List.range' 1 n, testNext := n + 1 } := by
    rw [show ((s.testsBuilt (n + 1) p).withWaiting list).port p = (s.testsBuilt (n + 1) p).port p from rfl,
      testsBuilt_port, unsent, fresh, List.range'_succ]
    simp
  rw [startTest_sends (by rw [port]) (by rw [port]; exact testing) (by rw [port]; exact idle) (by rw [port]; exact width),
    updPort_eq_write, port]
  unfold State.withWaiting State.testsBuilt State.emit
  dsimp only
  rw [Table.write_write]
  rfl

/-- The largest width within a number of lanes (R4). -/
theorem largest_eq {n : Nat} {w : Width} (fits : w.lanes ≤ n) (most : ∀ v : Width, v.lanes ≤ n → v.lanes ≤ w.lanes) :
    Width.largest n = some w := by
  have four := most .four
  have two := most .two
  unfold Width.largest
  cases w <;> simp only [Width.lanes] at fits four two
  · rw [if_neg (by omega), if_neg (by omega), if_pos fits]
  · rw [if_neg (by omega), if_pos fits]
  · rw [if_pos fits]

/-- A port without TEST frames that ends its training with trained lanes enters TESTING. -/
theorem endTraining_entersTesting {p : Slot} {s : State} {trained : List Lane} (some : trained ≠ [])
    (unsent : (s.port p).testUnsent = []) (idle : (s.port p).transmission = none) :
    EntersTesting p trained s (endTraining p (s.begin.updPort p fun q => { q with trained := trained })) := by
  intro w fits most port first sent
  let lanes := allLanes.filter fun m => trained.contains m
  have enters : s.entersTest p trained = { s with
      ports := s.ports.write p { port with testUnsent := [], testNext := 0 }, out := [] } := by
    unfold State.entersTest
    dsimp only
    rw [largest_eq fits most]
    rfl
  have record : (s.entersTest p trained).port p = { port with testUnsent := [], testNext := 0 } := by
    rw [enters]
    exact Table.read_write_same ..
  have free := entersTest_reserveFree trained unsent idle
  obtain ⟨builds, joins⟩ := buildTests_of_fresh (p := p) (s := s.entersTest p trained) (by rw [record])
  have starts (n : Nat) (list : List Maker) :
      startTest p (((s.entersTest p trained).testsBuilt (n + 1) p).withWaiting list) = { s with
        ports := s.ports.write p { port with testUnsent := List.range' 1 n, testNext := n + 1, transmission := .some first }
        qm := { s.qm with waiting := list }
        out := sent } := by
    rw [startTest_first n list (w := w) (by rw [record]) (by rw [record]) (by rw [record]) (by rw [record]; exact idle)
      (by rw [record]), record, enters]
    dsimp only
    rw [Table.write_write]
    rfl
  rw [endTraining_enters some]
  refine ⟨fun none room => ?_, fun none one few => ?_, fun waits absent => ?_⟩
  · rw [builds none, free, show min 16 s.reserveFree = 15 + 1 by omega, if_neg (by omega), starts, ← none]
    rfl
  · obtain ⟨n, hn⟩ : ∃ n, s.reserveFree = n + 1 := ⟨s.reserveFree - 1, by omega⟩
    rw [builds none, free, show min 16 s.reserveFree = n + 1 by omega, if_pos (by omega), starts, hn, Nat.add_sub_cancel,
      List.range'_eq_map_range]
    simp only [Nat.add_comm 1]
  · have joined : buildTests 16 p (s.entersTest p trained) = joinWaiting (.test p) (s.entersTest p trained) := by
      by_cases none : s.qm.waiting = []
      · have room := waits.resolve_left fun h => h none
        rw [builds none, free, joinWaiting_of_not_mem (s := s.entersTest p trained) absent, room, Nat.min_zero,
          testsBuilt_zero, if_pos (by decide), show (s.entersTest p trained).qm.waiting = [] from none]
        rfl
      · exact joins none
    rw [joined, startTest_of_none_unsent, joinWaiting_of_not_mem (s := s.entersTest p trained) absent, enters]
    · rfl
    · rw [joinWaiting_of_not_mem (s := s.entersTest p trained) absent]
      exact congrArg Port.testUnsent record

/-- Training that ends changes the port alone, but for the entry of the port in the reserve waiting list (R3, R6). -/
theorem endTraining_trains {p : Slot} {trained : List Lane} (some : trained ≠ []) (s : State) :
    let u := endTraining p (s.begin.updPort p fun q => { q with trained := trained })
    (u.port p = { s.port p with
      link := .testing, trained := trained, trainingDeadline := none, testProgress := 0
      workingWidth := (u.port p).workingWidth, lanesInUse := (u.port p).lanesInUse
      testDeadline := (u.port p).testDeadline, testUnsent := (u.port p).testUnsent, testNext := (u.port p).testNext
      transmission := (u.port p).transmission }) ∧
      (∀ q : Slot, q ≠ p → u.port q = s.port q) ∧
      (u.qm = s.qm ∨ u.qm = { s.qm with waiting := s.qm.waiting ++ [.test p] }) ∧
      OnlyChanges [.ports, .qm, .out] s u := by
  intro u
  have record := entersTest_port p trained s
  have enters : u = startTest p (buildTests 16 p (s.entersTest p trained)) := endTraining_enters some s
  have built : ∃ n list, buildTests 16 p (s.entersTest p trained) =
      ((s.entersTest p trained).testsBuilt n p).withWaiting list ∧
        (list = s.qm.waiting ∨ list = s.qm.waiting ++ [.test p]) := by
    obtain ⟨builds, joins⟩ := buildTests_of_fresh (p := p) (s := s.entersTest p trained) (by rw [record])
    by_cases none : s.qm.waiting = []
    · refine ⟨_, _, builds none, ?_⟩
      rw [none]
      split
      · exact .inr rfl
      · exact .inl rfl
    · rw [joins none]
      by_cases entry : Maker.test p ∈ s.qm.waiting
      · refine ⟨0, _, ?_, .inl rfl⟩
        rw [testsBuilt_zero]
        exact if_pos (List.contains_iff_mem.2 entry)
      · refine ⟨0, _, ?_, .inr rfl⟩
        rw [testsBuilt_zero, joinWaiting_of_not_mem (s := s.entersTest p trained) entry]
        rfl
  obtain ⟨n, list, builds, waits⟩ := built
  have port : (((s.entersTest p trained).testsBuilt n p).withWaiting list).port p = _ := testsBuilt_port n p _
  have others (q : Slot) (h : q ≠ p) :
      (((s.entersTest p trained).testsBuilt n p).withWaiting list).port q = s.port q :=
    (Table.read_write_ne _ _ h).trans (Table.read_write_ne _ _ h)
  rw [builds] at enters
  refine ⟨?_, fun q h => ?_, ?_, ?_⟩
  · rw [enters]
    unfold startTest
    dsimp only
    split
    · split
      · rw [State.port_emit, State.port_updPort_same, port, record]
      · rw [port, record]
    · rw [port, record]
  · rw [enters, ← others q h]
    unfold startTest
    dsimp only
    split
    · split
      · exact State.port_updPort_ne _ _ _ h
      · rfl
    · rfl
  · have kept : u.qm = { s.qm with waiting := list } := by
      rw [enters]
      exact (startTest_changes _ _).same .qm (by decide)
    rw [kept]
    exact waits.imp (fun h => by rw [h]) (fun h => by rw [h])
  · rw [enters, ← builds]
    refine OnlyChanges.after (startTest_changes _ _) (OnlyChanges.after (buildTests_changes _ _ _) ?_ rfl) rfl
    intro part
    cases part <;> first | exact .inl (by decide) | exact .inr rfl

/-- Settles O23: the two ends of training with trained lanes, and what does not end it. -/
theorem trainingEndEntersTesting : Obligations.TrainingEndEntersTesting := by
  intro p s good target testing
  refine ⟨fun l training offered fresh => ?_, fun l other => ?_, fun training runs some unsent idle => ?_, fun other => ?_⟩
  · let t := s.begin.updPort p fun q => { q with trained := (s.port p).trained ++ [l] }
    have joins : laneTrained p l s.begin = if targetReached t p then endTraining p t else t :=
      if_pos ⟨training, offered, by simpa using fresh⟩
    have reached : targetReached t p = decide (target ≤ (s.port p).trained.length + 1) := by
      unfold targetReached trainingTarget
      rw [State.port_updPort_same]
      dsimp only
      rw [List.length_append]
      rfl
    refine ⟨fun below => ?_, fun at' unsent idle => ?_⟩
    · rw [reached, if_neg (by simpa using below)] at joins
      exact congrArg Host.Outcome.next joins
    · rw [reached, if_pos (by simpa using at')] at joins
      exact ⟨_, congrArg Host.Outcome.next joins, endTraining_entersTesting (by simp) unsent idle⟩
  · refine congrArg Host.Outcome.next (if_neg ?_)
    rintro ⟨training, offered, fresh⟩
    rcases other with h | h | h
    · exact h training
    · exact absurd (h.symm.trans offered) (by decide)
    · exact absurd fresh (by simpa using h)
  · have ends : trainingExpiry p s.begin =
        endTraining p (s.begin.updPort p fun q => { q with trained := (s.port p).trained }) := by
      have same : (s.begin.updPort p fun q => { q with trained := (s.port p).trained }) = s.begin := by
        rw [updPort_eq_write]
        exact congrArg (fun t => { s.begin with ports := t }) (s.ports.write_read p)
      rw [same]
      exact if_pos ⟨training, runs⟩
    exact ⟨_, congrArg (fun t => Host.Outcome.next (checkDrains t)) ends, endTraining_entersTesting some unsent idle⟩
  · exact congrArg (fun t => Host.Outcome.next (checkDrains t)) (if_neg other)

end Sys2Proof.Machine
end

section
namespace Sys2Proof.Machine

/-! ### The failure of a lane -/

/-- The state in which a lane has failed, and nothing has followed it (R8, R19). -/
def State.laneFailed (p : Slot) (l : Lane) (s : State) : State :=
  { s with
    ports := s.ports.write p { s.port p with
      laneGood := (s.port p).laneGood.write l false
      counters := { (s.port p).counters with laneFailures := oneMore (s.port p).counters.laneFailures } }
    out := [] }

theorem laneFailed_port (p : Slot) (l : Lane) (s : State) : (s.laneFailed p l).port p = { s.port p with
    laneGood := (s.port p).laneGood.write l false
    counters := { (s.port p).counters with laneFailures := oneMore (s.port p).counters.laneFailures } } :=
  Table.read_write_same ..

/-- What a failed lane is followed by: nothing where it is not in use (R8, R9). -/
theorem failLane_eq {p : Slot} {l : Lane} {s : State} (held : (s.port p).laneGood.read l = true) :
    failLane p l s.begin =
      match (s.port p).link with
      | .down => s.begin
      | .training =>
        let u := (s.laneFailed p l).updPort p fun r => { r with trained := r.trained.filter (· != l) }
        if targetReached u p then endTraining p u else u
      | .testing => if (s.port p).lanesInUse.contains l then attemptFails p (s.laneFailed p l) else s.laneFailed p l
      | .up => if (s.port p).lanesInUse.contains l then retrain p (s.laneFailed p l) else s.laneFailed p l := by
  have failed : countLink p (fun c => { c with laneFailures := count32 c.laneFailures })
      (s.begin.updPort p fun r => { r with laneGood := r.laneGood.write l false }) = s.laneFailed p l := by
    unfold countLink
    rw [updPort_updPort]
    rfl
  unfold failLane
  dsimp only
  rw [State.port_begin, failed]
  cases h : (s.port p).link <;> simp [held]

theorem goodLanes_eq_nil {q : Port} :
    (allLanes.filter fun m => q.laneGood.read m) = [] ↔ ∀ l : Lane, q.laneGood.read l = false := by
  have every : ∀ l : Lane, l ∈ allLanes := by decide
  rw [List.filter_eq_nil_iff]
  exact ⟨fun h l => by simpa using h l (every l), fun h l _ => by rw [h l]; decide⟩

/-- A GOOD lane is left. -/
theorem exists_good {q : Port} (h : (allLanes.filter fun m => q.laneGood.read m) ≠ []) :
    ∃ l : Lane, q.laneGood.read l = true := by
  by_contra none
  exact h (goodLanes_eq_nil.2 fun l => by simpa using fun good => none ⟨l, good⟩)

/-! ### The retrain of a link that was UP -/

/-- A cut transmission of a stored frame gives its reference back as a loss (R47, R60). -/
theorem cutTransmission_of_frame {p : Slot} {s : State} {id ends : Nat}
    (sends : (s.port p).transmission = some (.frame id ends)) :
    cutTransmission p s = release id ((s.updPort p fun q => { q with transmission := none }).updSq p fun q =>
      { q with egress := { q.egress with losses := count32 q.egress.losses } }) := by
  unfold cutTransmission
  dsimp only
  rw [sends]

/-- A cut transmission of a TEST frame, or of none, leaves the queue manager as it is (R6). -/
theorem cutTransmission_qm {p : Slot} {s : State} (other : ∀ id ends, (s.port p).transmission ≠ some (.frame id ends)) :
    (cutTransmission p s).qm = s.qm ∧ ∀ q, q ≠ p → (cutTransmission p s).port q = s.port q := by
  unfold cutTransmission
  dsimp only
  split
  · next h => exact absurd h (other _ _)
  · exact ⟨rfl, fun q h => State.port_updPort_ne _ _ _ h⟩
  · exact ⟨rfl, fun q _ => rfl⟩

/-- What a port that retrains gives up before it trains: its transmission and its assembly (R9). -/
def State.retrains (p : Slot) (s : State) : State :=
  discardAssembly p (cutTransmission p ((countLink p (fun c => { c with retrains := count32 c.retrains }) s).updPort p
    fun q => { q with link := .training, attempt := 1 }))

theorem retrain_eq (p : Slot) (s : State) : retrain p s = beginTraining p (s.retrains p) := rfl

theorem retrains_port (p : Slot) (s : State) : (s.retrains p).port p = { s.port p with
    link := .training, attempt := 1, transmission := none, assembly := none
    pauseAsserted := ((s.retrains p).port p).pauseAsserted
    counters := { (s.port p).counters with retrains := oneMore (s.port p).counters.retrains } } := by
  unfold State.retrains
  rw [discardAssembly_port, cutTransmission_port, countLink, updPort_updPort, State.port_updPort_same]
  rfl

theorem retrains_slots (p : Slot) (s : State) : (s.retrains p).slots = s.slots := by
  unfold State.retrains countLink
  rw [(discardAssembly_changes _ _).same .slots rfl, (cutTransmission_changes _ _).same .slots rfl]
  rfl

theorem retrains_tame (n p : Slot) (s : State) : Tame n s (s.retrains p) :=
  (((Tame.updPort n p _ s).trans (.updPort ..)).trans (cutTransmission_tame ..)).trans (discardAssembly_tame ..)

/-- The discard of an assembly moves a pause, and nothing of the queues and the stored frames (R51). -/
theorem discardAssembly_sq (p q : Slot) (s : State) :
    (discardAssembly p s).sq q = { s.sq q with paused := ((discardAssembly p s).sq q).paused } := by
  rw [discardAssembly_eq]
  unfold State.sq
  dsimp only
  rw [Table.read_write]
  split
  · next h => subst h; rfl
  · rfl

theorem discardAssembly_frames (p : Slot) (s : State) : (discardAssembly p s).qm.frames = s.qm.frames := by
  rw [discardAssembly_eq]

theorem discardAssembly_port_ne {p q : Slot} (other : q ≠ p) (s : State) : (discardAssembly p s).port q = s.port q := by
  rw [discardAssembly_eq]
  exact Table.read_write_ne _ _ other

/-- A retrain loses the transmission and discards the assembly, and keeps the class queues (R9, R47, R60). -/
theorem retrains_loses (p : Slot) (s : State) :
    (∀ q : Slot, ((s.retrains p).sq q).queues = (s.sq q).queues) ∧
    (∀ id ends : Nat, (s.port p).transmission = some (.frame id ends) →
      (∀ f : StoredFrame, s.frame? id = some f → GivesBack id f s (s.retrains p)) ∧
      ((s.retrains p).sq p).egress = { (s.sq p).egress with losses := oneMore (s.sq p).egress.losses }) ∧
    ((∀ id ends : Nat, (s.port p).transmission ≠ some (.frame id ends)) →
      (s.retrains p).qm.frames = s.qm.frames ∧ ((s.retrains p).sq p).egress = (s.sq p).egress) ∧
    PausesOnly p s (s.retrains p) ∧ OnlyChanges [.ports, .qm, .out] s (s.retrains p) := by
  let t := (countLink p (fun c => { c with retrains := count32 c.retrains }) s).updPort p fun q =>
    { q with link := .training, attempt := 1 }
  have record : (t.port p).transmission = (s.port p).transmission := by
    show ((countLink p _ s).updPort p _ |>.port p).transmission = _
    rw [countLink, updPort_updPort, State.port_updPort_same]
  have others (q : Slot) (h : q ≠ p) : t.port q = s.port q :=
    (State.port_updPort_ne _ _ _ h).trans (State.port_updPort_ne _ _ _ h)
  have sq (q : Slot) : (s.retrains p).sq q =
      { (cutTransmission p t).sq q with paused := ((s.retrains p).sq q).paused } := discardAssembly_sq ..
  have frames : (s.retrains p).qm.frames = (cutTransmission p t).qm.frames := discardAssembly_frames ..
  have port (q : Slot) (h : q ≠ p) : (s.retrains p).port q = (cutTransmission p t).port q := discardAssembly_port_ne h _
  have changes : OnlyChanges [.ports, .qm, .out] s (s.retrains p) :=
    (discardAssembly_changes p _).after ((cutTransmission_changes p t).after
      ((updPort_changes _ _ _).after ((updPort_changes _ _ _).weaken rfl) rfl) rfl) rfl
  by_cases sends : ∃ id ends, (s.port p).transmission = some (.frame id ends)
  · obtain ⟨id, ends, sends⟩ := sends
    let lost := (t.updPort p fun q => { q with transmission := none }).updSq p fun q =>
      { q with egress := { q.egress with losses := count32 q.egress.losses } }
    have cut : cutTransmission p t = release id lost := cutTransmission_of_frame (record.trans sends)
    have moves : PausesMove lost (cutTransmission p t) := cut ▸ release_moves id lost
    refine ⟨fun q => ?_, fun id' ends' sends' => ⟨fun f frame => ?_, ?_⟩, fun none => absurd sends (none id ends),
      fun q h => ?_, changes⟩
    · rw [sq q, moves.sq q]
      show (lost.sq q).queues = _
      by_cases h : q = p
      · subst h
        rw [State.sq_updSq_same]
        rfl
      · rw [State.sq_updSq_ne _ _ _ h]
        rfl
    · obtain rfl : id' = id := by
        rw [sends] at sends'
        injection sends' with e
        injection e with e _
        exact e.symm
      have back : GivesBack id' f s (cutTransmission p t) := cut ▸ release_givesBack (s := lost) frame
      unfold GivesBack State.frame? at back ⊢
      rw [frames]
      exact back
    · rw [sq p, moves.sq p]
      show (lost.sq p).egress = _
      rw [State.sq_updSq_same]
      rfl
    · rw [port q h, moves.port q]
      exact ⟨_, by rw [show lost.port q = t.port q from State.port_updPort_ne _ _ _ h, others q h]⟩
  · have other : ∀ id ends, (t.port p).transmission ≠ some (.frame id ends) := fun id ends h =>
      sends ⟨id, ends, record.symm.trans h⟩
    obtain ⟨qm, ports⟩ := cutTransmission_qm other
    have same (q : Slot) : (cutTransmission p t).sq q = s.sq q := by
      unfold State.sq
      rw [qm]
      rfl
    refine ⟨fun q => ?_, fun id ends h => absurd ⟨id, ends, h⟩ sends, fun _ => ⟨?_, ?_⟩, fun q h => ?_, changes⟩
    · rw [sq q, same]
    · rw [frames, qm]
      rfl
    · rw [sq p, same]
    · rw [port q h, ports q h, others q h]
      exact ⟨_, rfl⟩

/-- A retrain with a GOOD lane left begins to train (R3, R9). -/
theorem retrain_trains {p : Slot} {s : State} (good : ∃ l : Lane, (s.port p).laneGood.read l = true) :
    retrain p s = enterTraining p (s.retrains p) := by
  have lanes : ((enterTraining p (s.retrains p)).port p).laneGood = (s.port p).laneGood := by
    unfold enterTraining
    rw [State.port_updPort_same, retrains_port]
  rw [retrain_eq]
  refine if_neg fun none => ?_
  obtain ⟨l, hl⟩ := good
  have bad := (trainingTarget_eq_zero _ _).1 none l
  rw [lanes] at bad
  exact absurd (bad.symm.trans hl) (by decide)

theorem retrain_port (p : Slot) (s : State) : (enterTraining p (s.retrains p)).port p = { s.port p with
    link := .training, attempt := 1, trained := [], workingWidth := none, lanesInUse := []
    trainingDeadline := some (s.time.localTicks + 250000), transmission := none, assembly := none
    pauseAsserted := ((enterTraining p (s.retrains p)).port p).pauseAsserted
    counters := { (s.port p).counters with retrains := oneMore (s.port p).counters.retrains } } := by
  have time : (s.retrains p).time = s.time := by
    obtain ⟨-, -, -, -, changes⟩ := retrains_loses p s
    exact changes.same .time rfl
  unfold enterTraining State.now
  rw [State.port_updPort_same, retrains_port, time]
  rfl

/-- Training that ends without a trained lane fails the attempt (R3, R5). -/
theorem endTraining_fails {p : Slot} {s : State} (down : (s.port p).link ≠ .up) (none : (s.port p).trained = []) :
    endTraining p s = attemptFails p s := by
  rw [← attemptFails_deadline down]
  unfold endTraining
  dsimp only
  rw [State.port_updPort_same]
  dsimp only
  rw [none]
  rfl

/-- A retrain without a GOOD lane fails its attempts at once (R3, R5, R9). -/
theorem retrain_fails {p : Slot} {s : State} (none : ∀ l : Lane, (s.port p).laneGood.read l = false) :
    retrain p s = attemptFails p (enterTraining p (s.retrains p)) := by
  have record : (enterTraining p (s.retrains p)).port p = { (s.retrains p).port p with
      link := .training, trained := [], workingWidth := Option.none, lanesInUse := []
      trainingDeadline := some ((s.retrains p).now + Config.trainingTicks) } := State.port_updPort_same ..
  rw [retrain_eq]
  unfold beginTraining
  dsimp only
  rw [if_pos, endTraining_fails]
  · rw [record]; simp
  · rw [record]
  · rw [trainingTarget_eq_zero, record, retrains_port]
    exact none

/-- What exhausts the bring-up from a later state exhausts it from an earlier one whose attempts count the same. -/
theorem Exhausted.after {p : Slot} {n : Nat} {s t u : State} (h : Exhausted p n t u) (slots : t.slots = s.slots)
    (tame : Tame p s t) (laneGood : (t.port p).laneGood = (s.port p).laneGood)
    (width : (t.port p).reportedWidth = (s.port p).reportedWidth) (counters : (t.port p).counters = (s.port p).counters) :
    Exhausted p n s u :=
  ⟨h.slots.trans slots, tame.trans h.tame, h.laneGood.trans laneGood, h.reportedWidth.trans width,
    by rw [h.counters, counters]⟩

/-- Attempts that fail at once until the last fault the slot, with the grants and the ends of drains that follow (R5,
R131). -/
theorem attemptFails_serves {p : Slot} {s u : State} (down : (s.port p).link ≠ .up) (linked : s.Linked p)
    (listed : s.Listed) (none : (s.port p).attempt < 3 → ∀ l : Lane, (s.port p).laneGood.read l = false) :
    (attemptFails p s).Listed ∧
      (Serves (attemptFails p s) u → GivesUp p (max 1 (4 - (s.port p).attempt)) s u) := by
  obtain ⟨t, gives, exhausted⟩ := failAttempt_exhausts 3 down (by omega) none
  unfold attemptFails
  rw [gives]
  exact ⟨giveUp_listed exhausted.slots linked listed, giveUp_givesUp exhausted linked listed⟩

theorem attemptFails_givesUp {p : Slot} {s : State} (down : (s.port p).link ≠ .up) (linked : s.Linked p) (listed : s.Listed)
    (none : (s.port p).attempt < 3 → ∀ l : Lane, (s.port p).laneGood.read l = false) :
    GivesUp p (max 1 (4 - (s.port p).attempt)) s (checkDrains (attemptFails p s)) := by
  obtain ⟨after, gives⟩ := attemptFails_serves (u := checkDrains (attemptFails p s)) down linked listed none
  exact gives (checkDrains_serves after)

/-- A retrain without a GOOD lane left faults the slot with three failed attempts (R5, R9, R131). -/
theorem retrain_givesUp {p : Slot} {s : State} (linked : s.Linked p) (listed : s.Listed)
    (none : ∀ l : Lane, (s.port p).laneGood.read l = false) :
    GivesUp p 3 (s.updPort p fun q => { q with counters := { q.counters with retrains := oneMore q.counters.retrains } })
      (checkDrains (retrain p s)) := by
  let r := enterTraining p (s.retrains p)
  have record : r.port p = { (s.retrains p).port p with
      link := .training, trained := [], workingWidth := Option.none, lanesInUse := []
      trainingDeadline := some ((s.retrains p).now + Config.trainingTicks) } := State.port_updPort_same ..
  have attempt : (r.port p).attempt = 1 := by rw [record, retrains_port]
  obtain ⟨t, gives, exhausted⟩ := failAttempt_exhausts 3 (p := p) (s := r) (by rw [record]; simp) (by omega) fun _ => by
    rw [record, retrains_port]
    exact none
  rw [attempt] at exhausted
  rw [retrain_fails none, attemptFails, gives]
  refine giveUp_givesUp (exhausted.after (retrains_slots p s) ?_ ?_ ?_ ?_) linked listed
    (checkDrains_serves (giveUp_listed (s := s) (exhausted.slots.trans (retrains_slots p s)) linked listed))
  · refine Tame.trans ?_ ((retrains_tame p p s).trans (.updPort ..))
    exact .of_same (List.prefix_refl _) rfl rfl Iff.rfl
  all_goals
    rw [record, retrains_port, State.port_updPort_same]

/-- A lane that fails in TRAINING leaves the trained lanes, and the rest are held against the new target (R3, R8). -/
theorem failLane_training {p : Slot} {l : Lane} {s : State} (held : (s.port p).laneGood.read l = true)
    (training : (s.port p).link = .training) :
    let failed := s.laneFailed p l
    let rest := (s.port p).trained.filter fun m => m ≠ l
    let u := failed.begin.updPort p fun q => { q with trained := rest }
    failLane p l s.begin =
        (if min (s.laneCapability p) (allLanes.filter fun m => (failed.port p).laneGood.read m).length ≤ rest.length then
          endTraining p u else u) ∧
      u = { failed with ports := s.ports.write p { failed.port p with trained := rest } } := by
  intro failed rest u
  have record : failed.port p = _ := laneFailed_port p l s
  have filtered : ((failed.port p).trained.filter fun m => m != l) = rest := by
    rw [record]
    exact List.filter_congr fun m _ => by rw [Bool.eq_iff_iff]; simp
  have same : (failed.updPort p fun r => { r with trained := r.trained.filter (· != l) }) = u := by
    rw [updPort_eq_write, filtered]
    rfl
  have reached : targetReached u p = decide (min (s.laneCapability p)
      (allLanes.filter fun m => (failed.port p).laneGood.read m).length ≤ rest.length) := by
    unfold targetReached trainingTarget
    rw [State.port_updPort_same]
    rfl
  constructor
  · rw [failLane_eq held, training]
    dsimp only
    rw [same, reached]
    simp only [decide_eq_true_eq]
  · show ({ s with ports := (s.ports.write p _).write p _, out := [] } : State) = _
    rw [Table.write_write]
    rfl

/-- Settles O26: the failure of a lane in each state of its link. -/
theorem laneFailureByLinkState : Obligations.LaneFailureByLinkState := by
  intro p l s marked failed good rest
  have run : exec (.laneFailure p l) s = .next (checkDrains (failLane p l s.begin)) := rfl
  have record : failed.port p = marked := laneFailed_port p l s
  refine ⟨fun unseen => ?_, fun held => ?_⟩
  · rw [run, show failLane p l s.begin = s.begin from if_pos unseen]
    rfl
  have falls := failLane_eq (p := p) (l := l) (s := s) held
  refine ⟨fun link unused => ?_, fun up used some => ?_, fun testing used some few => ?_, fun training below => ?_,
    fun training at' some => ?_, fun linked inv => ⟨fun up used none => ?_, fun fails => ?_⟩⟩
  · have idle : failLane p l s.begin = failed := by
      rw [falls]
      rcases link with link | link <;> rw [link] <;> exact if_neg (by simpa using unused)
    rw [run, idle]
  · have trains : failLane p l s.begin = enterTraining p (failed.retrains p) := by
      rw [falls, up]
      dsimp only
      rw [if_pos (by simpa using used)]
      exact retrain_trains (record ▸ exists_good some)
    obtain ⟨queues, lost, kept, pauses, changes⟩ := retrains_loses p failed
    have same (q : Slot) (h : q ≠ p) : failed.port q = s.port q := Table.read_write_ne _ _ h
    have port := retrain_port p failed
    rw [record] at port
    refine ⟨_, by rw [run, trains], port, queues, fun id ends sends => lost id ends (by rw [record]; exact sends),
      fun other => kept fun id ends => by rw [record]; exact other id ends, fun q h => ?_, ?_⟩
    · obtain ⟨b, hb⟩ := pauses q h
      exact ⟨b, by rw [← same q h, ← hb]; exact State.port_updPort_ne _ _ _ h⟩
    · refine (updPort_changes _ _ _).after (changes.after ?_ rfl) rfl
      intro part
      cases part <;> first | exact .inl (by decide) | exact .inr rfl
  · have fails : failLane p l s.begin = attemptFails p failed := by
      rw [falls, testing]
      exact if_pos (by simpa using used)
    rw [run, fails]
    exact congrArg (fun t => Host.Outcome.next (checkDrains t)) ((attemptFails_ends (s := failed) (p := p)
      (by rw [record]; exact testing ▸ by decide)).1 (by rw [record]; exact few) (record ▸ exists_good some))
  · obtain ⟨left, trains⟩ := failLane_training (p := p) (l := l) held training
    have lanes : (s.laneFailed p l).port p = marked := record
    rw [lanes] at left trains
    rw [run, left, if_neg (Nat.not_le.2 below), trains]
    rfl
  · obtain ⟨left, -⟩ := failLane_training (p := p) (l := l) held training
    obtain ⟨port, others, qm, changes⟩ := endTraining_trains some failed
    have lanes : (s.laneFailed p l).port p = marked := record
    rw [lanes, if_pos at'] at left
    rw [record] at port
    refine ⟨endTraining p (failed.begin.updPort p fun q => { q with trained := rest }), by rw [run, left]; rfl, ?_, ?_,
      ?_, ?_, ?_, ?_, fun q h => (others q h).trans (Table.read_write_ne _ _ h), qm, changes.after ?_ rfl,
      fun unsent idle => ?_⟩
    · exact congrArg Port.link port
    · exact congrArg Port.trained port
    · exact (congrArg Port.laneGood port).trans rfl
    · exact (congrArg Port.counters port).trans rfl
    · exact congrArg Port.testProgress port
    · exact congrArg Port.trainingDeadline port
    · intro part
      cases part <;> first | exact .inl (by decide) | exact .inr rfl
    · exact endTraining_entersTesting (s := failed) some (by rw [record]; exact unsent) (by rw [record]; exact idle)
  · have fails : failLane p l s.begin = retrain p failed := by
      rw [falls, up]
      exact if_pos (by simpa using used)
    have gives := retrain_givesUp (p := p) (s := failed) linked inv.listed (record ▸ goodLanes_eq_nil.1 none)
    refine ⟨_, by rw [run, fails], ?_⟩
    rw [updPort_eq_write, record, show failed.ports = s.ports.write p marked from rfl, Table.write_write] at gives
    exact gives
  · have last : (s.port p).attempt < 3 → good = [] → ∀ l : Lane, (failed.port p).laneGood.read l = false := fun _ none => by
      rw [record]
      exact goodLanes_eq_nil.1 none
    rcases fails with ⟨testing, used, final⟩ | ⟨training, none, bad⟩
    · have gives := attemptFails_givesUp (p := p) (s := failed) (by rw [record]; exact testing ▸ by decide) linked
        inv.listed fun few => by
          rw [record] at few
          exact last few (final.resolve_right (Nat.not_le.2 few))
      rw [record] at gives
      refine ⟨_, ?_, gives⟩
      rw [run, falls, testing]
      exact congrArg (fun t => Host.Outcome.next (checkDrains t)) (if_pos (by simpa using used))
    · let u := failed.begin.updPort p fun q => { q with trained := rest }
      have port : u.port p = { marked with trained := rest } := by
        rw [← record]
        exact State.port_updPort_same _ _ _
      obtain ⟨left, -⟩ := failLane_training (p := p) (l := l) held training
      have fails : failLane p l s.begin = attemptFails p u := by
        have lanes : (s.laneFailed p l).port p = marked := record
        rw [lanes, show (allLanes.filter fun m => marked.laneGood.read m) = [] from bad, List.length_nil, Nat.min_zero,
          if_pos (Nat.zero_le _)] at left
        exact left.trans (endTraining_fails (s := u) (by rw [port]; exact training ▸ by decide) (by rw [port]; exact none))
      have gives := attemptFails_givesUp (p := p) (s := u) (by rw [port]; exact training ▸ by decide) linked inv.listed
        fun few => by
          rw [port] at few ⊢
          exact goodLanes_eq_nil.1 bad
      rw [port] at gives
      refine ⟨_, by rw [run, fails], ?_⟩
      unfold GivesUp at gives ⊢
      rw [port] at gives
      rw [record]
      exact gives

end Sys2Proof.Machine
end

section
/-! The grants of the reserve waiting list. -/

namespace Sys2Proof.Machine

/-! ### One grant -/

/-- The grant of a maker's entry. -/
def grantOf (m : Maker) (s : State) : State :=
  match m with
  | .test p => grantTest p s
  | .agent => grantAgent s
  | .alarm => grantAlarm s

/-- The cells that a maker's entry asks for. -/
def cellsAsked (m : Maker) (s : State) : Nat :=
  match m with
  | .test _ => 1
  | .agent => ((s.agent.responses.head?).map fun r => r.frame.cells).getD 0
  | .alarm => ((s.alarm.acks.head?).map fun a => a.frame.cells).getD 0

theorem headCells_of_head {s : State} {m : Maker} {rest : List Maker} (head : s.qm.waiting = m :: rest) :
    headCells s = some (m, cellsAsked m s) := by
  unfold headCells
  rw [head]
  cases m <;> rfl

theorem headCells_of_empty {s : State} (empty : s.qm.waiting = []) : headCells s = none := by
  unfold headCells
  rw [empty]

theorem headFits_of_empty {s : State} (empty : s.qm.waiting = []) : headFits s = false := by
  unfold headFits
  rw [headCells_of_empty empty]
  rfl

theorem headFits_of_head {s : State} {m : Maker} {rest : List Maker} (head : s.qm.waiting = m :: rest) :
    headFits s = decide (cellsAsked m s ≤ s.reserveFree) := by
  unfold headFits
  rw [headCells_of_head head]
  rfl

/-- Nothing is granted where no head fits (R46). -/
theorem serveReserve_of_blocked {s : State} (k : Nat) (blocked : headFits s = false) : serveReserve k s = s := by
  cases k with
  | zero => rfl
  | succ k =>
    unfold serveReserve
    cases head : s.qm.waiting with
    | nil => rw [headCells_of_empty head]
    | cons m rest =>
      rw [headFits_of_head head] at blocked
      rw [headCells_of_head head]
      exact if_neg (by simpa using blocked)

/-- A head that fits is granted, and the grants go on (R46). -/
theorem serveReserve_of_fits {s : State} {m : Maker} {rest : List Maker} (k : Nat) (head : s.qm.waiting = m :: rest)
    (fits : cellsAsked m s ≤ s.reserveFree) : serveReserve (k + 1) s = serveReserve k (grantOf m s) := by
  conv_lhs => unfold serveReserve
  rw [headCells_of_head head]
  cases m <;> exact if_pos fits

/-! ### How many grants can follow one another -/

/-- The agent and the alarm unit have something to send while they have an entry. -/
structure Supplied (s : State) : Prop where
  agent : .agent ∈ s.qm.waiting → s.agent.responses ≠ []
  alarm : .alarm ∈ s.qm.waiting → s.alarm.acks ≠ []

/-- The grants that a port's entry can take: one for each TEST frame it lacks, and one where it lacks none. -/
def testGrants (p : Slot) (s : State) : Nat :=
  if .test p ∈ s.qm.waiting then max 1 (16 - (s.port p).testNext) else 0

/-- The grants that can follow one another in a state. -/
def grantsLeft (s : State) : Nat :=
  s.agent.responses.length + s.alarm.acks.length + (allSlots.map fun p => testGrants p s).sum

theorem grantsLeft_le (s : State) : grantsLeft s ≤ grantBound s := by
  have each : ∀ x ∈ allSlots.map fun p => testGrants p s, x ≤ 16 := by
    intro x hx
    obtain ⟨p, -, rfl⟩ := List.mem_map.1 hx
    unfold testGrants
    split <;> omega
  have sum := List.sum_le_card_nsmul _ 16 each
  rw [List.length_map, show allSlots.length = 12 from rfl, smul_eq_mul] at sum
  unfold grantsLeft grantBound
  omega

theorem grantsLeft_pos {s : State} (supplied : Supplied s) {m : Maker} {rest : List Maker}
    (head : s.qm.waiting = m :: rest) : 1 ≤ grantsLeft s := by
  have entry : m ∈ s.qm.waiting := by rw [head]; exact List.mem_cons_self
  unfold grantsLeft
  cases m with
  | agent =>
    have := List.length_pos_iff.2 (supplied.agent entry)
    omega
  | alarm =>
    have := List.length_pos_iff.2 (supplied.alarm entry)
    omega
  | test p =>
    have member : testGrants p s ∈ allSlots.map fun p => testGrants p s :=
      List.mem_map.2 ⟨p, (by decide : ∀ q : Slot, q ∈ allSlots) p, rfl⟩
    have one : 1 ≤ testGrants p s := by
      unfold testGrants
      rw [if_pos entry]
      omega
    have := List.single_le_sum (fun _ _ => Nat.zero_le _) _ member
    omega

/-- What an offered frame of the hub leaves as it is (R48, R49, R72). -/
theorem offered_keeps (h : HubFrame) (s : State) :
    (s.offered h).agent = s.agent ∧ (s.offered h).alarm = s.alarm ∧
      ∀ p : Slot, ((s.offered h).port p).testNext = (s.port p).testNext := by
  unfold State.offered
  dsimp only
  split
  · refine ⟨(arbitrate_changes _ _).same .agent rfl, (arbitrate_changes _ _).same .alarm rfl, fun p => ?_⟩
    rw [(arbitrate_calm (mv := true) p _ _).port]
    rfl
  · exact ⟨rfl, rfl, fun _ => rfl⟩

theorem agentGranted_keeps {others : List Maker} {s t : State} (granted : AgentGranted others s t) :
    ∃ r more, s.agent.responses = r :: more ∧ t.agent.responses = more ∧ t.alarm = s.alarm ∧
      t.qm.waiting = others ++ (if more = [] then [] else [.agent]) ∧
      ∀ p : Slot, (t.port p).testNext = (s.port p).testNext := by
  obtain ⟨r, more, responses, -, rfl⟩ := granted
  refine ⟨r, more, responses, ?_⟩
  dsimp only
  generalize hs : ({ s with agent := _ } : State) = u
  obtain ⟨agent, alarm, next⟩ := offered_keeps ⟨.mgmtResp, r.dest, r.seq, r.payload, r.made, 0⟩ u
  refine ⟨?_, ?_, rfl, fun p => ?_⟩
  · rw [agent, ← hs]
  · rw [alarm, ← hs]
  · refine (next p).trans ?_
    rw [← hs]
    rfl

theorem alarmGranted_keeps {others : List Maker} {s t : State} (granted : AlarmGranted others s t) :
    ∃ a more, s.alarm.acks = a :: more ∧ t.alarm.acks = more ∧ t.agent = s.agent ∧
      t.qm.waiting = others ++ (if more = [] then [] else [.alarm]) ∧
      ∀ p : Slot, (t.port p).testNext = (s.port p).testNext := by
  obtain ⟨a, more, acks, -, rfl⟩ := granted
  refine ⟨a, more, acks, ?_⟩
  dsimp only
  generalize hs : ({ s with alarm := _ } : State) = u
  obtain ⟨agent, alarm, next⟩ := offered_keeps ⟨.mailAck, a.dest, a.seq, [a.result.code, a.answers], a.made, 0⟩ u
  refine ⟨?_, ?_, rfl, fun p => ?_⟩
  · rw [alarm, ← hs]
  · rw [agent, ← hs]
  · refine (next p).trans ?_
    rw [← hs]
    rfl

/-- What a granted port has built, and that no other port builds (R6, R46). -/
theorem testGranted_keeps {p : Slot} {others : List Maker} {s t : State} (granted : TestGranted p others s t) :
    ∃ n : Nat, ((s.port p).testNext < 16 → 1 ≤ n) ∧ t.agent = s.agent ∧ t.alarm = s.alarm ∧
      t.qm.waiting = others ++ (if (s.port p).testNext + n < 16 then [.test p] else []) ∧
      (t.port p).testNext = (s.port p).testNext + n ∧ ∀ q : Slot, q ≠ p → (t.port q).testNext = (s.port q).testNext := by
  obtain ⟨fits, quiet, starts⟩ := granted
  have some (lacks : (s.port p).testNext < 16) :
      1 ≤ min (16 - (s.port p).testNext) (if others = [] then s.reserveFree else 1) :=
    Nat.le_min.2 ⟨by omega, by split <;> omega⟩
  generalize min (16 - (s.port p).testNext) (if others = [] then s.reserveFree else 1) = n at some quiet starts
  refine ⟨n, some, ?_⟩
  by_cases sends : (s.port p).link = .testing ∧ (s.port p).transmission = none ∧
      (s.port p).testUnsent ++ List.range' (s.port p).testNext n ≠ []
  · obtain ⟨testing, idle, more⟩ := sends
    obtain ⟨k, later, unsent⟩ := List.exists_cons_of_ne_nil more
    rw [starts testing idle k later unsent]
    refine ⟨rfl, rfl, rfl, congrArg Port.testNext (Table.read_write_same ..), fun q h => ?_⟩
    exact congrArg Port.testNext (Table.read_write_ne _ _ h)
  · rw [quiet (by
      by_contra none
      simp only [not_or, not_not] at none
      exact sends none)]
    refine ⟨rfl, rfl, rfl, congrArg Port.testNext (Table.read_write_same ..), fun q h => ?_⟩
    exact congrArg Port.testNext (Table.read_write_ne _ _ h)

/-- A port's grants fall no less than the list does. -/
theorem testGrants_le {p : Slot} {s t : State} (entry : .test p ∈ t.qm.waiting → .test p ∈ s.qm.waiting)
    (next : (s.port p).testNext ≤ (t.port p).testNext) : testGrants p t ≤ testGrants p s := by
  unfold testGrants
  split
  · next waits =>
    rw [if_pos (entry waits)]
    omega
  · exact Nat.zero_le _

theorem sum_testGrants_le {s t : State} (le : ∀ p, testGrants p t ≤ testGrants p s) :
    (allSlots.map fun p => testGrants p t).sum ≤ (allSlots.map fun p => testGrants p s).sum :=
  List.sum_le_sum fun p _ => le p

/-- Each grant leaves fewer to follow, and the makers supplied (R46). -/
theorem headGranted_falls {s t : State} (supplied : Supplied s) (granted : HeadGranted s t) :
    Supplied t ∧ grantsLeft t < grantsLeft s := by
  obtain ⟨m, rest, head, granted⟩ := granted
  have stood {x : Maker} (h : x ∈ rest.filter fun y => y != m) : x ∈ s.qm.waiting := by
    rw [head]
    exact List.mem_cons_of_mem _ (List.mem_filter.1 h).1
  have fresh := not_mem_others m rest
  cases m with
  | agent =>
    obtain ⟨r, more, responses, left, alarm, waiting, next⟩ := agentGranted_keeps granted
    have entry {x : Maker} (h : x ∈ t.qm.waiting) (other : x ≠ .agent) : x ∈ s.qm.waiting := by
      rw [waiting] at h
      refine stood ((List.mem_append.1 h).resolve_right fun e => ?_)
      split at e
      · cases e
      · exact other (List.mem_singleton.1 e)
    have tests := sum_testGrants_le fun p => testGrants_le (s := s) (t := t) (fun h => entry h (by simp)) (next p).ge
    refine ⟨⟨fun h => ?_, fun h => ?_⟩, ?_⟩
    · rw [left]
      rintro rfl
      rw [waiting, if_pos rfl, List.append_nil] at h
      exact fresh h
    · rw [alarm]
      exact supplied.alarm (entry h (by simp))
    · unfold grantsLeft
      rw [left, alarm, responses, List.length_cons]
      omega
  | alarm =>
    obtain ⟨a, more, acks, left, agent, waiting, next⟩ := alarmGranted_keeps granted
    have entry {x : Maker} (h : x ∈ t.qm.waiting) (other : x ≠ .alarm) : x ∈ s.qm.waiting := by
      rw [waiting] at h
      refine stood ((List.mem_append.1 h).resolve_right fun e => ?_)
      split at e
      · cases e
      · exact other (List.mem_singleton.1 e)
    have tests := sum_testGrants_le fun p => testGrants_le (s := s) (t := t) (fun h => entry h (by simp)) (next p).ge
    refine ⟨⟨fun h => ?_, fun h => ?_⟩, ?_⟩
    · rw [agent]
      exact supplied.agent (entry h (by simp))
    · rw [left]
      rintro rfl
      rw [waiting, if_pos rfl, List.append_nil] at h
      exact fresh h
    · unfold grantsLeft
      rw [left, agent, acks, List.length_cons]
      omega
  | test p =>
    obtain ⟨n, built, agent, alarm, waiting, next, others⟩ := testGranted_keeps granted
    have entry {x : Maker} (h : x ∈ t.qm.waiting) (other : x ≠ .test p) : x ∈ s.qm.waiting := by
      rw [waiting] at h
      refine stood ((List.mem_append.1 h).resolve_right fun e => ?_)
      split at e
      · exact other (List.mem_singleton.1 e)
      · cases e
    have listed : .test p ∈ s.qm.waiting := by rw [head]; exact List.mem_cons_self
    have own : testGrants p t < testGrants p s := by
      unfold testGrants
      rw [if_pos listed, next, waiting]
      by_cases lacks : (s.port p).testNext + n < 16
      · rw [if_pos lacks, if_pos (List.mem_append_right _ List.mem_cons_self)]
        omega
      · rw [if_neg lacks, List.append_nil, if_neg fresh]
        omega
    have tests : (allSlots.map fun q => testGrants q t).sum < (allSlots.map fun q => testGrants q s).sum := by
      refine List.sum_lt_sum _ _ (fun q _ => ?_) ⟨p, (by decide : ∀ q : Slot, q ∈ allSlots) p, own⟩
      by_cases h : q = p
      · exact h ▸ own.le
      · exact testGrants_le (fun w => entry w (by simpa using h)) (others q h).ge
    refine ⟨⟨fun h => ?_, fun h => ?_⟩, ?_⟩
    · rw [agent]
      exact supplied.agent (entry h (by simp))
    · rw [alarm]
      exact supplied.alarm (entry h (by simp))
    · unfold grantsLeft
      rw [agent, alarm]
      omega

/-- A head that fits is granted (R46). -/
theorem grantOf_granted {s : State} {m : Maker} {rest : List Maker} (supplied : Supplied s)
    (head : s.qm.waiting = m :: rest) (fits : cellsAsked m s ≤ s.reserveFree) : HeadGranted s (grantOf m s) := by
  have entry : m ∈ s.qm.waiting := by rw [head]; exact List.mem_cons_self
  refine ⟨m, rest, head, ?_⟩
  cases m with
  | agent =>
    obtain ⟨r, more, responses⟩ := List.exists_cons_of_ne_nil (supplied.agent entry)
    exact grantAgent_granted head responses (by simpa [cellsAsked, responses] using fits)
  | alarm =>
    obtain ⟨a, more, acks⟩ := List.exists_cons_of_ne_nil (supplied.alarm entry)
    have one : a.frame.cells = 1 := by simp [MailAck.frame, HubFrame.cells, FrameBody.length, cellsOf]
    exact grantAlarm_granted head acks (by simpa [cellsAsked, acks, one] using fits)
  | test p => exact grantTest_granted head fits

/-- The heads are granted one after another until none is left that fits (R46). -/
theorem serveReserve_serves (k : Nat) {s : State} (supplied : Supplied s) (enough : grantsLeft s ≤ k) :
    Relation.ReflTransGen HeadGranted s (serveReserve k s) ∧ headFits (serveReserve k s) = false := by
  induction k generalizing s with
  | zero =>
    cases head : s.qm.waiting with
    | nil => exact ⟨.refl, headFits_of_empty head⟩
    | cons m rest =>
      have := grantsLeft_pos supplied head
      omega
  | succ k ih =>
    cases fits : headFits s with
    | false =>
      rw [serveReserve_of_blocked _ fits]
      exact ⟨.refl, fits⟩
    | true =>
      cases head : s.qm.waiting with
      | nil =>
        rw [headFits_of_empty head] at fits
        cases fits
      | cons m rest =>
        rw [headFits_of_head head, decide_eq_true_eq] at fits
        have granted := grantOf_granted supplied head fits
        obtain ⟨supplied', fewer⟩ := headGranted_falls supplied granted
        obtain ⟨chain, blocked⟩ := ih supplied' (by omega)
        rw [serveReserve_of_fits k head fits]
        exact ⟨.head granted chain, blocked⟩

/-- Settles O29: a head that does not fit, one response alone in the list, and the grants in general. -/
theorem reserveGrantServesTheHead : Obligations.ReserveGrantServesTheHead := by
  intro s
  have run : exec .reserveWaitingGrant s = .next (serveReserve (grantBound s.begin) s.begin) := rfl
  have blocked (h : headFits s = false) : exec .reserveWaitingGrant s = .next { s with out := [] } := by
    rw [run, serveReserve_of_blocked (s := s.begin) _ h]
    rfl
  refine ⟨blocked, headFits_of_empty, fun r rest responses single waiting => ?_, fun agent alarm => ?_⟩
  · subst single
    have asked : cellsAsked .agent s = r.frame.cells := by
      unfold cellsAsked
      rw [responses]
      rfl
    refine ⟨fun few => blocked ?_, fun fits up free => ?_⟩
    · rw [headFits_of_head waiting, asked]
      exact decide_eq_false (Nat.not_le.2 few)
    · have bound : ∃ k, grantBound s.begin = k + 1 := ⟨grantBound s.begin - 1, by unfold grantBound; omega⟩
      obtain ⟨k, bound⟩ := bound
      obtain ⟨r', more, same, -, granted⟩ := grantAgent_granted (s := s.begin) waiting responses fits
      obtain ⟨rfl, rfl⟩ : r' = r ∧ more = [] := by simpa using same.symm.trans responses
      have sent : grantOf .agent s.begin = _ := granted
      have done : (grantOf .agent s.begin).qm.waiting = [] := by rw [sent]; rfl
      rw [run, bound, serveReserve_of_fits (s := s.begin) k waiting (asked ▸ fits),
        serveReserve_of_blocked k (headFits_of_empty done), sent]
      unfold State.offered
      dsimp only
      rw [if_pos ⟨up, free⟩, if_pos ⟨up, free⟩, if_pos rfl]
      exact congrArg Host.Outcome.next (arbitrate_withWaiting _ [] _).symm
  · exact ⟨_, run, serveReserve_serves _ (s := s.begin) ⟨agent, alarm⟩ (grantsLeft_le _)⟩

end Sys2Proof.Machine
end

section
/-! The local second. -/

namespace Sys2Proof.Machine

/-! ### An operation done for every slot -/

section
variable {R : State → State → Prop}

/-- What each step of a run over slots keeps, the run keeps. -/
theorem foldl_keeps (refl : ∀ s, R s s) (trans : ∀ s t u, R s t → R t u → R s u) {f : Slot → State → State}
    {ns : List Slot} (step : ∀ n ∈ ns, ∀ s, R s (f n s)) (s : State) : R s (ns.foldl (fun t n => f n t) s) := by
  induction ns generalizing s with
  | nil => exact refl s
  | cons n ns ih =>
    exact trans _ _ _ (step n List.mem_cons_self s) (ih (fun m hm => step m (List.mem_cons_of_mem _ hm)) _)

/-- A run over all slots comes once to each, the steps of the others before and after it. -/
theorem forSlots_visits (refl : ∀ s, R s s) (trans : ∀ s t u, R s t → R t u → R s u) {f : Slot → State → State}
    (n : Slot) (others : ∀ m, m ≠ n → ∀ s, R s (f m s)) (s : State) : ∃ u, R s u ∧ R (f n u) (forSlots f s) := by
  obtain ⟨before, after, split⟩ := List.append_of_mem ((by decide : ∀ q : Slot, q ∈ allSlots) n)
  have nodup : (before ++ n :: after).Nodup := split ▸ (by decide)
  obtain ⟨-, tail, apart⟩ := List.nodup_append.1 nodup
  have notBefore : ∀ m ∈ before, m ≠ n := fun m hm => apart m hm n List.mem_cons_self
  have notAfter : ∀ m ∈ after, m ≠ n := fun m hm e => (List.nodup_cons.1 tail).1 (e ▸ hm)
  unfold forSlots
  rw [split, List.foldl_append, List.foldl_cons]
  exact ⟨_, foldl_keeps refl trans (fun m hm => others m (notBefore m hm)) s,
    foldl_keeps refl trans (fun m hm => others m (notAfter m hm)) _⟩

theorem forSlots_keeps (refl : ∀ s, R s s) (trans : ∀ s t u, R s t → R t u → R s u) {f : Slot → State → State}
    (step : ∀ n s, R s (f n s)) (s : State) : R s (forSlots f s) :=
  foldl_keeps refl trans (fun n _ => step n) s

end

/-! ### What the frames of the hub leave as it is -/

/-- Between two states the exhaustion mark and the uptime stood, and of the delay unit's slots all but the outstanding
probe. -/
structure Sends (s t : State) : Prop where
  exhaustion : t.qm.exhaustion = s.qm.exhaustion
  uptime : t.agent.uptime = s.agent.uptime
  delay : ∀ n, t.slotDelay n = { s.slotDelay n with outstanding := (t.slotDelay n).outstanding }

theorem Sends.refl (s : State) : Sends s s := ⟨rfl, rfl, fun _ => rfl⟩

theorem Sends.trans {s t u : State} (h : Sends s t) (k : Sends t u) : Sends s u :=
  ⟨k.exhaustion.trans h.exhaustion, k.uptime.trans h.uptime, fun n => by rw [k.delay n, h.delay n]⟩

theorem Sends.of_same {s t : State} (exhaustion : t.qm.exhaustion = s.qm.exhaustion)
    (uptime : t.agent.uptime = s.agent.uptime) (delay : t.delay = s.delay) : Sends s t :=
  ⟨exhaustion, uptime, fun n => by unfold State.slotDelay; rw [delay]⟩

theorem arbitrate_sends (p : Slot) (s : State) : Sends s (arbitrate p s) := by
  rcases arbitrate_cases p s with same | ⟨c, id, rest, f, -, -, -, -, qm, -, kept, probe, only⟩
  · rw [same]
    exact .refl s
  · have agent : (arbitrate p s).agent = s.agent := only.same .agent rfl
    refine ⟨by rw [qm], by rw [agent], fun n => ?_⟩
    by_cases sends : ∃ h : HubFrame, f.body = .hub h ∧ h.kind = .probe ∧
        (s.slotDelay h.dest).outstanding = some ⟨h.seq.toNat, none⟩
    · obtain ⟨h, body, kind, waits⟩ := sends
      unfold State.slotDelay
      rw [probe h body kind waits]
      dsimp only
      rw [Table.read_write]
      split
      · next same => subst same; rfl
      · rfl
    · have same : (arbitrate p s).delay = s.delay := kept fun h body kind waits => sends ⟨h, body, kind, waits⟩
      unfold State.slotDelay
      rw [same]

theorem joinWaiting_sends (m : Maker) (s : State) : Sends s (joinWaiting m s) := by
  unfold joinWaiting
  split
  · exact .refl s
  · exact .of_same rfl rfl rfl

theorem offered_sends (h : HubFrame) (s : State) : Sends s (s.offered h) := by
  unfold State.offered
  dsimp only
  split
  · refine Sends.trans ?_ (arbitrate_sends ..)
    exact .of_same rfl rfl rfl
  · exact .of_same rfl rfl rfl

theorem sendResponse_sends (r : Response) (s : State) : Sends s (sendResponse r s) := by
  rw [sendResponse_eq]
  refine Sends.trans ?_ (offered_sends ..)
  exact .of_same rfl rfl rfl

theorem makeResponse_sends (kind : ResponseKind) (dest : Slot) (seq : Byte) (payload : List Byte) (s : State) :
    Sends s (makeResponse kind dest seq payload s) := by
  rcases makeResponse_cases kind dest seq payload s with h | ⟨-, h⟩ | h <;> rw [h]
  · exact sendResponse_sends ..
  · exact .of_same rfl rfl rfl
  · refine Sends.trans ?_ (joinWaiting_sends ..)
    exact .of_same rfl rfl rfl

theorem complete_sends (record : Nat) (status : Status) (results : List Byte) (s : State) :
    Sends s (complete record status results s) := by
  unfold complete
  split
  · refine Sends.trans ?_ (makeResponse_sends ..)
    exact .of_same rfl rfl rfl
  · exact .refl s

theorem pendNotice_sends (x : Notice) (s : State) : Sends s (pendNotice x s) := .of_same rfl rfl rfl

theorem deliver_sends (ws : List Wait) (ns : List Notice) (s : State) : Sends s (deliver ws ns s) := by
  induction ws generalizing ns s with
  | nil =>
    unfold deliver forEach
    induction ns generalizing s with
    | nil => exact .refl s
    | cons n ns ih => exact (pendNotice_sends n s).trans (ih _)
  | cons w ws ih =>
    unfold deliver
    split
    · exact .refl s
    · refine Sends.trans ?_ (ih ..)
      refine Sends.trans ?_ (complete_sends ..)
      exact .of_same rfl rfl rfl

theorem changePoint_sends (id : PointId) (new : Point) (s : State) : Sends s (changePoint id new s) := by
  have moved : Sends s (movePoint id new s) := .of_same rfl rfl rfl
  refine moved.trans (Sends.trans ?_ (deliver_sends ..))
  exact .of_same rfl rfl rfl

theorem samplePoint_sends (id : PointId) (b : Bool) (s : State) : Sends s (samplePoint id b s) :=
  changePoint_sends ..

/-! ### LOCAL_SECOND -/

/-- Between two states a sample of a point is one between two others that agree with them on the point and the second. -/
theorem PointSampled.of_agree {id : PointId} {b : Bool} {s s' t t' : State} (h : PointSampled id b s' t')
    (before : s'.point id = s.point id) (time : s'.time = s.time) (after : t.point id = t'.point id) :
    PointSampled id b s t := by
  unfold PointSampled PointBecomes at h ⊢
  rw [before, time] at h
  rw [after]
  exact h

/-- Between two states the second of a slot stood: its two points, its port but for its transmission and its pause, and
what its samples are formed from. -/
structure SecondStands (n : Slot) (s t : State) : Prop where
  link : t.point (slotLinkPoint n) = s.point (slotLinkPoint n)
  timing : t.point (slotTimingPoint n) = s.point (slotTimingPoint n)
  port : t.port n = { s.port n with
    transmission := (t.port n).transmission, pauseAsserted := (t.port n).pauseAsserted }
  slots : t.slots = s.slots
  time : t.time = s.time
  sends : Sends s t

theorem SecondStands.refl (n : Slot) (s : State) : SecondStands n s s := ⟨rfl, rfl, rfl, rfl, rfl, .refl s⟩

theorem SecondStands.trans {n : Slot} {s t u : State} (h : SecondStands n s t) (k : SecondStands n t u) :
    SecondStands n s u :=
  ⟨k.link.trans h.link, k.timing.trans h.timing, by rw [k.port, h.port], k.slots.trans h.slots, k.time.trans h.time,
    h.sends.trans k.sends⟩

/-- The sample of another point leaves a slot's second. -/
theorem samplePoint_secondStands {n : Slot} {id : PointId} (link : slotLinkPoint n ≠ id) (timing : slotTimingPoint n ≠ id)
    (b : Bool) (s : State) : SecondStands n s (samplePoint id b s) :=
  have changes := samplePoint_changes id b s
  ⟨changePoint_others _ s link, changePoint_others _ s timing, (samplePoint_calm (mv := true) n id b s).port,
    changes.same .slots rfl, changes.same .time rfl, samplePoint_sends id b s⟩

theorem slotLinkPoint_ne {n m : Slot} (h : n ≠ m) : slotLinkPoint n ≠ slotLinkPoint m := fun e =>
  h (Fin.ext (by have := congrArg Fin.val e; simp only [slotLinkPoint] at this; omega))

theorem slotTimingPoint_ne {n m : Slot} (h : n ≠ m) : slotTimingPoint n ≠ slotTimingPoint m := fun e =>
  h (Fin.ext (by have := congrArg Fin.val e; simp only [slotTimingPoint] at this; omega))

theorem slotLinkPoint_ne_timing (n m : Slot) : slotLinkPoint n ≠ slotTimingPoint m := fun e => by
  have := congrArg Fin.val e
  simp only [slotLinkPoint, slotTimingPoint] at this
  omega

theorem slotPoints_ne_buffer (n : Slot) : slotLinkPoint n ≠ bufferPoint ∧ slotTimingPoint n ≠ bufferPoint := by
  revert n
  decide

theorem portSecond_secondStands {n m : Slot} (other : m ≠ n) (s : State) : SecondStands n s (portSecond m s) := by
  have sampled := samplePoint_secondStands (slotLinkPoint_ne other.symm) (slotLinkPoint_ne_timing m n).symm (linkSample s m) s
  refine sampled.trans ⟨rfl, rfl, ?_, rfl, rfl, .of_same rfl rfl rfl⟩
  rw [show (portSecond m s).port n = _ from State.port_updPort_ne _ _ _ other.symm]

theorem timingSecond_secondStands {n m : Slot} (other : m ≠ n) (s : State) : SecondStands n s (timingSecond m s) :=
  samplePoint_secondStands (slotLinkPoint_ne_timing n m) (slotTimingPoint_ne other.symm) _ s

theorem portSecond_sends (n : Slot) (s : State) : Sends s (portSecond n s) :=
  (samplePoint_sends ..).trans (.of_same rfl rfl rfl)

/-- The slots' samples of a local second, and then the buffer's. -/
def State.secondSampled (s : State) : State :=
  let b := forSlots timingSecond (forSlots portSecond s.begin)
  samplePoint bufferPoint b.qm.exhaustion b

theorem secondSampled_changes (s : State) : OnlyChanges noticeParts s.begin s.secondSampled :=
  ((OnlyChanges.forSlots portSecond_changes s.begin).seq (.forSlots timingSecond_changes _)).seq
    (samplePoint_changes _ _ _)

/-- A port's second: its sample, and its marks rolled over (R18). -/
theorem portSecond_port (n : Slot) (s : State) :
    ((portSecond n s).port n).lastErrorCount = (s.port n).errorCount ∧ ((portSecond n s).port n).errorCount = 0 ∧
      ((portSecond n s).port n).stallSeen = false := by
  have sampled := (samplePoint_calm (mv := true) n (slotLinkPoint n) (linkSample s n) s).port
  unfold portSecond
  rw [State.port_updPort_same, sampled]
  exact ⟨rfl, rfl, rfl⟩

/-- Each slot takes its two samples in a local second, formed as before it (R18, R116). -/
theorem secondSampled_slot (n : Slot) (s : State) :
    PointSampled (slotLinkPoint n) (linkSample s n) s s.secondSampled ∧
      PointSampled (slotTimingPoint n) (timingSample s n) s s.secondSampled ∧
      (s.secondSampled.port n).lastErrorCount = (s.port n).errorCount ∧
      (s.secondSampled.port n).errorCount = 0 ∧ (s.secondSampled.port n).stallSeen = false := by
  obtain ⟨u, before, between⟩ := forSlots_visits (R := SecondStands n) (.refl n) (fun _ _ _ => .trans) n
    (fun m other => portSecond_secondStands other) s.begin
  obtain ⟨w, between', after⟩ := forSlots_visits (R := SecondStands n) (.refl n) (fun _ _ _ => .trans) n
    (fun m other => timingSecond_secondStands other) (forSlots portSecond s.begin)
  obtain ⟨link, timing⟩ := slotPoints_ne_buffer n
  have between := between.trans between'
  have after := after.trans (samplePoint_secondStands link timing
    (forSlots timingSecond (forSlots portSecond s.begin)).qm.exhaustion _)
  have linkKept : (timingSecond n w).point (slotLinkPoint n) = w.point (slotLinkPoint n) :=
    changePoint_others _ w (slotLinkPoint_ne_timing n n)
  have timingKept : (portSecond n u).point (slotTimingPoint n) = u.point (slotTimingPoint n) :=
    changePoint_others _ u (slotLinkPoint_ne_timing n n).symm
  have time : (portSecond n u).time = u.time := (portSecond_changes n u).same .time rfl
  have port : (timingSecond n w).port n = { w.port n with
      transmission := ((timingSecond n w).port n).transmission
      pauseAsserted := ((timingSecond n w).port n).pauseAsserted } := (samplePoint_calm (mv := true) n _ _ w).port
  have formed : linkSample u n = linkSample s n := by
    unfold linkSample State.degraded State.laneCapability State.slot
    rw [before.port, before.slots]
    rfl
  have formed' : timingSample w n = timingSample s n := by
    unfold timingSample
    rw [((before.sends.trans (portSecond_sends n u)).trans between.sends).delay n]
    rfl
  obtain ⟨last, count, seen⟩ := portSecond_port n u
  refine ⟨?_, ?_, ?_⟩
  · rw [← formed]
    exact (samplePoint_sampled (slotLinkPoint n) (linkSample u n) u).of_agree before.link before.time
      ((after.link.trans linkKept).trans between.link)
  · rw [← formed']
    exact (samplePoint_sampled (slotTimingPoint n) (timingSample w n) w).of_agree
      ((between.timing.trans timingKept).trans before.timing) ((between.time.trans time).trans before.time) after.timing
  · show ((samplePoint _ _ _).port n).lastErrorCount = _ ∧ ((samplePoint _ _ _).port n).errorCount = 0 ∧
      ((samplePoint _ _ _).port n).stallSeen = false
    rw [after.port, port, between.port]
    dsimp only
    refine ⟨last.trans ?_, count, seen⟩
    rw [before.port]
    rfl

/-- A point of no slot's second and not of the buffer's is as it was. -/
theorem secondSampled_others {id : PointId} (s : State) (link : ∀ n, id ≠ slotLinkPoint n)
    (timing : ∀ n, id ≠ slotTimingPoint n) :
    (forSlots timingSecond (forSlots portSecond s.begin)).point id = s.point id := by
  have keeps {f : Slot → State → State} (step : ∀ n t, (f n t).point id = t.point id) (t : State) :
      (forSlots f t).point id = t.point id :=
    forSlots_keeps (R := fun t u => u.point id = t.point id) (fun _ => rfl) (fun _ _ _ h k => k.trans h) step t
  exact (keeps (f := timingSecond) (fun n t => changePoint_others _ t (timing n)) _).trans
    (keeps (f := portSecond) (fun n t => changePoint_others _ t (link n)) _)

/-- The state at the end of a local second (R61, R156, R178). -/
def State.secondEnds (s : State) : State :=
  let c := s.secondSampled
  { c with
    qm := { c.qm with exhaustion := false }, mon := s.mon.triggered s.now .localSecond
    agent := { c.agent with uptime := c.agent.uptime + 1 } }

theorem localSecond_ends (s : State) : exec .localSecond s = .next s.secondEnds := by
  have mon : s.secondSampled.mon = s.mon := (secondSampled_changes s).same .mon rfl
  have run : exec .localSecond s = execLocalSecond s := rfl
  rw [run]
  unfold State.secondEnds
  rw [← mon]
  unfold State.secondSampled execLocalSecond bufferSecond
  generalize forSlots timingSecond (forSlots portSecond s.begin) = b
  rfl

/-- After the samples the second touches the exhaustion mark, the monitor and the uptime alone. -/
theorem secondEnds_eq (s : State) : s.secondEnds.ports = s.secondSampled.ports ∧
    s.secondEnds.alarm = s.secondSampled.alarm ∧ s.secondEnds.qm.exhaustion = false ∧
    s.secondEnds.agent.uptime = s.secondSampled.agent.uptime + 1 ∧
    s.secondEnds.mon = s.mon.triggered s.now .localSecond ∧
    OnlyChanges [.qm, .mon, .agent] s.secondSampled s.secondEnds := by
  unfold State.secondEnds
  generalize s.secondSampled = c
  refine ⟨rfl, rfl, rfl, rfl, rfl, ?_⟩
  intro part
  cases part <;> first | exact .inl (by decide) | exact .inr rfl

/-- The exhaustion mark and the uptime stand until the buffer's sample. -/
theorem slotSeconds_sends (s : State) : Sends s.begin (forSlots timingSecond (forSlots portSecond s.begin)) :=
  (forSlots_keeps .refl (fun _ _ _ => .trans) portSecond_sends s.begin).trans
    (forSlots_keeps .refl (fun _ _ _ => .trans) (fun _ t => samplePoint_sends _ _ t) _)

theorem linkSample_eq (s : State) (n : Slot) : linkSample s n =
    decide (((s.port n).reportedWidth.any fun w => w.lanes < s.laneCapability n) = true ∨
      (s.port n).errorThreshold ≤ (s.port n).errorCount ∨ (s.port n).stallSeen = true) := by
  unfold linkSample State.degraded
  simp [Bool.or_assoc]

/-- The buffer's point takes the exhaustion mark, and no point but those of the seconds moves (R61). -/
theorem secondSampled_points (s : State) :
    PointSampled bufferPoint s.qm.exhaustion s s.secondSampled ∧
      ∀ id : PointId, (id.val < 12 ∨ 36 ≤ id.val) → id ≠ bufferPoint → s.secondSampled.point id = s.point id := by
  have far {id : PointId} (h : id.val < 12 ∨ 36 ≤ id.val) :
      (forSlots timingSecond (forSlots portSecond s.begin)).point id = s.point id := by
    refine secondSampled_others s (fun n e => ?_) fun n e => ?_ <;>
      (have := congrArg Fin.val e; simp only [slotLinkPoint, slotTimingPoint] at this; omega)
  have time : (forSlots timingSecond (forSlots portSecond s.begin)).time = s.begin.time :=
    ((OnlyChanges.forSlots portSecond_changes s.begin).seq (.forSlots timingSecond_changes _)).same .time rfl
  have mark := (slotSeconds_sends s).exhaustion
  unfold State.secondSampled
  dsimp only
  generalize forSlots timingSecond (forSlots portSecond s.begin) = b at far time mark
  refine ⟨?_, fun id h other => (changePoint_others _ b other).trans (far h)⟩
  rw [show s.qm.exhaustion = b.qm.exhaustion from mark.symm]
  exact (samplePoint_sampled ..).of_agree (far (by decide)) time rfl

/-- The samples of a second leave the uptime. -/
theorem secondSampled_uptime (s : State) : s.secondSampled.agent.uptime = s.agent.uptime := by
  have sends := slotSeconds_sends s
  unfold State.secondSampled
  dsimp only
  generalize forSlots timingSecond (forSlots portSecond s.begin) = b at sends
  have kept := (sends.trans (samplePoint_sends bufferPoint b.qm.exhaustion b)).uptime
  exact kept

/-- Settles O30: each slot's second, the buffer's, and the trigger of the monitor. -/
theorem localSecondSamples : Obligations.LocalSecondSamples := by
  intro s
  obtain ⟨buffer, others⟩ := secondSampled_points s
  obtain ⟨ports, alarm, mark, uptime, mon, ends⟩ := secondEnds_eq s
  have point (id : PointId) : s.secondEnds.point id = s.secondSampled.point id := by
    unfold State.point
    rw [alarm]
  have port (n : Slot) : s.secondEnds.port n = s.secondSampled.port n := by
    unfold State.port
    rw [ports]
  refine ⟨s.secondEnds, localSecond_ends s, fun n => ?_, buffer.of_agree rfl rfl (point _), mark,
    fun id far other => (point id).trans (others id far other), ?_, fun still => ?_, fun trigger scans => ?_,
    fun trigger waits some => ?_, ?_⟩
  · obtain ⟨link, timing, rolled⟩ := secondSampled_slot n s
    rw [← linkSample_eq, port]
    exact ⟨link.of_agree rfl rfl (point _), timing.of_agree rfl rfl (point _), rolled⟩
  · rw [uptime, secondSampled_uptime]
  · rw [mon]
    unfold Monitor.triggered
    split
    · next trigger => rw [still.resolve_left (fun h => h trigger)]
    · rfl
  · rw [mon]
    unfold Monitor.triggered
    rw [if_pos trigger]
    split
    · next waits => rw [scans] at waits; cases waits
    · rfl
    · next stopped => rw [scans] at stopped; cases stopped
  · rw [mon]
    unfold Monitor.triggered Monitor.beginPass
    rw [if_pos trigger, waits]
    dsimp only
    rw [if_neg (by simpa using some)]
    rfl
  · refine ends.after ((secondSampled_changes s).after ?_ rfl) rfl
    intro part
    cases part <;> first | exact .inl (by decide) | exact .inr rfl

end Sys2Proof.Machine
end

section
/-! The requests that set a point, acknowledge one and set a channel's thresholds. -/

namespace Sys2Proof.Machine

/-! ### What the service of the waiting list leaves -/

/-- Between two states no SAMPLED or EVENT point of the slots and channels moved (ids 12 to 79), and the budget in force
stood. -/
structure Serving (s t : State) : Prop where
  point : ∀ id : PointId, 12 ≤ id.val → id.val < 80 → t.point id = s.point id
  inForce : t.slots.inForce = s.slots.inForce

section
variable {s t u : State}

theorem Serving.refl (s : State) : Serving s s := ⟨fun _ _ _ => rfl, rfl⟩

theorem Serving.trans (h : Serving s t) (k : Serving t u) : Serving s u :=
  ⟨fun id lo hi => (k.point id lo hi).trans (h.point id lo hi), k.inForce.trans h.inForce⟩

/-- What reaches neither the alarm unit nor the slot controller. -/
theorem Serving.of_changes {ps : List Part} (only : OnlyChanges ps s t)
    (apart : ([.slots, .alarm].all fun p : Part => !ps.contains p) = true) : Serving s t := by
  have alarm : t.alarm = s.alarm := only.same .alarm (by simpa using List.all_eq_true.1 apart .alarm (by decide))
  have slots : t.slots = s.slots := only.same .slots (by simpa using List.all_eq_true.1 apart .slots (by decide))
  exact ⟨fun id _ _ => by unfold State.point; rw [alarm], by rw [slots]⟩

/-- What moves none of the points does not reach the slot controller. -/
theorem Serving.of_points {ps : List Part} (only : OnlyChanges ps s t) (apart : ps.contains .slots = false)
    (point : ∀ id, t.point id = s.point id) : Serving s t :=
  ⟨fun id _ _ => point id, by rw [show t.slots = s.slots from only.same .slots (by simpa using apart)]⟩

end

theorem movePoint_serving {id : PointId} (far : id.val < 12 ∨ 80 ≤ id.val) (new : Point) (s : State) :
    Serving s (movePoint id new s) :=
  ⟨fun j lo hi => movePoint_others new s fun e => by subst e; omega, rfl⟩

theorem produce_serving (bodies : List NoticeBody) (s : State) : Serving s (produce bodies s) :=
  .of_points (produce_changes bodies s) rfl fun id => produce_point bodies s id

theorem changePoint_serving {id : PointId} (far : id.val < 12 ∨ 80 ≤ id.val) (new : Point) (s : State) :
    Serving s (changePoint id new s) :=
  (movePoint_serving far new s).trans (produce_serving ..)

theorem withdrawAcks_point (n : Slot) (s : State) (id : PointId) : (withdrawAcks n s).point id = s.point id := by
  have joins (t : State) : (joinWaiting .alarm t).point id = t.point id := by
    unfold State.point
    rw [(joinWaiting_changes .alarm t).same .alarm rfl]
  unfold withdrawAcks
  dsimp only
  split
  · split
    · rfl
    · exact joins _
  · rfl

theorem alarmSlotChange_serving (n : Slot) (old new : SlotState) (reason : Option FaultReason) (s : State) :
    Serving s (alarmSlotChange n old new reason s) := by
  have noticed (t : State) : Serving t (produce [.slot n new reason]
      (movePoint (slotFaultPoint n) ((t.point (slotFaultPoint n)).report (new == .faulted)) t)) :=
    (movePoint_serving (.inl n.isLt) _ t).trans (produce_serving ..)
  have withdrawn (t : State) : Serving t (withdrawAcks n t) :=
    .of_points (withdrawAcks_changes n t) rfl (withdrawAcks_point n t)
  have cancelled : Serving s
      (if old = .active ∧ new ≠ .active ∧ isControllerSlot n = true then cancelWaits n s else s) := by
    split
    · exact .of_points (cancelWaits_changes n s) rfl fun _ => rfl
    · exact .refl s
  unfold alarmSlotChange
  dsimp only
  generalize (if old = .active ∧ new ≠ .active ∧ isControllerSlot n = true then cancelWaits n s else s) = c at cancelled ⊢
  split
  · refine (cancelled.trans (noticed _)).trans (.trans ?_ (withdrawn _))
    split
    · exact .refl _
    · exact .of_points (updAlarm_changes _ _) rfl fun _ => rfl
  · exact cancelled.trans (noticed _)

theorem resuspendFlows_serving (g : FlowRecord → Suspension → Suspension) (s : State) :
    Serving s (resuspendFlows g s) :=
  (Serving.of_changes (with_fwd_changes s _) rfl).trans (changePoint_serving (.inr (by decide)) _ _)

theorem flowsSlotReport_serving (n : Slot) (old new : SlotState) (s : State) :
    Serving s (flowsSlotReport n old new s) := by
  unfold flowsSlotReport
  split
  · exact (resuspendFlows_serving _ s).trans (resuspendFlows_serving ..)
  · exact .refl s

theorem enterTiming_serving (new : TimingState) (s : State) : Serving s (enterTiming new s) := by
  have flows (old : TimingState) (t : State) : Serving t (flowsTimingChange old new t) := by
    unfold flowsTimingChange
    split
    · exact resuspendFlows_serving ..
    · exact .refl t
  have alarms (x : Option Source) (t : State) : Serving t (alarmTiming new x t) :=
    ((movePoint_serving (.inr (by decide)) _ t).trans (movePoint_serving (.inr (by decide)) _ _)).trans
      (produce_serving ..)
  unfold enterTiming
  dsimp only
  refine .trans ?_ (alarms _ _)
  refine .trans ?_ (.of_changes (with_delay_changes _ _) rfl)
  refine .trans ?_ (flows _ _)
  split
  · exact (Serving.of_changes (updTrk_changes _ s) rfl).trans (.of_changes (setFreq_changes _ _) rfl)
  · exact .of_changes (updTrk_changes _ s) rfl

theorem examineSelection_serving (s : State) : Serving s (examineSelection s) := by
  have selected (x : Option Source) : Serving s (s.updTrk fun k => { k with selected := x }) :=
    .of_changes (updTrk_changes _ s) rfl
  unfold examineSelection
  dsimp only
  split
  · exact .refl s
  · split
    case h_5 | h_6 =>
      split <;> exact (selected _).trans (enterTiming_serving ..)
    all_goals first
      | exact selected _
      | exact (selected _).trans (enterTiming_serving ..)

theorem reworkProvider_serving (src : Source) (s : State) : Serving s (reworkProvider src s) := by
  have set (r : SourceRecord) : Serving s (setSource src r s) :=
    (Serving.of_changes (updSource_changes src _ s) rfl).trans
      (changePoint_serving (.inr (by cases src <;> decide)) _ _)
  unfold reworkProvider
  dsimp only
  split
  · exact .refl s
  · split <;> exact set _

theorem trackerSlotChange_serving (old new : SlotState) (s : State) : Serving s (trackerSlotChange old new s) := by
  unfold trackerSlotChange reworkProviders
  split
  · exact ((reworkProvider_serving .P s).trans (reworkProvider_serving .N _)).trans (examineSelection_serving _)
  · exact .refl s

theorem changeSlot_serving (n : Slot) (new : SlotState) (reason : Option FaultReason) (s : State) :
    Serving s (changeSlot n new reason s) := by
  have inForce : (changeSlot n new reason s).slots.inForce = s.slots.inForce := by
    rw [changeSlot_slots]
    rfl
  refine ⟨fun id lo hi => ?_, inForce⟩
  unfold changeSlot
  dsimp only
  rw [(trackerSlotChange_serving _ _ _).point id lo hi,
    (Serving.of_changes (monitorSlotChange_changes _ _ _) rfl).point id lo hi,
    (Serving.of_changes (delaySlotChange_changes _ _ _ _) rfl).point id lo hi,
    (Serving.of_changes (queueSlotChange_changes _ _ _ _) rfl).point id lo hi,
    (flowsSlotReport_serving _ _ _ _).point id lo hi]
  unfold State.point
  rw [(sidebandReport_changes _ _ _ _).same .alarm rfl]
  refine ((alarmSlotChange_serving _ _ _ _ _).point id lo hi).trans ?_
  unfold State.point
  rw [(agentSlotChange_changes _ _ _ _).same .alarm rfl]
  rfl

theorem setReportedWidth_serving (p : Slot) (w : Option Width) (s : State) : Serving s (setReportedWidth p w s) := by
  unfold setReportedWidth
  split
  · exact .refl s
  · refine Serving.trans ?_ (resuspendFlows_serving _ _)
    exact ⟨fun _ _ _ => rfl, rfl⟩

theorem stopPort_serving (p : Slot) (link : LinkState) (s : State) : Serving s (stopPort p link s) := by
  unfold stopPort
  dsimp only
  refine .trans ?_ (setReportedWidth_serving ..)
  refine .trans ?_ (.of_changes (updPort_changes _ _ _) rfl)
  refine .trans ?_ (.of_changes (discardAssembly_changes _ _) rfl)
  refine .trans ?_ (.of_changes (dropTests_changes _ _) rfl)
  refine .trans ?_ (.of_changes (cutTransmission_changes _ _) rfl)
  exact .of_changes (updPort_changes _ _ _) rfl

theorem bringUp_serving (p : Slot) (s : State) : Serving s (bringUp p s) :=
  ((stopPort_serving p .training s).trans (.of_changes (updPort_changes _ _ _) rfl)).trans
    (.of_changes (enterTraining_changes _ _) rfl)

theorem leavePower_serving (n : Slot) (s : State) : Serving s (leavePower n s) := by
  have released (t : State) : Serving t (releasePower n t) := ⟨fun _ _ _ => rfl, rfl⟩
  unfold leavePower
  split
  case h_1 => exact released s
  all_goals first
    | exact .refl s
    | exact (stopPort_serving ..).trans (released _)

theorem updSlot_serving (n : Slot) (f : SlotRecord → SlotRecord) (s : State) : Serving s (s.updSlot n f) :=
  ⟨fun _ _ _ => rfl, rfl⟩

theorem reportWaiting_serving (s : State) : Serving s (reportWaiting s) := changePoint_serving (.inr (by decide)) _ s

theorem reportOverBudget_serving (s : State) : Serving s (reportOverBudget s) :=
  changePoint_serving (.inr (by decide)) _ s

theorem grantPower_serving (n : Slot) (s : State) : Serving s (grantPower n s) := by
  unfold grantPower
  dsimp only
  generalize hon : ((({ leaveWaiting n s with slots := _ } : State).updSlot n _)) = on
  have listed : Serving s on := by
    rw [← hon]
    exact ⟨fun _ _ _ => rfl, rfl⟩
  have granted := (listed.trans (changeSlot_serving n .powering none on)).trans (reportWaiting_serving _)
  split
  · refine granted.trans ?_
    rw [enterFaulted_eq]
    exact ((leavePower_serving n _).trans (updSlot_serving ..)).trans (changeSlot_serving ..)
  · split
    · exact granted.trans (((updSlot_serving ..).trans (bringUp_serving ..)).trans (changeSlot_serving ..))
    · exact granted

theorem examineWaiting_serving (k : Nat) (s : State) : Serving s (examineWaiting k s) := by
  induction k generalizing s with
  | zero => exact .refl s
  | succ k ih =>
    unfold examineWaiting
    split
    · exact .refl s
    · split
      · exact (grantPower_serving ..).trans (ih _)
      · exact .refl s

theorem servePower_serving (s : State) : Serving s (servePower s) :=
  ((reportOverBudget_serving s).trans (reportWaiting_serving _)).trans (examineWaiting_serving ..)

/-- With no slot waiting the service of the waiting list moves its two points alone (R138). -/
theorem servePower_of_none_waiting {s : State} (none : s.slots.waitingList = []) {id : PointId}
    (load : id ≠ overBudgetPoint) (waiting : id ≠ powerWaitingPoint) : (servePower s).point id = s.point id := by
  have list : (reportWaiting (reportOverBudget s)).slots.waitingList = [] := by
    rw [(reportWaiting_changes _).same .slots rfl, (reportOverBudget_changes _).same .slots rfl, none]
  unfold servePower
  dsimp only
  rw [list]
  exact (changePoint_others _ _ waiting).trans (changePoint_others _ _ load)

/-- The budget in force follows the rectifier's point, and the points of the slots and channels stay (R137). -/
theorem updateBudget_serves (s : State) :
    (∀ id : PointId, 12 ≤ id.val → id.val < 80 → (updateBudget s).point id = s.point id) ∧
      (updateBudget s).slots.inForce = (if (s.point rectifierPoint).state.inList then .battery else .mains) ∧
      (s.slots.waitingList = [] → ∀ id : PointId, id ≠ overBudgetPoint → id ≠ powerWaitingPoint →
        (updateBudget s).point id = s.point id) := by
  unfold updateBudget
  dsimp only
  generalize (if (s.point rectifierPoint).state.inList then Budget.battery else Budget.mains) = b
  split
  · next same => exact ⟨fun _ _ _ => rfl, same.symm, fun _ _ _ _ => rfl⟩
  · refine ⟨(servePower_serving _).point, (servePower_serving _).inForce, fun none id load waiting => ?_⟩
    exact servePower_of_none_waiting (s := { s with slots := { s.slots with inForce := b } }) none load waiting

/-! ### Bytes of the arguments -/

theorem flagOfByte_eq (b : Byte) : flagOfByte b = if b.toNat ≤ 1 then some (b == 1) else none := by
  unfold flagOfByte
  split
  · next h =>
    have zero : b = 0 := BitVec.eq_of_toNat_eq h
    subst zero
    rfl
  · next h =>
    have one : b = 1 := BitVec.eq_of_toNat_eq h
    subst one
    rfl
  · next zero one =>
    refine (if_neg fun small => ?_).symm
    rcases (by omega : b.toNat = 0 ∨ b.toNat = 1) with h | h
    · exact zero h
    · exact one h

theorem pointOfByte_of_val {b : Byte} {id : PointId} (h : id.val = b.toNat) : pointOfByte b = some id := by
  have lt : b.toNat < 93 := h ▸ id.isLt
  unfold pointOfByte
  rw [dif_pos lt]
  exact congrArg some (Fin.ext h.symm)

theorem pointOfByte_of_past {b : Byte} (h : 92 < b.toNat) : pointOfByte b = none := dif_neg (by omega)

theorem severityOfCode_eq {b : Byte} (h : b.toNat ≤ 3) : Severity.ofCode b.toNat = some (if b = 0 then .critical
    else if b = 1 then .major else if b = 2 then .minor else .warning) := by
  have cases : b = 0 ∨ b = 1 ∨ b = 2 ∨ b = 3 := by
    have : b.toNat = 0 ∨ b.toNat = 1 ∨ b.toNat = 2 ∨ b.toNat = 3 := by omega
    exact this.imp BitVec.eq_of_toNat_eq (.imp BitVec.eq_of_toNat_eq (.imp BitVec.eq_of_toNat_eq BitVec.eq_of_toNat_eq))
  rcases cases with rfl | rfl | rfl | rfl <;> rfl

theorem severityOfCode_of_past {n : Nat} (h : 3 < n) : Severity.ofCode n = none := by
  unfold Severity.ofCode
  split <;> first | omega | rfl

/-- A request whose effect is answered OK. -/
theorem request_answers {s : State} {i : Instr} {r : Request} (h : Takes s i r) {effect : Request → State → Effect}
    {results : List Byte} {t : State} (answers : effect r s.taking = okWith results t) :
    request i effect s = .next (answer .taken r .ok results t) := by
  rw [request_takes h, answers]
  rfl

/-! ### SET_ALARM_POINT -/

theorem deliver_inputs (ws : List Wait) (ns : List Notice) (s : State) :
    (deliver ws ns s).alarm.inputs = s.alarm.inputs := by
  have pends (n : Notice) (t : State) : (pendNotice n t).alarm.inputs = t.alarm.inputs := by
    unfold pendNotice State.updAlarm
    dsimp only
    split <;> rfl
  induction ws generalizing ns s with
  | nil =>
    unfold deliver forEach
    induction ns generalizing s with
    | nil => rfl
    | cons n ns ih => rw [List.foldl_cons, ih, pends]
  | cons w ws ih =>
    unfold deliver
    split
    · rfl
    · rw [ih, completeWait_alarm]

theorem changePoint_input (id : PointId) (new : Point) (s : State) (i : Fin 4) :
    (changePoint id new s).input i = s.input i := by
  unfold State.input changePoint produce
  rw [deliver_inputs]
  rfl

/-- A HELD point that is no longer latched ends, at a second (R168; LOG 56). -/
def Point.settled (p : Point) (sec : Nat) : Point :=
  if p.state = .held ∧ p.latched = false then { p with state := .clear, count := 0, acked := false, lastChange := sec }
  else p

/-- The state in which a point has taken its values, and cleared where it was HELD and is not latched (R168). -/
def State.pointTaken (id : PointId) (new : Point) (s : State) : State :=
  let set := setRelays (s.updAlarm fun a => { a with points := a.points.write id new })
  changePoint id (set.point id).unlatched set

theorem pointTaken_point (id : PointId) (new : Point) (s : State) :
    (s.pointTaken id new).point id = new.settled s.time.sec := by
  let set := setRelays (s.updAlarm fun a => { a with points := a.points.write id new })
  have record : set.point id = new := Table.read_write_same ..
  have becomes := changePoint_becomes id (set.point id).unlatched set
  unfold PointBecomes at becomes
  refine becomes.trans ?_
  rw [record]
  unfold Point.unlatched Point.settled Point.enterClear
  split
  · next held =>
    rw [held.1]
    rfl
  · rw [if_pos rfl]

theorem pointTaken_others {id j : PointId} (other : j ≠ id) (new : Point) (s : State) :
    (s.pointTaken id new).point j = s.point j :=
  (changePoint_others _ _ other).trans (Table.read_write_ne _ _ other)

theorem pointTaken_input (id : PointId) (new : Point) (s : State) (i : Fin 4) :
    (s.pointTaken id new).input i = s.input i := changePoint_input ..

theorem pointTaken_changes (id : PointId) (new : Point) (s : State) : OnlyChanges noticeParts s (s.pointTaken id new) :=
  (changePoint_changes _ _ _).after ((setRelays_changes _).after ((updAlarm_changes _ s).weaken rfl) rfl) rfl

theorem pointTaken_port (id : PointId) (new : Point) (s : State) (n : Slot) :
    (s.pointTaken id new).port n = { s.port n with
      transmission := ((s.pointTaken id new).port n).transmission
      pauseAsserted := ((s.pointTaken id new).port n).pauseAsserted } :=
  (changePoint_calm (mv := true) n id _ _).port

theorem slotOfLinkPoint_of_val {id : PointId} {n : Slot} (h : id.val = 12 + n.val) : slotOfLinkPoint id = some n := by
  unfold slotOfLinkPoint
  rw [dif_pos (by omega)]
  exact congrArg some (Fin.ext (by simp only; omega))

theorem slotOfLinkPoint_of_past {id : PointId} (h : 24 ≤ id.val) : slotOfLinkPoint id = none := dif_neg (by omega)

theorem inputOfPoint_of_val {id : PointId} {i : Fin 4} (h : id.val = 85 + i.val) : inputOfPoint id = some i := by
  unfold inputOfPoint
  rw [dif_pos (by omega)]
  exact congrArg some (Fin.ext (by simp only; omega))

theorem inputOfPoint_of_other {id : PointId} (h : ¬ (85 ≤ id.val ∧ id.val ≤ 88)) : inputOfPoint id = none :=
  dif_neg (by omega)

theorem inputOfPoint_isSome (id : PointId) : (inputOfPoint id).isSome = decide (85 ≤ id.val ∧ id.val ≤ 88) := by
  by_cases h : 85 ≤ id.val ∧ id.val ≤ 88
  · rw [inputOfPoint_of_val (i := ⟨id.val - 85, by omega⟩) (by simp only; omega), decide_eq_true h]
    rfl
  · rw [inputOfPoint_of_other h, decide_eq_false h]
    rfl

/-- The extra value of an external input's point sets its polarity, and its condition is reported anew (R168, R171). -/
theorem applyExtra_input {id : PointId} {i : Fin 4} (h : id.val = 85 + i.val) (extra : Nat) (s : State) :
    applyExtra id extra s =
      let t := s.updInput i fun x => { x with alarmWhenOpen := extra == 0 }
      reportCondition id (t.input i).condition t := by
  unfold applyExtra
  rw [slotOfLinkPoint_of_past (by omega), inputOfPoint_of_val h]

/-- The extra value of no external input's point moves no point (R168). -/
theorem applyExtra_points {id : PointId} (h : ¬ (85 ≤ id.val ∧ id.val ≤ 88)) (extra : Nat) (s : State) :
    (applyExtra id extra s).alarm = s.alarm ∧ (applyExtra id extra s).slots = s.slots := by
  unfold applyExtra
  rw [inputOfPoint_of_other h]
  cases slotOfLinkPoint id <;> exact ⟨rfl, rfl⟩

theorem applyExtra_others {id j : PointId} (other : j ≠ id) (extra : Nat) (s : State) :
    (applyExtra id extra s).point j = s.point j := by
  unfold applyExtra
  split
  · rfl
  · exact changePoint_others _ _ other
  · rfl

/-- The state in which a point is set (R168). -/
def State.pointSet (id : PointId) (v : PointValues) (s : State) : State :=
  let t := applyExtra id v.extra (s.pointTaken id ((s.point id).configured (pointKind id) v))
  if id = rectifierPoint then updateBudget t else t

theorem setPoint_eq (id : PointId) (v : PointValues) (s : State) :
    setPoint id v s = okWith (setPointResults (s.pointSet id v) id) (s.pointSet id v) := rfl

/-- A point of no external input takes its values (R168). -/
theorem pointSet_point {id : PointId} (h : ¬ (85 ≤ id.val ∧ id.val ≤ 88)) (v : PointValues) (s : State) :
    (s.pointSet id v).point id = ((s.point id).configured (pointKind id) v).settled s.time.sec := by
  rw [← pointTaken_point id]
  have extra (t : State) : (applyExtra id v.extra t).point id = t.point id := by
    unfold State.point
    rw [(applyExtra_points h v.extra t).1]
  unfold State.pointSet
  dsimp only
  split
  · next rectifier =>
    obtain ⟨points, -, -⟩ :=
      updateBudget_serves (applyExtra id v.extra (s.pointTaken id ((s.point id).configured (pointKind id) v)))
    rw [points id (by rw [rectifier]; decide) (by rw [rectifier]; decide), extra]
  · exact extra _

/-- A port's point sets the error threshold of the port (R18, R168). -/
theorem pointSet_port {id : PointId} {n : Slot} (h : id.val = 12 + n.val) (v : PointValues) (s : State) :
    (s.pointSet id v).port n = { s.port n with
      errorThreshold := clamp 1 65535 v.extra
      pauseAsserted := ((s.pointSet id v).port n).pauseAsserted
      transmission := ((s.pointSet id v).port n).transmission } := by
  have set : s.pointSet id v = (s.pointTaken id ((s.point id).configured (pointKind id) v)).updPort n
      fun q => { q with errorThreshold := clamp 1 65535 v.extra } := by
    unfold State.pointSet applyExtra
    rw [slotOfLinkPoint_of_val h]
    exact if_neg fun e => by rw [e] at h; exact absurd h (by simp only [rectifierPoint]; omega)
  rw [set, State.port_updPort_same, pointTaken_port]

/-- A point of an external input sets its polarity, and takes a report of its condition (R168, R171). -/
theorem pointSet_input {id : PointId} {i : Fin 4} (h : id.val = 85 + i.val) (v : PointValues) (s : State) :
    (s.pointSet id v).input i = { s.input i with alarmWhenOpen := v.extra == 0 } ∧
      PointReported id ((s.input i).debouncedOpen == (v.extra == 0)) { s with alarm := { s.alarm with
        points := s.alarm.points.write id (((s.point id).configured (pointKind id) v).settled s.time.sec) } }
        (s.pointSet id v) := by
  let u := s.pointTaken id ((s.point id).configured (pointKind id) v)
  let w := u.updInput i fun x => { x with alarmWhenOpen := v.extra == 0 }
  have input : w.input i = { s.input i with alarmWhenOpen := v.extra == 0 } := by
    rw [show w.input i = { u.input i with alarmWhenOpen := v.extra == 0 } from Table.read_update_same ..,
      pointTaken_input]
  have set : s.pointSet id v = reportCondition id (w.input i).condition w := by
    unfold State.pointSet
    rw [applyExtra_input h]
    exact if_neg fun e => by rw [e] at h; exact absurd h (by simp only [rectifierPoint]; omega)
  have time : w.time = s.time := (pointTaken_changes id _ s).same .time rfl
  have point : w.point id = ((s.point id).configured (pointKind id) v).settled s.time.sec := pointTaken_point id _ s
  constructor
  · rw [set]
    exact (changePoint_input ..).trans input
  · have reported := reportCondition_reported id (w.input i).condition w
    rw [← set, input] at reported
    unfold PointReported PointBecomes at reported ⊢
    rw [point, time] at reported
    have taken (new : Point) :
        State.point { s with alarm := { s.alarm with points := s.alarm.points.write id new } } id = new :=
      Table.read_write_same ..
    rw [taken]
    exact reported

/-- No other point moves, but the two of the waiting list where the point is the rectifier's (R138, R170). -/
theorem pointSet_others {id j : PointId} (v : PointValues) (s : State) (other : j ≠ id)
    (apart : ¬ (id = rectifierPoint ∧ (j = overBudgetPoint ∨ j = powerWaitingPoint)))
    (none : id ≠ rectifierPoint ∨ s.slots.waitingList = []) : (s.pointSet id v).point j = s.point j := by
  have before : (applyExtra id v.extra (s.pointTaken id ((s.point id).configured (pointKind id) v))).point j =
      s.point j := (applyExtra_others other ..).trans (pointTaken_others other ..)
  unfold State.pointSet
  dsimp only
  split
  · next rectifier =>
    obtain ⟨-, -, rest⟩ :=
      updateBudget_serves (applyExtra id v.extra (s.pointTaken id ((s.point id).configured (pointKind id) v)))
    refine (rest ?_ j (fun e => apart ⟨rectifier, .inl e⟩) fun e => apart ⟨rectifier, .inr e⟩).trans before
    rw [(applyExtra_points (by rw [rectifier]; decide) v.extra _).2, (pointTaken_changes id _ s).same .slots rfl]
    exact none.resolve_left fun e => e rectifier
  · exact before

theorem clamp_byte (b : Byte) : clamp 1 255 b.toNat = max 1 b.toNat := by
  have := b.isLt
  unfold clamp
  omega

theorem clamp_word (x : BitVec 16) : clamp 1 65535 x.toNat = max 1 x.toNat := by
  have := x.isLt
  unfold clamp
  omega

/-- The values of a SET_ALARM_POINT within their tables (R168, R188). -/
theorem pointValuesOf_eq (id : PointId) {enabled severity raise clear latched : Byte} {extra : BitVec 16} :
    (1 < enabled.toNat ∨ 3 < severity.toNat ∨ 1 < latched.toNat ∨
        ((85 ≤ id.val ∧ id.val ≤ 88) ∧ 1 < extra.toNat) →
      pointValuesOf id enabled severity raise clear latched extra = none) ∧
    (enabled.toNat ≤ 1 → severity.toNat ≤ 3 → latched.toNat ≤ 1 →
      ((85 ≤ id.val ∧ id.val ≤ 88) → extra.toNat ≤ 1) →
      pointValuesOf id enabled severity raise clear latched extra = some ⟨enabled == 1,
        if severity = 0 then .critical else if severity = 1 then .major else if severity = 2 then .minor else .warning,
        clamp 1 255 raise.toNat, clamp 1 255 clear.toNat, latched == 1, extra.toNat⟩) := by
  unfold pointValuesOf
  rw [flagOfByte_eq, flagOfByte_eq, inputOfPoint_isSome]
  constructor
  · intro past
    by_cases e : enabled.toNat ≤ 1
    · by_cases l : latched.toNat ≤ 1
      · by_cases v : severity.toNat ≤ 3
        · have both : (85 ≤ id.val ∧ id.val ≤ 88) ∧ 1 < extra.toNat := by omega
          rw [if_pos e, if_pos l, severityOfCode_eq v]
          simp [both]
        · rw [severityOfCode_of_past (by omega), if_pos e]
          rfl
      · rw [if_neg l, if_pos e]
        cases Severity.ofCode severity.toNat <;> rfl
    · rw [if_neg e]
      rfl
  · intro e v l input
    rw [if_pos e, if_pos l, severityOfCode_eq v]
    have apart : ¬ ((85 ≤ id.val ∧ id.val ≤ 88) ∧ 1 < extra.toNat) := by omega
    simp only [Option.bind_eq_bind, Option.bind_some]
    rw [if_neg (by simpa using fun lo hi => (by omega : extra.toNat ≤ 1))]

/-! ### ACK_ALARM -/

/-- A point that an acknowledgement, taken at a second, has reached (R167). -/
def Point.acknowledgedAt (p : Point) (sec : Nat) : Point :=
  if p.state = .held then
    (if 0 < p.count then { p with state := .raising, acked := false, lastChange := sec }
      else { p with state := .clear, count := 0, acked := false, lastChange := sec })
  else if p.state = .active ∨ p.state = .clearing then { p with acked := true } else p

theorem acknowledge_stamped (p : Point) (sec : Nat) :
    { p.acknowledge with lastChange := if p.state = p.acknowledge.state then p.acknowledge.lastChange else sec } =
      p.acknowledgedAt sec := by
  obtain ⟨severity, enabled, raisePers, clearPers, latched, state, count, acked, condition, raiseCount, lastChange⟩ := p
  unfold Point.acknowledge Point.acknowledgedAt Point.enterClear
  cases state with
  | held =>
    dsimp only
    rw [if_pos rfl]
    by_cases h : 0 < count
    · rw [if_pos h, if_pos h]
      rfl
    · rw [if_neg h, if_neg h]
      rfl
  | clear => rfl
  | raising => rfl
  | active => rfl
  | clearing => rfl

theorem acknowledge_becomes (id : PointId) (s : State) : (changePoint id (s.point id).acknowledge s).point id =
    (s.point id).acknowledgedAt s.time.sec :=
  (changePoint_becomes id (s.point id).acknowledge s).trans (acknowledge_stamped ..)

/-- An acknowledged point that was HELD has left the list (R167, R169). -/
theorem acknowledgedAt_inList {p : Point} (held : p.state = .held) (sec : Nat) :
    (p.acknowledgedAt sec).state.inList = false := by
  unfold Point.acknowledgedAt
  rw [if_pos held]
  split <;> rfl

/-- The state in which a point is acknowledged (R167, R170). -/
def State.pointAcked (id : PointId) (s : State) : State :=
  let t := changePoint id (s.point id).acknowledge s
  if id = rectifierPoint then updateBudget t else t

theorem ackPoint_eq (id : PointId) (s : State) : ackPoint id s =
    okWith [((s.pointAcked id).point id).state.code, if ((s.pointAcked id).point id).acked then 1 else 0]
      (s.pointAcked id) := by
  unfold ackPoint flag
  rfl

theorem pointAcked_point (id : PointId) (s : State) :
    (s.pointAcked id).point id = (s.point id).acknowledgedAt s.time.sec := by
  rw [← acknowledge_becomes]
  unfold State.pointAcked
  dsimp only
  split
  · next rectifier =>
    obtain ⟨points, -, -⟩ := updateBudget_serves (changePoint id (s.point id).acknowledge s)
    exact points id (by rw [rectifier]; decide) (by rw [rectifier]; decide)
  · rfl

/-- The rectifier's point acknowledged while HELD puts the MAINS budget in force (R137, R170). -/
theorem pointAcked_inForce {s : State} (held : (s.point rectifierPoint).state = .held) :
    (s.pointAcked rectifierPoint).slots.inForce = .mains := by
  obtain ⟨-, inForce, -⟩ := updateBudget_serves (changePoint rectifierPoint (s.point rectifierPoint).acknowledge s)
  unfold State.pointAcked
  rw [if_pos rfl, inForce, acknowledge_becomes, acknowledgedAt_inList held]
  rfl

/-! ### SET_THRESHOLDS -/

theorem optionalOf_eq (o : RawOptional) : optionalOf o = if o.presence.toNat ≤ 1 then
    some (if o.presence = 1 then some o.value.toNat else none) else none := by
  unfold optionalOf
  rw [flagOfByte_eq]
  split
  · simp
  · rfl

/-- The four thresholds within their table (R188). -/
theorem thresholdsOf_eq (a b c d : RawOptional) :
    let value (o : RawOptional) : Option Nat := if o.presence = 1 then some o.value.toNat else none
    ((∃ o ∈ [a, b, c, d], 1 < o.presence.toNat) → thresholdsOf a b c d = none) ∧
      ((¬ ∃ o ∈ [a, b, c, d], 1 < o.presence.toNat) →
        thresholdsOf a b c d = some (value a, value b, value c, value d)) := by
  intro value
  unfold thresholdsOf
  simp only [optionalOf_eq]
  constructor
  · rintro ⟨o, mem, past⟩
    by_cases ha : a.presence.toNat ≤ 1
    · by_cases hb : b.presence.toNat ≤ 1
      · by_cases hc : c.presence.toNat ≤ 1
        · have hd : ¬ d.presence.toNat ≤ 1 := by
            rcases List.mem_cons.1 mem with rfl | mem
            · omega
            rcases List.mem_cons.1 mem with rfl | mem
            · omega
            rcases List.mem_cons.1 mem with rfl | mem
            · omega
            rw [← List.mem_singleton.1 mem]
            omega
          rw [if_pos ha, if_pos hb, if_pos hc, if_neg hd]
          rfl
        · rw [if_pos ha, if_pos hb, if_neg hc]
          rfl
      · rw [if_pos ha, if_neg hb]
        rfl
    · rw [if_neg ha]
      rfl
  · intro within
    have small (o : RawOptional) (mem : o ∈ [a, b, c, d]) : o.presence.toNat ≤ 1 := by
      by_contra h
      exact within ⟨o, mem, by omega⟩
    rw [if_pos (small a (by simp)), if_pos (small b (by simp)), if_pos (small c (by simp)), if_pos (small d (by simp))]
    rfl

theorem takenThreshold_eq (o : RawOptional) :
    takenThreshold (if o.presence = 1 then some o.value.toNat else none) =
      if o.presence = 1 then some (min 1023 o.value.toNat) else none := by
  split <;> rfl

/-- The five items of a channel are replaced (R162). -/
theorem setThresholds_eq (c : Channel) (hyst : Byte) (cl wl wh ch : RawOptional) (s : State) :
    let given (o : RawOptional) : Option Nat := if o.presence = 1 then some o.value.toNat else none
    let value (o : RawOptional) : Option Nat := if o.presence = 1 then some (min 1023 o.value.toNat) else none
    let r : ChannelRecord := { s.mon.channel.read c with
      critLow := value cl, warnLow := value wl, warnHigh := value wh, critHigh := value ch
      hysteresis := min 63 hyst.toNat }
    setThresholds c hyst (given cl, given wl, given wh, given ch) s =
      okWith r.bytes { s with mon := { s.mon with channel := s.mon.channel.write c r } } := by
  intro given value r
  have record : (s.updChannel c fun x => { x with
      critLow := takenThreshold (given cl), warnLow := takenThreshold (given wl), warnHigh := takenThreshold (given wh)
      critHigh := takenThreshold (given ch), hysteresis := min 63 hyst.toNat }) =
      { s with mon := { s.mon with channel := s.mon.channel.write c r } } := by
    rw [takenThreshold_eq, takenThreshold_eq, takenThreshold_eq, takenThreshold_eq]
    rfl
  have read : State.channel { s with mon := { s.mon with channel := s.mon.channel.write c r } } c = r :=
    Table.read_write_same ..
  unfold setThresholds
  dsimp only
  rw [record, read]

/-- Settles O57: a point set, a point acknowledged, and the thresholds of a channel. -/
theorem pointsAndThresholdsAreSet : Obligations.PointsAndThresholdsAreSet := by
  intro point enabled severity raise clear latched extra channel cl wl wh ch hyst q s set ack thresholds input
  have setRun : exec set s = request set (fun _ => withPoint point fun id =>
      withValue (pointValuesOf id enabled severity raise clear latched extra) (setPoint id)) s := rfl
  have ackRun : exec ack s = request ack (fun _ => withPoint point ackPoint) s := rfl
  have thresholdsRun : exec thresholds s = request thresholds (fun _ t => match channelOfByte channel with
      | some c => withValue (thresholdsOf cl wl wh ch) (setThresholds c hyst) t
      | none => refusedWith .badIndex t) s := rfl
  refine ⟨fun past i mem takes => ?_, fun id named => ?_, fun takes => ?_⟩
  · have none := pointOfByte_of_past past
    rcases List.mem_pair.1 mem with rfl | rfl
    · exact setRun.trans (request_refuses takes (by unfold withPoint; rw [none]))
    · exact ackRun.trans (request_refuses takes (by unfold withPoint; rw [none]))
  · have some := pointOfByte_of_val named
    intro p
    refine ⟨fun takes => ?_, fun takes => ?_⟩
    · obtain ⟨past, within⟩ := pointValuesOf_eq id (enabled := enabled) (severity := severity) (raise := raise)
        (clear := clear) (latched := latched) (extra := extra)
      refine ⟨fun h => ?_, fun e v l polarity => ?_⟩
      · refine setRun.trans (request_refuses takes ?_)
        unfold withPoint withValue
        rw [some]
        dsimp only
        rw [past h]
      · have values := within e v l polarity
        generalize hv : (⟨_, _, _, _, _, _⟩ : PointValues) = w at values
        have answers : exec set s = .next (answer .taken q .ok (setPointResults (s.taking.pointSet id w) id)
            (s.taking.pointSet id w)) := by
          refine setRun.trans (request_answers takes ?_)
          unfold withPoint withValue
          rw [some]
          dsimp only
          rw [values]
          exact setPoint_eq id w s.taking
        have configured : p.configured (pointKind id) w = { p with
            enabled := enabled == 1
            severity := if severity = 0 then .critical else if severity = 1 then .major
              else if severity = 2 then .minor else .warning
            raisePers := if pointKind id = .sampled then .some (max 1 raise.toNat) else p.raisePers
            clearPers := if pointKind id = .sampled then .some (max 1 clear.toNat) else p.clearPers
            latched := latched == 1 || pointKind id == .event } := by
          rw [← hv]
          unfold Point.configured
          rw [clamp_byte, clamp_byte]
        intro new now
        have settled : (p.configured (pointKind id) w).settled s.time.sec = now := by
          rw [configured]
          rfl
        refine ⟨s.taking.pointSet id w, answers, fun other => ?_, fun n h => ?_, fun i h => ?_, fun j other apart none => ?_⟩
        · exact (pointSet_point other w s.taking).trans settled
        · have set := pointSet_port h w s.taking
          rw [← hv, clamp_word] at set
          rw [← hv]
          exact set
        · have set := pointSet_input h w s.taking
          rw [show (s.taking.point id).configured (pointKind id) w = p.configured (pointKind id) w from rfl,
            show s.taking.time = s.time from rfl, settled] at set
          have extra' : (w.extra == 0) = (extra == 0) := by
            rw [← hv, Bool.eq_iff_iff]
            simp [BitVec.toNat_eq]
          rw [extra'] at set
          exact set
        · exact pointSet_others w s.taking other apart none
    · refine ⟨s.taking.pointAcked id, ?_, ?_, fun rectifier held => ?_⟩
      · refine ackRun.trans (request_answers takes ?_)
        unfold withPoint
        rw [some]
        exact ackPoint_eq id s.taking
      · exact pointAcked_point id s.taking
      · subst rectifier
        exact pointAcked_inForce (s := s.taking) held
  · intro past value
    refine ⟨fun outside => ?_, fun c named => ?_⟩
    · exact thresholdsRun.trans (request_refuses takes (by
        unfold channelOfByte
        rw [dif_neg (by omega)]))
    · have some : channelOfByte channel = some c := by
        unfold channelOfByte
        rw [dif_pos (by omega)]
        exact congrArg _ (Fin.ext named.symm)
      obtain ⟨none, values⟩ := thresholdsOf_eq cl wl wh ch
      refine ⟨fun h => ?_, fun h => ?_⟩
      · refine thresholdsRun.trans (request_refuses takes ?_)
        rw [some]
        dsimp only
        unfold withValue
        rw [none h]
      · refine thresholdsRun.trans (request_answers takes ?_)
        rw [some]
        dsimp only
        unfold withValue
        rw [values h]
        exact setThresholds_eq c hyst cl wl wh ch s.taking

end Sys2Proof.Machine
end

section
/-! The end of a drain whose port has nothing to send, while the head of the waiting list is blocked. -/

namespace Sys2Proof.Machine

/-! ### The service of a blocked list -/

/-- A head that exceeds the budget is not granted (R123). -/
theorem examineWaiting_of_blocked {s : State} (k : Nat) (blocked : s.HeadBlocked s.slots.waitingList s.slots.committed) :
    examineWaiting k s = s := by
  cases k with
  | zero => rfl
  | succ k =>
    unfold examineWaiting
    split
    · rfl
    · next m rest list =>
      have beyond := blocked m (by rw [list]; rfl)
      exact if_neg (by omega)

theorem servePower_of_blocked {s : State} (blocked : s.HeadBlocked s.slots.waitingList s.slots.committed) :
    servePower s = reportWaiting (reportOverBudget s) := by
  have slots : (reportWaiting (reportOverBudget s)).slots = s.slots := by
    rw [(reportWaiting_changes _).same .slots rfl, (reportOverBudget_changes _).same .slots rfl]
  refine examineWaiting_of_blocked _ ?_
  unfold State.HeadBlocked State.budget State.classOf State.slot at blocked ⊢
  rw [slots]
  exact blocked

theorem reportOverBudget_calm (n : Slot) (s : State) : Calm true n s (reportOverBudget s) := reportCondition_calm ..

theorem reportWaiting_calm (n : Slot) (s : State) : Calm true n s (reportWaiting s) := reportCondition_calm ..

/-! ### The slot of the drain -/

theorem countSlot_state (n : Slot) (f : SlotCounters → SlotCounters) (s : State) :
    ((countSlot n f s).slot n).state = (s.slot n).state := by
  unfold countSlot
  rw [State.slot_updSlot_same]

/-- The state in which a slot whose drain ended has entered QUIESCED, before the waiting list is served (R129). -/
def State.drained (n : Slot) (s : State) : State :=
  changeSlot n .quiesced none
    ((leavePower n (countSlot n (fun c => { c with drainsCompleted := count32 c.drainsCompleted }) s)).updSlot n
      fun r => { r with pullGuard := false })

theorem checkDrain_eq {n : Slot} {s : State} (drains : (s.slot n).state = .draining) (empty : s.egressEmpty n = true) :
    checkDrain n s = servePower (s.drained n) := if_pos ⟨drains, empty⟩

theorem drained_slots {n : Slot} {s : State} (drains : (s.slot n).state = .draining) : (s.drained n).slots = { s.slots with
    committed := s.slots.committed - s.classOf n
    slot := s.slots.slot.write n { s.slot n with
      state := .quiesced, pullGuard := false, softStart := none, drainTimer := none, width := ((s.drained n).slot n).width
      lines := { (s.slot n).lines with powerEnable := false, removeLamp := true }
      counters := { (s.slot n).counters with drainsCompleted := oneMore (s.slot n).counters.drainsCompleted } } } := by
  let c := countSlot n (fun c => { c with drainsCompleted := count32 c.drainsCompleted }) s
  have record : c.slot n = { s.slot n with
      counters := { (s.slot n).counters with drainsCompleted := oneMore (s.slot n).counters.drainsCompleted } } :=
    State.slot_updSlot_same ..
  have on : (c.slot n).state.poweredOn = true := by
    rw [record, drains]
    rfl
  have cls : c.classOf n = s.classOf n := by
    unfold State.classOf
    rw [record]
  have left := leavePower_slots on
  have whole : (s.drained n).slots = { s.slots with
      committed := s.slots.committed - s.classOf n
      slot := s.slots.slot.write n { s.slot n with
        state := .quiesced, pullGuard := false, softStart := none, drainTimer := none
        width := ((leavePower n c).slot n).width
        lines := { (s.slot n).lines with powerEnable := false, removeLamp := true }
        counters := { (s.slot n).counters with drainsCompleted := oneMore (s.slot n).counters.drainsCompleted } } } := by
    unfold State.drained
    rw [changeSlot_slots]
    unfold State.enters State.updSlot Table.update
    dsimp only
    rw [left, cls, record]
    dsimp only
    rw [Table.read_write_same, Table.read_write_same, Table.write_write, Table.write_write]
    have kept (x : SlotRecord) : c.slots.slot.write n x = s.slots.slot.write n x := Table.write_write ..
    rw [kept]
    rfl
  have width : ((s.drained n).slot n).width = ((leavePower n c).slot n).width := by
    unfold State.slot
    rw [whole, Table.read_write_same]
    rfl
  rw [width]
  exact whole

/-- A drain that ends with an idle port takes the port down (R2, R129). -/
theorem drained_port {n : Slot} {s : State} (drains : (s.slot n).state = .draining) : (s.drained n).port n = { s.port n with
    link := .down, cardHold := false, trainingDeadline := none, transmission := none, testUnsent := [], testNext := 16
    testDeadline := none, assembly := none, workingWidth := none, lanesInUse := [], reportedWidth := none
    pauseAsserted := ((s.drained n).port n).pauseAsserted } := by
  let c := countSlot n (fun c => { c with drainsCompleted := count32 c.drainsCompleted }) s
  have linked : c.Linked n := by
    refine .inr ?_
    rw [show (c.slot n).state = (s.slot n).state from countSlot_state .., drains]
    rfl
  let t := (leavePower n c).updSlot n fun r => { r with pullGuard := false }
  have left : t.port n = _ := linked.left_port
  have stands : PortStands n t (s.drained n) := changeSlot_stands n (by decide) none t
  have idle := stands.idle (by rw [left]; simp)
  rw [stands.port, idle, left]
  rfl

/-- Its queues are empty and its pause and hold have ended (R56, R58). -/
theorem drained_sq {n : Slot} {s : State} (drains : (s.slot n).state = .draining) :
    ((s.drained n).sq n).queues = .empty ∧ ((s.drained n).sq n).paused = false ∧ ((s.drained n).sq n).hold = .none ∧
      ((s.drained n).sq n).holdTimer = none := by
  let c := countSlot n (fun c => { c with drainsCompleted := count32 c.drainsCompleted }) s
  have state : (((leavePower n c).updSlot n fun r => { r with pullGuard := false }).slot n).state = .draining := by
    rw [State.slot_updSlot_same]
    exact (leavePower_state n c).trans ((countSlot_state ..).trans drains)
  obtain ⟨queues, paused, hold, timer, -⟩ := changeSlot_sq_fallen (n := n) (new := .quiesced) (by rw [state]; decide)
    (by decide) none
  exact ⟨queues, paused, hold, timer⟩

/-- The drain of a slot whose port has nothing to send ends, and with the head of the waiting list blocked the waiting
list's points alone are reported after it (R129, R138). -/
theorem checkDrain_of_blocked {n : Slot} {s : State} (drains : (s.slot n).state = .draining)
    (empty : s.egressEmpty n = true)
    (blocked : s.HeadBlocked s.slots.waitingList (s.slots.committed - s.classOf n)) :
    checkDrain n s = reportWaiting (reportOverBudget (s.drained n)) := by
  rw [checkDrain_eq drains empty, servePower_of_blocked]
  have slots := drained_slots drains
  intro m head
  have classes : (s.drained n).classOf m = s.classOf m := by
    unfold State.classOf State.slot
    rw [slots]
    dsimp only
    rw [Table.read_write]
    split
    · next same => subst same; rfl
    · rfl
  have budget : (s.drained n).budget = s.budget := by
    unfold State.budget
    rw [slots]
  rw [classes, budget, slots]
  refine blocked m ?_
  rw [slots] at head
  exact head

/-- The slot controller, the port and the queues once such a drain has ended. -/
theorem checkDrain_ends {n : Slot} {s : State} (drains : (s.slot n).state = .draining) (empty : s.egressEmpty n = true)
    (blocked : s.HeadBlocked s.slots.waitingList (s.slots.committed - s.classOf n)) :
    (checkDrain n s).slots = (s.drained n).slots ∧ Calm true n (s.drained n) (checkDrain n s) := by
  rw [checkDrain_of_blocked drains empty blocked]
  refine ⟨?_, (reportOverBudget_calm n _).trans (reportWaiting_calm n _)⟩
  rw [(reportWaiting_changes _).same .slots rfl, (reportOverBudget_changes _).same .slots rfl]

/-! ### The discards of the port -/

/-- Between two states, with no alarm wait outstanding, none became so, a port's queues stood and no copy of it was
discarded. -/
structure DiscardsStand (n : Slot) (s t : State) : Prop where
  waits : s.alarm.waits = [] → t.alarm.waits = []
  discards : s.alarm.waits = [] → (t.sq n).egress.discards = (s.sq n).egress.discards
  queues : s.alarm.waits = [] → (t.sq n).queues = (s.sq n).queues

section
variable {n : Slot} {s t u : State}

theorem DiscardsStand.refl (n : Slot) (s : State) : DiscardsStand n s s := ⟨id, fun _ => rfl, fun _ => rfl⟩

theorem DiscardsStand.trans (h : DiscardsStand n s t) (k : DiscardsStand n t u) : DiscardsStand n s u :=
  ⟨fun none => k.waits (h.waits none), fun none => (k.discards (h.waits none)).trans (h.discards none),
    fun none => (k.queues (h.waits none)).trans (h.queues none)⟩

theorem DiscardsStand.of_same (waits : t.alarm.waits = s.alarm.waits) (egress : (t.sq n).egress = (s.sq n).egress)
    (queues : (t.sq n).queues = (s.sq n).queues) : DiscardsStand n s t :=
  ⟨fun none => waits.trans none, fun _ => by rw [egress], fun _ => queues⟩

theorem DiscardsStand.of_changes {ps : List Part} (only : OnlyChanges ps s t)
    (apart : ([.qm, .alarm].all fun p : Part => !ps.contains p) = true) : DiscardsStand n s t := by
  have alarm : t.alarm = s.alarm := only.same .alarm (by simpa using List.all_eq_true.1 apart .alarm (by decide))
  have qm : t.qm = s.qm := only.same .qm (by simpa using List.all_eq_true.1 apart .qm (by decide))
  exact .of_same (by rw [alarm]) (by unfold State.sq; rw [qm]) (by unfold State.sq; rw [qm])

end

theorem changePoint_discardsStand (n : Slot) (id : PointId) (new : Point) (s : State) :
    DiscardsStand n s (changePoint id new s) := by
  have qm (none : s.alarm.waits = []) : (changePoint id new s).qm = s.qm :=
    (changePoint_of_no_waits none id new).1.same .qm rfl
  exact ⟨fun none => (changePoint_of_no_waits none id new).2, fun none => by unfold State.sq; rw [qm none],
    fun none => by unfold State.sq; rw [qm none]⟩

theorem produce_discardsStand (n : Slot) (bodies : List NoticeBody) (s : State) :
    DiscardsStand n s (produce bodies s) := by
  have qm (none : s.alarm.waits = []) : (produce bodies s).qm = s.qm := (produce_of_no_waits none bodies).1.same .qm rfl
  exact ⟨fun none => (produce_of_no_waits none bodies).2, fun none => by unfold State.sq; rw [qm none],
    fun none => by unfold State.sq; rw [qm none]⟩

theorem joinWaiting_discardsStand (n : Slot) (m : Maker) (s : State) : DiscardsStand n s (joinWaiting m s) := by
  unfold joinWaiting
  split
  · exact .refl n s
  · exact .of_same rfl rfl rfl

theorem withdrawResponses_discardsStand (n m : Slot) (s : State) : DiscardsStand n s (withdrawResponses m s) := by
  unfold withdrawResponses
  dsimp only
  split
  · split
    · exact .of_same rfl rfl rfl
    · refine DiscardsStand.trans ?_ (joinWaiting_discardsStand ..)
      exact .of_same rfl rfl rfl
  · exact .of_same rfl rfl rfl

theorem withdrawAcks_discardsStand (n m : Slot) (s : State) : DiscardsStand n s (withdrawAcks m s) := by
  unfold withdrawAcks
  dsimp only
  split
  · split
    · exact .of_same rfl rfl rfl
    · refine DiscardsStand.trans ?_ (joinWaiting_discardsStand ..)
      exact .of_same rfl rfl rfl
  · exact .of_same rfl rfl rfl

theorem resuspendFlows_discardsStand (n : Slot) (g : FlowRecord → Suspension → Suspension) (s : State) :
    DiscardsStand n s (resuspendFlows g s) :=
  (DiscardsStand.of_changes (with_fwd_changes s _) rfl).trans (changePoint_discardsStand ..)

theorem setReportedWidth_discardsStand (n p : Slot) (w : Option Width) (s : State) :
    DiscardsStand n s (setReportedWidth p w s) := by
  unfold setReportedWidth
  split
  · exact .refl n s
  · refine DiscardsStand.trans ?_ (resuspendFlows_discardsStand ..)
    exact .of_same rfl rfl rfl

/-- The take-down of an idle port discards nothing (R2). -/
theorem takeDown_discardsStand {n : Slot} {s : State} (idle : (s.port n).transmission = none) :
    DiscardsStand n s (takeDown n s) := by
  let off := s.updPort n fun q => { q with link := .down, cardHold := false, trainingDeadline := none }
  have idle' : (off.port n).transmission = none := by
    rw [State.port_updPort_same]
    exact idle
  have cut : cutTransmission n off = off := by
    unfold cutTransmission
    rw [idle']
  have discarded (t : State) : DiscardsStand n t (discardAssembly n t) :=
    .of_same (by rw [(discardAssembly_changes _ t).same .alarm rfl]) (by rw [discardAssembly_sq]) (by rw [discardAssembly_sq])
  have taken : takeDown n s = setReportedWidth n none ((discardAssembly n (dropTests n off)).updPort n fun q =>
      { q with
        pauseAsserted := ((discardAssembly n (dropTests n off)).sq n).paused, workingWidth := none, lanesInUse := [] }) := by
    unfold takeDown stopPort
    dsimp only
    rw [cut]
  rw [taken]
  refine .trans ?_ (setReportedWidth_discardsStand ..)
  refine .trans (t := discardAssembly n (dropTests n off)) ?_ (.of_same rfl rfl rfl)
  refine .trans ?_ (discarded (dropTests n off))
  exact .of_same rfl rfl rfl

/-- A slot that neither enters ACTIVE nor leaves it is reported to the agent, the alarm unit, the sideband, the queue
manager and the monitor alone. -/
theorem changeSlot_of_inactive {n : Slot} {new : SlotState} {s : State} (before : (s.slot n).state ≠ .active)
    (after : new ≠ .active) (reason : Option FaultReason) :
    let old := (s.slot n).state
    changeSlot n new reason s = monitorSlotChange n new (queueSlotChange n old new (sidebandReport n old new
      (alarmSlotChange n old new reason (agentSlotChange n old new (s.enters n new))))) := by
  intro old
  have aside : ¬ ((old == .active) != (new == .active)) = true := by
    rw [beq_eq_false_iff_ne.2 before, beq_eq_false_iff_ne.2 after]
    decide
  have tracker (t : State) : trackerSlotChange old new t = t := if_neg aside
  have flows (t : State) : flowsSlotReport n old new t = t := if_neg aside
  have delay (t : State) : delaySlotChange n old new t = t := by
    unfold delaySlotChange
    rw [if_neg fun h => after h.1, if_neg fun h => before h.1]
  unfold changeSlot
  dsimp only
  rw [tracker, delay, flows]
  rfl

/-- A slot that goes from DRAINING to QUIESCED with its port's queues empty has nothing more discarded (R58). -/
theorem changeSlot_quiesced_discardsStand {n : Slot} {s : State} (drains : (s.slot n).state = .draining)
    (queues : (s.sq n).queues = .empty) : DiscardsStand n s (changeSlot n .quiesced none s) := by
  have alarmed (t : State) : DiscardsStand n t (alarmSlotChange n .draining .quiesced none t) := by
    unfold alarmSlotChange
    dsimp only
    refine .trans ?_ (withdrawAcks_discardsStand ..)
    rw [if_neg (by decide : ¬ SlotState.quiesced = .linking),
      if_neg (by simp : ¬ (SlotState.draining = .active ∧ SlotState.quiesced ≠ .active ∧ isControllerSlot n = true))]
    refine .trans (t := produce _ _) ?_ (.of_same rfl rfl rfl)
    refine .trans ?_ (produce_discardsStand ..)
    exact .of_same rfl rfl rfl
  let t := s.enters n .quiesced
  let u := agentSlotChange n .draining .quiesced t
  let v := alarmSlotChange n .draining .quiesced none u
  let w := sidebandReport n .draining .quiesced v
  have emptied : (w.sq n).queues = .empty :=
    ((agentSlotChange_aside (mv := true) n n .draining .quiesced t).trans
      ((alarmSlotChange_calm ..).trans (sidebandReport_calm n n (by decide) v)).toAside).empty
        (by rw [show t.slot n = _ from State.slot_updSlot_same ..]; rfl) queues
  have flushed : DiscardsStand n w (queueSlotChange n .draining .quiesced w) := by
    have none : flushAll n w = w.updSq n fun q => { q with queues := .empty } := by
      unfold flushAll
      rw [emptied]
      rfl
    refine ⟨fun quiet => ?_, fun _ => ?_, fun _ => ?_⟩
    · rw [(queueSlotChange_changes _ _ _ w).same .alarm rfl]
      exact quiet
    · rw [queueSlotChange_fallen rfl, none, State.sq_updSq_same]
    · rw [queueSlotChange_fallen rfl, emptied]
  have whole : changeSlot n .quiesced none s = monitorSlotChange n .quiesced (queueSlotChange n .draining .quiesced w) := by
    rw [changeSlot_of_inactive (by rw [drains]; decide) (by decide), drains]
  rw [whole]
  refine .trans ?_ (.of_changes (monitorSlotChange_changes _ _ _) rfl)
  refine .trans ?_ flushed
  refine .trans ?_ (.of_changes (sidebandReport_side n (by decide) v) rfl)
  refine .trans ?_ (alarmed u)
  refine .trans ?_ (withdrawResponses_discardsStand n n t)
  exact .of_same rfl rfl rfl

/-- The end of a drain whose port has nothing to send discards nothing (R58, R129). -/
theorem drained_discardsStand {n : Slot} {s : State} (drains : (s.slot n).state = .draining)
    (idle : (s.port n).transmission = none) (queues : (s.sq n).queues = .empty) : DiscardsStand n s (s.drained n) := by
  let c := countSlot n (fun c => { c with drainsCompleted := count32 c.drainsCompleted }) s
  have state : (c.slot n).state = .draining := (countSlot_state ..).trans drains
  have left : leavePower n c = releasePower n (takeDown n c) := State.Linked.leavePower (.inr (by rw [state]; rfl))
  have away : DiscardsStand n s (leavePower n c) := by
    rw [left]
    refine .trans ?_ (.of_changes (releasePower_changes _ _) rfl)
    exact .trans (t := c) (.of_same rfl rfl rfl) (takeDown_discardsStand (n := n) (s := c) idle)
  have changed (none : s.alarm.waits = []) := changeSlot_quiesced_discardsStand (n := n)
    (s := (leavePower n c).updSlot n fun r => { r with pullGuard := false })
    (by rw [State.slot_updSlot_same]; exact (leavePower_state n c).trans state) ((away.queues none).trans queues)
  exact ⟨fun none => (changed none).waits (away.waits none),
    fun none => ((changed none).discards (away.waits none)).trans (away.discards none),
    fun none => ((changed none).queues (away.waits none)).trans (away.queues none)⟩

end Sys2Proof.Machine
end

section
/-! The expiry of a hold. -/

namespace Sys2Proof.Machine

/-- The state in which a hold has expired: the port flushed and STALLED, the stall counted and seen (R18, R55). -/
def State.stalls (p : Slot) (s : State) : State :=
  ((flushAll p s).updSq p fun q =>
    { q with hold := .stalled, holdTimer := none, stallCount := min 15 (q.stallCount + 1) }).updPort p fun q =>
    { q with stallSeen := true }

theorem stalls_sq (p : Slot) (s : State) : (s.stalls p).sq p = { s.sq p with
    queues := .empty, hold := .stalled, holdTimer := none, stallCount := min 15 ((s.sq p).stallCount + 1)
    paused := ((s.stalls p).sq p).paused
    egress := { (s.sq p).egress with discards := ((flushAll p s).sq p).egress.discards } } := by
  have record : (s.stalls p).sq p = { (flushAll p s).sq p with
      hold := .stalled, holdTimer := none, stallCount := min 15 (((flushAll p s).sq p).stallCount + 1) } :=
    State.sq_updSq_same ..
  rw [record, flushAll_sq]

theorem stalls_sq_ne {p n : Slot} (other : n ≠ p) (s : State) :
    (s.stalls p).sq n = { s.sq n with paused := ((s.stalls p).sq n).paused } := by
  have record : (s.stalls p).sq n = (flushAll p s).sq n := State.sq_updSq_ne _ _ _ other
  rw [record, (flushAll_discarded p s).sq_ne n other, State.sq_updSq_ne _ _ _ other]

theorem stalls_port (p : Slot) (s : State) : (s.stalls p).port p = { s.port p with
    stallSeen := true, pauseAsserted := ((s.stalls p).port p).pauseAsserted } := by
  have record : (s.stalls p).port p = { (flushAll p s).port p with stallSeen := true } := State.port_updPort_same ..
  rw [record, flushAll_port]

theorem stalls_pausesOnly (p : Slot) (s : State) : PausesOnly p s (s.stalls p) := fun q other => by
  rw [show (s.stalls p).port q = (flushAll p s).port q from State.port_updPort_ne _ _ _ other]
  exact ⟨_, flushAll_port p q s⟩

theorem stalls_changes (p : Slot) (s : State) : OnlyChanges [.ports, .qm, .out] s (s.stalls p) :=
  (updPort_changes _ _ _).after ((updSq_changes _ _ _).after ((flushAll_changes p s).weaken rfl) rfl) rfl

theorem stalls_slots (p : Slot) (s : State) : (s.stalls p).slots = s.slots := (stalls_changes p s).same .slots rfl

theorem stalls_frame (p : Slot) (s : State) (id : Nat) : (s.stalls p).frame? id = (flushAll p s).frame? id := rfl

/-- What an expiry of the hold timer comes to (R55, R131; LOG 24). -/
theorem holdExpiry_eq {p : Slot} {s : State} (holding : (s.sq p).hold = .holding) (runs : (s.sq p).holdTimer.isSome = true) :
    holdExpiry p s = if (s.queueConfig p).stallLimit ≤ min 15 ((s.sq p).stallCount + 1) ∧
        (checkDrain p (s.stalls p)).isUp p = true then faultSlot p .stall none (checkDrain p (s.stalls p))
      else checkDrain p (s.stalls p) := by
  let t := (flushAll p s).updSq p fun q =>
    { q with hold := .stalled, holdTimer := none, stallCount := min 15 (q.stallCount + 1) }
  have count : (t.sq p).stallCount = min 15 ((s.sq p).stallCount + 1) := by
    rw [show t.sq p = _ from stalls_sq p s]
  have config : t.queueConfig p = s.queueConfig p := by
    unfold State.queueConfig
    rw [show t.qcfg = s.qcfg from (stalls_changes p s).same .qcfg rfl]
  unfold holdExpiry
  rw [if_pos ⟨holding, runs⟩, ← count, ← config]
  rfl

/-! ### The stall count of a slot that is faulted -/

theorem cutTransmission_stallCount (p : Slot) (s : State) :
    ((cutTransmission p s).sq p).stallCount = (s.sq p).stallCount := by
  unfold cutTransmission
  dsimp only
  split
  · rw [(release_moves _ _).sq p, State.sq_updSq_same]
    rfl
  · rfl
  · rfl

theorem setReportedWidth_stallCount (p : Slot) (w : Option Width) (s : State) :
    ((setReportedWidth p w s).sq p).stallCount = (s.sq p).stallCount := by
  unfold setReportedWidth
  split
  · rfl
  · exact (evaluateFit_calm (mv := true) p _).stallCount

theorem takeDown_stallCount (p : Slot) (s : State) : ((takeDown p s).sq p).stallCount = (s.sq p).stallCount := by
  let off := s.updPort p fun q => { q with link := .down, cardHold := false, trainingDeadline := none }
  have dropped : ((dropTests p (cutTransmission p off)).sq p).stallCount = (s.sq p).stallCount :=
    cutTransmission_stallCount p off
  have discarded := congrArg SlotQueues.stallCount (discardAssembly_sq p p (dropTests p (cutTransmission p off)))
  exact (setReportedWidth_stallCount ..).trans (discarded.trans dropped)

/-- A fault keeps the stall count (R56). -/
theorem enterFaulted_stallCount {n : Slot} {s : State} (up : (s.slot n).state.isUp = true) (reason : FaultReason)
    (kind : Option SidebandOutcome) : ((enterFaulted n reason kind s).sq n).stallCount = (s.sq n).stallCount := by
  have falls : (((s.faulting n reason kind).slot n).state.isUp && !SlotState.faulted.isUp) = true := by
    rw [faulting_slot (.inr up)]
    simp only [up]
    rfl
  obtain ⟨-, -, -, -, count⟩ := changeSlot_sq_fallen falls (by decide) (some reason)
  rw [enterFaulted_eq, count, if_neg (by decide)]
  have left : leavePower n s = releasePower n (takeDown n s) := State.Linked.leavePower (.inr up)
  have freed (t : State) : (releasePower n t).sq n = t.sq n := rfl
  unfold State.faulting
  rw [left, State.sq_updSlot, freed, takeDown_stallCount]

/-! ### HOLD_TIMER_EXPIRY -/

/-- An expiry at the stall limit faults the slot (R55, R131). -/
theorem stalls_faults {p : Slot} {s : State} (up : (s.slot p).state.isUp = true) (listed : s.Listed) :
    let t := faultSlot p .stall none (s.stalls p)
    (t.slot p).state = .faulted ∧ (t.slot p).fault = some .stall ∧ (t.slot p).lines.powerEnable = false ∧
      (t.slot p).lines.removeLamp = true ∧ (t.port p).link = .down ∧
      (t.sq p).stallCount = min 15 ((s.sq p).stallCount + 1) ∧ (t.sq p).queues = .empty ∧ (t.sq p).hold = .none ∧
      (t.sq p).holdTimer = none := by
  intro t
  have slot (m : Slot) : (s.stalls p).slot m = s.slot m := by
    unfold State.slot
    rw [stalls_slots]
  have up' : ((s.stalls p).slot p).state.isUp = true := by rw [slot]; exact up
  have listed' : (s.stalls p).Listed := fun m hm => by
    rw [slot]
    exact listed m (by rw [← stalls_slots p s]; exact hm)
  have away := faulted_away (faultSlot_serves (.inr up') listed' .stall none)
  have record := away.slot.trans (enterFaulted_slot (.inr up') .stall none)
  obtain ⟨queues, -, hold, timer⟩ := enterFaulted_sq up' .stall none
  refine ⟨by rw [record], by rw [record], by rw [record], by rw [record], ?_, ?_, ?_, ?_, ?_⟩
  · rw [away.port, enterFaulted_port (.inr up')]
  · rw [away.stallCount, enterFaulted_stallCount up', stalls_sq]
  · exact away.empty (by rw [enterFaulted_state]; rfl) queues
  · rw [away.hold, hold]
  · rw [away.holdTimer, timer]

theorem reportWaiting_discardsStand (n : Slot) (s : State) : DiscardsStand n s (reportWaiting s) :=
  changePoint_discardsStand ..

theorem reportOverBudget_discardsStand (n : Slot) (s : State) : DiscardsStand n s (reportOverBudget s) :=
  changePoint_discardsStand ..

theorem checkDrain_discardsStand {n : Slot} {s : State} (drains : (s.slot n).state = .draining)
    (idle : (s.port n).transmission = none) (queues : (s.sq n).queues = .empty)
    (blocked : s.HeadBlocked s.slots.waitingList (s.slots.committed - s.classOf n)) :
    DiscardsStand n s (checkDrain n s) := by
  have empty : s.egressEmpty n = true := by
    unfold State.egressEmpty
    rw [idle, queues]
    rfl
  rw [checkDrain_of_blocked drains empty blocked]
  exact ((drained_discardsStand drains idle queues).trans (reportOverBudget_discardsStand n _)).trans
    (reportWaiting_discardsStand n _)

/-- An expiry that ends a drain quiesces the slot, which is not faulted (R129; LOG 24). -/
theorem stalls_drains {p : Slot} {s : State} (drains : (s.slot p).state = .draining)
    (idle : (s.port p).transmission = none)
    (blocked : s.HeadBlocked s.slots.waitingList (s.slots.committed - s.classOf p)) :
    let t := checkDrain p (s.stalls p)
    t.slots = { s.slots with
      committed := s.slots.committed - s.classOf p
      slot := s.slots.slot.write p { s.slot p with
        state := .quiesced, pullGuard := false, softStart := none, drainTimer := none, width := (t.slot p).width
        lines := { (s.slot p).lines with powerEnable := false, removeLamp := true }
        counters := { (s.slot p).counters with drainsCompleted := oneMore (s.slot p).counters.drainsCompleted } } } ∧
      (t.sq p).queues = .empty ∧ (t.sq p).hold = .none ∧ (t.sq p).holdTimer = none ∧ (t.port p).link = .down ∧
      (t.port p).stallSeen = true ∧
      (s.alarm.waits = [] → (t.sq p).egress.discards = ((flushAll p s).sq p).egress.discards) := by
  intro t
  let h := s.stalls p
  have slots : h.slots = s.slots := stalls_slots p s
  have drains' : (h.slot p).state = .draining := by
    unfold State.slot
    rw [slots]
    exact drains
  have idle' : (h.port p).transmission = none := by rw [show h.port p = _ from stalls_port p s, idle]
  have queues' : (h.sq p).queues = .empty := by rw [show h.sq p = _ from stalls_sq p s]
  have empty : h.egressEmpty p = true := by
    unfold State.egressEmpty
    rw [idle', queues']
    rfl
  have blocked' : h.HeadBlocked h.slots.waitingList (h.slots.committed - h.classOf p) := by
    unfold State.HeadBlocked State.budget State.classOf State.slot at blocked ⊢
    rw [slots]
    exact blocked
  obtain ⟨same, calm⟩ := checkDrain_ends drains' empty blocked'
  have record := drained_slots drains'
  obtain ⟨queues, -, hold, timer⟩ := drained_sq drains'
  have port := drained_port drains'
  have off : ((h.drained p).slot p).state.isUp = false := by
    unfold State.slot
    rw [record, Table.read_write_same]
    rfl
  refine ⟨?_, calm.empty off queues, by rw [calm.hold, hold], by rw [calm.holdTimer, timer], ?_, ?_, fun none => ?_⟩
  · show (checkDrain p h).slots = _
    unfold State.classOf State.slot at record ⊢
    rw [slots] at record
    rw [show t.slots = (h.drained p).slots from same]
    exact record
  · rw [calm.port, port]
  · rw [calm.port, port, show h.port p = _ from stalls_port p s]
  · have reports : DiscardsStand p h t := checkDrain_discardsStand drains' idle' queues' blocked'
    have waits : h.alarm = s.alarm := (stalls_changes p s).same .alarm rfl
    rw [reports.discards (by rw [waits]; exact none), show h.sq p = _ from stalls_sq p s]

/-- Settles O17: an expiry that stalls the port, one that faults the slot, and one that ends its drain. -/
theorem holdExpiryStallsPort : Obligations.HoldExpiryStallsPort := by
  intro p s
  have run : exec (.holdTimerExpiry p) s = .next (holdExpiry p s.begin) := rfl
  let h := s.begin.stalls p
  have state : ((h.slot p)).state = (s.slot p).state := by
    unfold State.slot
    rw [show h.slots = s.begin.slots from stalls_slots p s.begin]
    rfl
  have length : (s.sq p).queues.copies.length = (s.sq p).queues.sample.length + (s.sq p).queues.timing.length +
      (s.sq p).queues.control.length + (s.sq p).queues.bulk.length := by
    unfold Queues.copies
    simp only [List.length_append]
  have counted (few : (s.sq p).egress.discards < 2 ^ 32) : ((flushAll p s.begin).sq p).egress.discards =
      min ((s.sq p).egress.discards + (s.sq p).queues.copies.length) (2 ^ 32 - 1) := by
    have flushed := (flushAll_discarded p s.begin).counted
    rw [State.sq_updSq_same] at flushed
    exact flushed few
  refine ⟨fun idle => ?_, fun holding runs stays => ?_, fun holding runs drains idle blocked => ?_⟩
  · rw [run, show holdExpiry p s.begin = s.begin from if_neg idle]
    rfl
  · intro q copies count
    have expires := holdExpiry_eq (s := s.begin) holding runs
    have goes : checkDrain p h = h := by
      by_cases drains : (h.slot p).state = .draining
      · refine checkDrain_of_busy ?_
        have busy := stays (state ▸ drains)
        have sends : (h.port p).transmission.isNone = false := by
          rw [show h.port p = _ from stalls_port p s.begin]
          exact Option.isNone_eq_false_iff.2 (Option.isSome_iff_ne_none.2 busy)
        unfold State.egressEmpty
        rw [sends, Bool.and_false]
      · exact checkDrain_of_not_draining drains
    rw [goes] at expires
    have up : h.isUp p = (s.slot p).state.isUp := congrArg SlotState.isUp state
    rw [up] at expires
    refine ⟨fun below few => ?_, fun limit isUp inv => ?_⟩
    · have still : holdExpiry p s.begin = h := by
        rw [expires, if_neg]
        rintro ⟨limit, isUp⟩
        rcases below with below | below
        · exact absurd limit (Nat.not_le.2 below)
        · exact absurd (below.symm.trans isUp) (by decide)
      refine ⟨h, by rw [run, still], ?_, fun n other => stalls_sq_ne other s.begin, stalls_port p s.begin,
        stalls_pausesOnly p s.begin, fun id out => ?_, fun id once f frame => ?_, ?_⟩
      · rw [show h.sq p = _ from stalls_sq p s.begin, counted few]
        rfl
      · exact (flushAll_discarded p s.begin).frames id out
      · exact discardCopies_givesBack once frame
      · refine (stalls_changes p s.begin).after ?_ rfl
        intro part
        cases part <;> first | exact .inl (by decide) | exact .inr rfl
    · have faults : holdExpiry p s.begin = faultSlot p .stall none h := by
        rw [expires, if_pos ⟨limit, isUp⟩]
      exact ⟨_, by rw [run, faults], stalls_faults (s := s.begin) isUp inv.listed⟩
  · intro r q waiting
    obtain ⟨slots, queues, hold, timer, link, seen, discards⟩ := stalls_drains (s := s.begin) drains idle blocked
    have quiesced : (checkDrain p h).isUp p = false := by
      unfold State.isUp State.slot
      rw [slots, Table.read_write_same]
      rfl
    have ends : holdExpiry p s.begin = checkDrain p h := by
      rw [holdExpiry_eq (s := s.begin) holding runs, quiesced]
      exact if_neg (by simp)
    refine ⟨_, by rw [run, ends], slots, queues, hold, timer, link, seen, fun none few => ?_⟩
    have total : (s.sq p).queues.copies.length = waiting := length
    rw [discards none, counted (by omega), total, Nat.min_eq_left (by omega)]

end Sys2Proof.Machine
end

section
/-! SUPPORT. The drop counters beside the slots' changes, and what notices leave of a port that no answer goes to. -/

namespace Sys2Proof.Machine

/-! ### The drop counters stand -/

/-- Between two states no frame was dropped or dispatched. -/
def DropsStand (s t : State) : Prop := t.fwd.drops = s.fwd.drops

section
variable {s t u : State}

theorem DropsStand.trans (h : DropsStand s t) (k : DropsStand t u) : DropsStand s u := Eq.trans k h

theorem DropsStand.of_changes {ps : List Part} (only : OnlyChanges ps s t) (apart : (!ps.contains Part.fwd) = true) :
    DropsStand s t :=
  congrArg Forwarding.drops (only.same .fwd (by simpa using apart))

end

theorem resuspendFlows_drops (g : FlowRecord → Suspension → Suspension) (s : State) : DropsStand s (resuspendFlows g s) := by
  refine .trans ?_ (.of_changes (reexamineFlows_changes _) rfl)
  exact rfl

theorem setReportedWidth_drops (p : Slot) (w : Option Width) (s : State) : DropsStand s (setReportedWidth p w s) := by
  unfold setReportedWidth
  split
  · exact rfl
  · refine .trans ?_ (resuspendFlows_drops ..)
    exact rfl

theorem stopPort_drops (p : Slot) (link : LinkState) (s : State) : DropsStand s (stopPort p link s) := by
  unfold stopPort
  refine .trans ?_ (setReportedWidth_drops ..)
  refine .trans ?_ (.of_changes (updPort_changes _ _ _) rfl)
  refine .trans ?_ (.of_changes (discardAssembly_changes _ _) rfl)
  refine .trans ?_ (.of_changes (dropTests_changes _ _) rfl)
  refine .trans ?_ (.of_changes (cutTransmission_changes _ _) rfl)
  exact rfl

theorem leavePower_drops (n : Slot) (s : State) : DropsStand s (leavePower n s) := by
  have released (t : State) : DropsStand t (releasePower n t) := .of_changes (releasePower_changes n t) rfl
  unfold leavePower
  split
  · exact released s
  all_goals first
    | exact rfl
    | exact (stopPort_drops n .down s).trans (released _)

theorem enterTiming_drops (new : TimingState) (s : State) : DropsStand s (enterTiming new s) := by
  have flows (old : TimingState) (t : State) : DropsStand t (flowsTimingChange old new t) := by
    unfold flowsTimingChange
    split
    · exact resuspendFlows_drops ..
    · exact rfl
  unfold enterTiming
  dsimp only
  refine .trans ?_ (.of_changes (alarmTiming_changes _ _ _) rfl)
  refine .trans ?_ (.of_changes (with_delay_changes _ _) rfl)
  refine .trans ?_ (flows ..)
  split
  · exact rfl
  · exact rfl

theorem examineSelection_drops (s : State) : DropsStand s (examineSelection s) := by
  have selected (x : Option Source) : DropsStand s (s.updTrk fun k => { k with selected := x }) :=
    .of_changes (updTrk_changes _ s) rfl
  unfold examineSelection
  dsimp only
  split
  · exact rfl
  · split
    case h_5 | h_6 =>
      split <;> exact (selected _).trans (enterTiming_drops ..)
    all_goals first
      | exact selected _
      | exact (selected _).trans (enterTiming_drops ..)

theorem reworkProvider_drops (src : Source) (s : State) : DropsStand s (reworkProvider src s) := by
  unfold reworkProvider
  dsimp only
  split
  · exact rfl
  · split <;> exact .of_changes (setSource_changes _ _ _) rfl

theorem trackerSlotChange_drops (old new : SlotState) (s : State) : DropsStand s (trackerSlotChange old new s) := by
  unfold trackerSlotChange
  split
  · exact ((reworkProvider_drops ..).trans (reworkProvider_drops ..)).trans (examineSelection_drops ..)
  · exact rfl

theorem changeSlot_drops (n : Slot) (new : SlotState) (reason : Option FaultReason) (s : State) :
    DropsStand s (changeSlot n new reason s) := by
  have flows (t : State) : DropsStand t (flowsSlotReport n (s.slot n).state new t) := by
    unfold flowsSlotReport
    split
    · exact (resuspendFlows_drops ..).trans (resuspendFlows_drops ..)
    · exact rfl
  unfold changeSlot
  dsimp only
  refine .trans ?_ (trackerSlotChange_drops ..)
  refine .trans ?_ (.of_changes (monitorSlotChange_changes _ _ _) rfl)
  refine .trans ?_ (.of_changes (delaySlotChange_changes _ _ _ _) rfl)
  refine .trans ?_ (.of_changes (queueSlotChange_changes _ _ _ _) rfl)
  refine .trans ?_ (flows _)
  refine .trans ?_ (.of_changes (sidebandReport_changes _ _ _ _) rfl)
  refine .trans ?_ (.of_changes (alarmSlotChange_changes _ _ _ _ _) rfl)
  refine .trans ?_ (.of_changes (agentSlotChange_changes _ _ _ _) rfl)
  exact rfl

theorem enterFaulted_drops (n : Slot) (reason : FaultReason) (kind : Option SidebandOutcome) (s : State) :
    DropsStand s (enterFaulted n reason kind s) := by
  rw [enterFaulted_eq]
  exact (leavePower_drops n s).trans (changeSlot_drops n .faulted (some reason) (s.faulting n reason kind))

theorem grantPower_drops (n : Slot) (s : State) : DropsStand s (grantPower n s) := by
  have linking (t : State) : DropsStand t (enterLinking n t) := by
    unfold enterLinking bringUp
    refine .trans ?_ (changeSlot_drops ..)
    exact stopPort_drops n .training (t.updSlot n fun r => { r with softStart := none })
  unfold grantPower
  dsimp only
  generalize hon : ((({ leaveWaiting n s with slots := _ } : State).updSlot n _)) = on
  have granted : DropsStand s (reportWaiting (changeSlot n .powering none on)) := by
    refine .trans (t := on) (by rw [← hon]; rfl) ?_
    exact (changeSlot_drops n .powering none on).trans (.of_changes (reportWaiting_changes _) rfl)
  split
  · exact granted.trans (enterFaulted_drops ..)
  · split
    · exact granted.trans (linking _)
    · exact granted

theorem servePower_drops (s : State) : DropsStand s (servePower s) := by
  have examined (k : Nat) (t : State) : DropsStand t (examineWaiting k t) := by
    induction k generalizing t with
    | zero => exact rfl
    | succ k ih =>
      unfold examineWaiting
      split
      · exact rfl
      · split
        · exact (grantPower_drops ..).trans (ih _)
        · exact rfl
  refine .trans ?_ (examined _ _)
  exact (DropsStand.of_changes (reportOverBudget_changes s) rfl).trans (.of_changes (reportWaiting_changes _) rfl)

theorem checkDrains_drops (s : State) : DropsStand s (checkDrains s) := by
  unfold checkDrains forSlots
  generalize allSlots = slots
  induction slots generalizing s with
  | nil => exact rfl
  | cons n ns ih =>
    refine DropsStand.trans (t := checkDrain n s) ?_ (ih _)
    unfold checkDrain endDrain
    split
    · refine .trans ?_ (servePower_drops _)
      refine .trans ?_ (changeSlot_drops ..)
      exact leavePower_drops n (countSlot n (fun c => { c with drainsCompleted := count32 c.drainsCompleted }) s)
    · exact rfl

theorem giveUp_drops (p : Slot) (s : State) : DropsStand s (giveUp p s) := by
  let w := setReportedWidth p none (s.updPort p fun q => { q with link := .down })
  have reported : DropsStand s w := setReportedWidth_drops p none (s.updPort p fun q => { q with link := .down })
  have faulted : DropsStand w (enterFaulted p .link none w) := enterFaulted_drops ..
  show DropsStand s (linkDown p w)
  unfold linkDown faultSlot
  dsimp only
  split
  · split
    · exact (reported.trans faulted).trans (servePower_drops _)
    · exact reported.trans faulted
  · exact reported

/-! ### What notices leave of a port -/

/-- Between two states no symbol went out on a port. -/
structure Silent (n : Slot) (s t : State) : Prop where
  symbols : ∀ x, Output.symbol n x ∈ t.out → Output.symbol n x ∈ s.out

/-- No answer that a notice completes goes to a slot: no wait is outstanding, or no in-flight record is the slot's. -/
def State.Unawaited (s : State) (n : Slot) : Prop := s.alarm.waits = [] ∨ ∀ f ∈ s.agent.inflight, f.requester ≠ n

/-- Between two states nothing was put into the queues of a port that no answer goes to. -/
structure Unfed (n : Slot) (s t : State) : Prop where
  unawaited : s.Unawaited n → t.Unawaited n
  empty : s.Unawaited n → s.egressEmpty n = true → t.egressEmpty n = true

section
variable {n : Slot} {s t u : State}

theorem Silent.trans (h : Silent n s t) (k : Silent n t u) : Silent n s u :=
  ⟨fun x hx => h.symbols x (k.symbols x hx)⟩

theorem Silent.of_out (h : t.out = s.out) : Silent n s t := ⟨fun _ hx => h ▸ hx⟩

theorem Silent.of_changes {ps : List Part} (only : OnlyChanges ps s t) (apart : (!ps.contains Part.out) = true) :
    Silent n s t :=
  .of_out (only.same .out (by simpa using apart))

theorem Unfed.refl (n : Slot) (s : State) : Unfed n s s := ⟨id, fun _ => id⟩

theorem Unfed.trans (h : Unfed n s t) (k : Unfed n t u) : Unfed n s u :=
  ⟨fun none => k.unawaited (h.unawaited none), fun none gone => k.empty (h.unawaited none) (h.empty none gone)⟩

theorem Unfed.of_same (waits : t.alarm.waits = s.alarm.waits) (inflight : t.agent.inflight = s.agent.inflight)
    (egress : t.egressEmpty n = s.egressEmpty n) : Unfed n s t :=
  ⟨fun none => by unfold State.Unawaited at none ⊢; rw [waits, inflight]; exact none, fun _ gone => egress.trans gone⟩

theorem Unfed.of_changes {ps : List Part} (only : OnlyChanges ps s t)
    (apart : ([.ports, .qm, .alarm, .agent].all fun p : Part => !ps.contains p) = true) : Unfed n s t := by
  have same (p : Part) (hp : p ∈ [Part.ports, .qm, .alarm, .agent]) : p.Same s t :=
    only.same p (by simpa using List.all_eq_true.1 apart p hp)
  have ports : t.ports = s.ports := same .ports (by decide)
  have qm : t.qm = s.qm := same .qm (by decide)
  have alarm : t.alarm = s.alarm := same .alarm (by decide)
  have agent : t.agent = s.agent := same .agent (by decide)
  refine .of_same (by rw [alarm]) (by rw [agent]) ?_
  unfold State.egressEmpty State.sq State.port
  rw [ports, qm]

end

theorem arbitrate_silent (n m : Slot) (s : State) : Silent n s (arbitrate m s) := by
  rcases arbitrate_cases m s with same | ⟨c, id, rest, f, -, -, -, -, -, out, -⟩
  · exact .of_out (by rw [same])
  · refine ⟨fun x hx => ?_⟩
    rw [out, List.mem_append] at hx
    exact hx.resolve_right (by simp [frameOutput])

/-- The arbiter starts nothing at a port with empty queues. -/
theorem arbitrate_egressEmpty (n m : Slot) {s : State} (gone : s.egressEmpty n = true) :
    (arbitrate m s).egressEmpty n = true := by
  rcases arbitrate_cases m s with same | ⟨c, id, rest, f, -, head, -, others, qm, -⟩
  · rw [same]
    exact gone
  · by_cases h : n = m
    · subst h
      have empty : (s.sq n).queues.isEmpty = true := (Bool.and_eq_true_iff.1 gone).1
      unfold Queues.isEmpty at empty
      cases c <;> simp_all [Queues.ofClass]
    · unfold State.egressEmpty at gone ⊢
      rw [others n h]
      unfold State.sq at gone ⊢
      rw [qm, Table.read_write_ne _ _ h]
      exact gone

theorem sendResponse_silent (n : Slot) (r : Response) (s : State) : Silent n s (sendResponse r s) := by
  unfold sendResponse
  split
  · refine .trans ?_ (arbitrate_silent ..)
    exact .of_out rfl
  · exact .of_out rfl

/-- A response to another slot. -/
theorem sendResponse_egressEmpty {n : Slot} {r : Response} (other : n ≠ r.dest) {s : State}
    (gone : s.egressEmpty n = true) : (sendResponse r s).egressEmpty n = true := by
  unfold sendResponse
  split
  · refine arbitrate_egressEmpty n _ ?_
    unfold State.egressEmpty at gone ⊢
    rw [show (storeFrame (.hub r.frame) r.frame.kind.cls r.frame.cells [r.frame.dest] (s.updAgent _)).sq n = s.sq n from
      Table.read_write_ne _ _ other]
    exact gone
  · unfold State.egressEmpty at gone ⊢
    rw [show (countDiscard r.dest s).sq n = s.sq n from Table.read_write_ne _ _ other]
    exact gone

theorem makeResponse_silent (n : Slot) (kind : ResponseKind) (dest : Slot) (seq : Byte) (payload : List Byte) (s : State) :
    Silent n s (makeResponse kind dest seq payload s) := by
  rcases makeResponse_cases kind dest seq payload s with h | ⟨-, h⟩ | h <;> rw [h]
  · exact sendResponse_silent ..
  · exact .of_out rfl
  · exact .of_out ((joinWaiting_changes _ _).same .out rfl)

theorem makeResponse_egressEmpty {n dest : Slot} (other : n ≠ dest) (kind : ResponseKind) (seq : Byte)
    (payload : List Byte) {s : State} (gone : s.egressEmpty n = true) :
    (makeResponse kind dest seq payload s).egressEmpty n = true := by
  rcases makeResponse_cases kind dest seq payload s with h | ⟨-, h⟩ | h <;> rw [h]
  · exact sendResponse_egressEmpty other gone
  · exact gone
  · unfold joinWaiting
    split
    · exact gone
    · exact gone

theorem complete_silent (n : Slot) (record : Nat) (status : Status) (results : List Byte) (s : State) :
    Silent n s (complete record status results s) := by
  unfold complete
  split
  · refine .trans ?_ (makeResponse_silent ..)
    exact .of_out rfl
  · exact .of_out rfl

theorem complete_egressEmpty {n : Slot} {s : State} (none : ∀ f ∈ s.agent.inflight, f.requester ≠ n) (record : Nat)
    (status : Status) (results : List Byte) (gone : s.egressEmpty n = true) :
    (complete record status results s).egressEmpty n = true := by
  unfold complete
  split
  · next f found => exact makeResponse_egressEmpty (none f (List.mem_of_find?_eq_some found)).symm _ _ _ gone
  · exact gone

theorem deliver_silent (n : Slot) (ws : List Wait) (ns : List Notice) (s : State) : Silent n s (deliver ws ns s) := by
  induction ws generalizing ns s with
  | nil =>
    unfold deliver forEach
    induction ns generalizing s with
    | nil => exact .of_out rfl
    | cons x xs ih => exact .trans (t := pendNotice x s) (.of_out rfl) (ih _)
  | cons w ws ih =>
    unfold deliver
    split
    · exact .of_out rfl
    · refine Silent.trans (t := completeWait w _ s) ?_ (ih ..)
      refine .trans ?_ (complete_silent ..)
      exact .of_out rfl

theorem deliver_egressEmpty {n : Slot} (ws : List Wait) (ns : List Notice) {s : State}
    (none : ∀ f ∈ s.agent.inflight, f.requester ≠ n) (gone : s.egressEmpty n = true) :
    (deliver ws ns s).egressEmpty n = true := by
  induction ws generalizing ns s with
  | nil =>
    unfold deliver forEach
    induction ns generalizing s with
    | nil => exact gone
    | cons x xs ih => exact ih none gone
  | cons w ws ih =>
    unfold deliver
    split
    · exact gone
    · let t := s.updAlarm fun a => { a with waits := a.waits.filter (·.record != w.record), overflow := false }
      have kept : AgentKept n t (completeWait w (ns.take Config.maxNoticesPerWait) s) :=
        (complete_away (mv := true) n ..).agent
      exact ih _ (fun f hf => none f (kept.inflight f hf)) (complete_egressEmpty (s := t) none _ _ _ gone)

theorem produce_silent (n : Slot) (bodies : List NoticeBody) (s : State) : Silent n s (produce bodies s) := by
  unfold produce
  refine .trans ?_ (deliver_silent ..)
  exact .of_out rfl

theorem produce_unfed (n : Slot) (bodies : List NoticeBody) (s : State) : Unfed n s (produce bodies s) where
  unawaited none := none.imp (fun none => (produce_of_no_waits none bodies).2) fun none f hf =>
    none f ((produce_calm (mv := true) n bodies s).agent.inflight f hf)
  empty none gone := by
    rcases none with none | none
    · have only := (produce_of_no_waits none bodies).1
      unfold State.egressEmpty State.sq State.port
      rw [show (produce bodies s).qm = s.qm from only.same .qm rfl,
        show (produce bodies s).ports = s.ports from only.same .ports rfl]
      exact gone
    · unfold produce
      exact deliver_egressEmpty _ _ none gone

theorem changePoint_silent (n : Slot) (id : PointId) (new : Point) (s : State) : Silent n s (changePoint id new s) :=
  .trans (t := movePoint id new s) (.of_out rfl) (produce_silent ..)

theorem changePoint_unfed (n : Slot) (id : PointId) (new : Point) (s : State) : Unfed n s (changePoint id new s) := by
  unfold changePoint
  refine .trans ?_ (produce_unfed ..)
  exact .of_same rfl rfl rfl

theorem resuspendFlows_silent (n : Slot) (g : FlowRecord → Suspension → Suspension) (s : State) :
    Silent n s (resuspendFlows g s) :=
  (Silent.of_changes (with_fwd_changes s _) rfl).trans (changePoint_silent ..)

theorem resuspendFlows_unfed (n : Slot) (g : FlowRecord → Suspension → Suspension) (s : State) :
    Unfed n s (resuspendFlows g s) :=
  (Unfed.of_changes (with_fwd_changes s _) rfl).trans (changePoint_unfed ..)

theorem setReportedWidth_silent (n p : Slot) (w : Option Width) (s : State) : Silent n s (setReportedWidth p w s) := by
  unfold setReportedWidth
  split
  · exact .of_out rfl
  · refine .trans ?_ (resuspendFlows_silent ..)
    exact .of_out rfl

theorem setReportedWidth_unfed (n p : Slot) (w : Option Width) (s : State) : Unfed n s (setReportedWidth p w s) := by
  unfold setReportedWidth
  split
  · exact .refl n s
  · refine .trans ?_ (resuspendFlows_unfed ..)
    refine .of_same rfl rfl ?_
    by_cases h : n = p
    · subst h
      unfold State.egressEmpty
      rw [State.port_updSlot, State.port_updPort_same]
      rfl
    · unfold State.egressEmpty
      rw [State.port_updSlot, State.port_updPort_ne _ _ _ h]
      rfl

end Sys2Proof.Machine
end

section
/-! The end of a frame in TESTING. -/

namespace Sys2Proof.Machine

/-! ### A frame in TESTING is tested, judged and handed on -/

/-- A frame in TESTING that fails a test of its port is judged, and dropped for the reason (R7, R11). -/
theorem receptionEnd_judged_dropped {s : State} {p : Slot} {lanes : List (List Byte)} {a : Assembly}
    (whole : TakenWhole s p lanes a) (testing : (s.port p).link = .testing) {reason : DropReason}
    (fails : portTest s p a.truncated (frameOfLanes lanes) = some reason) :
    receptionEnd p lanes s.begin = dropFrame p reason .none (judgeReturn p a.truncated (frameOfLanes lanes)
      (s.counted p (errorsAfter s p a.truncated (frameOfLanes lanes)))) := by
  rw [receptionEnd_of_whole (s := s.begin) whole, receiveFrame_begin, fails, testing]
  rfl

/-- A frame in TESTING that passes the tests of its port is judged, and handed on (R7, R28). -/
theorem receptionEnd_judged_forwarded {s : State} {p : Slot} {lanes : List (List Byte)} {a : Assembly}
    (whole : TakenWhole s p lanes a) (testing : (s.port p).link = .testing)
    (passes : portTest s p a.truncated (frameOfLanes lanes) = none) :
    receptionEnd p lanes s.begin = forwardFrame p (frameOfLanes lanes) s.hubNow (judgeReturn p a.truncated
      (frameOfLanes lanes) (s.counted p (errorsAfter s p a.truncated (frameOfLanes lanes)))) := by
  rw [receptionEnd_of_whole (s := s.begin) whole, receiveFrame_begin, passes, testing]
  rfl

theorem intactReturn_iff (p : Slot) (q : Port) (bytes : List Byte) : intactReturn p q bytes = true ↔
    checkPasses bytes = true ∧ bytes.length = 64 ∧ frameKindOf bytes = some .test ∧ frameDest bytes = 0 ∧
      frameSource bytes = p.val + 1 ∧ (frameSeq bytes).toNat = q.testProgress ∧ framePayloadLength bytes = 40 ∧
      framePayload bytes = testPayload q.attempt q.testProgress := by
  unfold intactReturn slotNumber
  simp only [Bool.and_eq_true, beq_iff_eq, and_assoc]

/-- A frame that is no intact return fails the attempt (R5, R7). -/
theorem judgeReturn_fails {p : Slot} {truncated : Bool} {bytes : List Byte} {s : State}
    (damaged : ¬ (truncated = false ∧ intactReturn p (s.port p) bytes = true)) :
    judgeReturn p truncated bytes s = attemptFails p s :=
  if_neg fun h => damaged (by simpa using h)

/-- An intact return is counted, and the sixteenth brings the link UP (R7). -/
theorem judgeReturn_intact {p : Slot} {bytes : List Byte} {s : State} (intact : intactReturn p (s.port p) bytes = true) :
    let t := s.updPort p fun q => { q with testProgress := q.testProgress + 1 }
    judgeReturn p false bytes s = if 16 ≤ (s.port p).testProgress + 1 then enterUp p t else t := by
  intro t
  have progress : (t.port p).testProgress = (s.port p).testProgress + 1 := by rw [State.port_updPort_same]
  unfold judgeReturn
  rw [if_pos (by simpa using intact), ← progress]

/-! ### What a frame that failed the attempt counts -/

/-- The drop counters once a frame that failed its attempt is counted: the test of its port that it fails, or the check of
readiness and path (R11, R28, R29, R35). -/
def State.dropsAfterFailure (s : State) (p : Slot) (truncated : Bool) (bytes : List Byte) : PerSlot DropCounters :=
  match portTest s p truncated bytes with
  | some reason => s.dropsAfter p reason
  | none =>
    if frameKindOf bytes ≠ some .test then s.dropsAfter p .notReady
    else if frameDest bytes = 0 then s.dropsAfterDispatch p
    else s.dropsAfter p .noPath

/-- The drop counters written by a drop or dispatch depend on the drop counters before it alone. -/
theorem dropsAfter_of_stand {s t : State} (h : DropsStand s t) (p : Slot) (reason : DropReason) :
    t.dropsAfter p reason = s.dropsAfter p reason := by
  unfold State.dropsAfter
  rw [h]

theorem dropsAfterDispatch_of_stand {s t : State} (h : DropsStand s t) (p : Slot) :
    t.dropsAfterDispatch p = s.dropsAfterDispatch p := by
  unfold State.dropsAfterDispatch
  rw [h]

theorem dropFrame_of_none {p : Slot} {s t : State} (gone : (t.port p).assembly = none) (h : DropsStand s t)
    (reason : DropReason) :
    dropFrame p reason .none t = { t with fwd := { t.fwd with drops := s.dropsAfter p reason } } := by
  unfold dropFrame
  rw [countDrop_none, dropsAfter_of_stand h]
  exact discardAssembly_of_none gone

theorem dispatchFrame_id (p : Slot) (t : State) : dispatchFrame p id t =
    discardAssembly p { t with fwd := { t.fwd with drops := t.dropsAfterDispatch p } } := rfl

theorem forwardFrame_test {p : Slot} {bytes : List Byte} (test : frameKindOf bytes = some .test)
    (hub : frameDest bytes = 0) (arrival : Stamp) (s : State) : forwardFrame p bytes arrival s = dispatchFrame p id s := by
  unfold forwardFrame
  dsimp only
  rw [if_neg fun h => h.1 test, if_pos hub]
  unfold dispatchByKind
  rw [test]

/-- A frame whose attempt failed is counted, with no cells left to free (LOG 36). -/
theorem receptionEnd_failed {s v : State} {p : Slot} {lanes : List (List Byte)} {a : Assembly}
    (whole : TakenWhole s p lanes a) (testing : (s.port p).link = .testing)
    (judged : judgeReturn p a.truncated (frameOfLanes lanes)
      (s.counted p (errorsAfter s p a.truncated (frameOfLanes lanes))) = v)
    (down : (v.port p).link ≠ .up) (gone : (v.port p).assembly = none) (stand : DropsStand s v) :
    receptionEnd p lanes s.begin =
      { v with fwd := { v.fwd with drops := s.dropsAfterFailure p a.truncated (frameOfLanes lanes) } } := by
  unfold State.dropsAfterFailure
  cases tested : portTest s p a.truncated (frameOfLanes lanes) with
  | some reason => rw [receptionEnd_judged_dropped whole testing tested, judged, dropFrame_of_none gone stand]
  | none =>
    rw [receptionEnd_judged_forwarded whole testing tested, judged]
    dsimp only
    by_cases test : frameKindOf (frameOfLanes lanes) = some .test
    · rw [if_neg (not_not.2 test)]
      by_cases hub : frameDest (frameOfLanes lanes) = 0
      · rw [if_pos hub, forwardFrame_test test hub, dispatchFrame_id, dropsAfterDispatch_of_stand stand]
        exact discardAssembly_of_none gone
      · rw [if_neg hub, ← dropFrame_of_none gone stand]
        unfold forwardFrame
        dsimp only
        rw [if_neg fun h => h.1 test, if_neg hub, if_neg (by rw [test]; decide)]
    · rw [if_pos test, ← dropFrame_of_none gone stand]
      exact if_pos ⟨test, .inr down⟩

/-- The error count rises where the check of a whole frame fails alone (R11, R18). -/
theorem errorsAfter_eq (s : State) (p : Slot) (truncated : Bool) (bytes : List Byte) :
    errorsAfter s p truncated bytes = if truncated = false ∧ checkPasses bytes = false then
      min ((s.port p).errorCount + 1) 65535 else (s.port p).errorCount := by
  have damaged : portTest s p truncated bytes = some .badCheck ↔ truncated = false ∧ checkPasses bytes = false := by
    unfold portTest
    cases truncated
    · cases checkPasses bytes
      · simp
      · cases badLength (s.cardMaxFrame p) bytes <;> simp
    · simp
  unfold errorsAfter
  simp only [damaged]
  rfl

/-- The drop counters by the test that the frame fails. -/
theorem dropsAfterFailure_cases (s : State) (p : Slot) (bytes : List Byte) :
    let kind := frameKindOf bytes
    let declared := 20 + framePayloadLength bytes + 4
    let misfit : Prop := bytes.length < 64 ∨ 2048 < bytes.length ∨ s.cardMaxFrame p < bytes.length ∨
      (declared ≠ bytes.length ∧ ¬ (bytes.length = 64 ∧ declared < 64))
    s.dropsAfterFailure p true bytes = s.dropsAfter p .noBuffer ∧
      (checkPasses bytes = false → s.dropsAfterFailure p false bytes = s.dropsAfter p .badCheck) ∧
      (checkPasses bytes = true → misfit → s.dropsAfterFailure p false bytes = s.dropsAfter p .badLength) ∧
      (checkPasses bytes = true → ¬ misfit →
        (kind ≠ some .test → s.dropsAfterFailure p false bytes = s.dropsAfter p .notReady) ∧
        (kind = some .test → frameDest bytes ≠ 0 → s.dropsAfterFailure p false bytes = s.dropsAfter p .noPath) ∧
        (kind = some .test → frameDest bytes = 0 → s.dropsAfterFailure p false bytes = s.dropsAfterDispatch p)) := by
  intro kind declared misfit
  unfold State.dropsAfterFailure
  refine ⟨by rw [portTest_of_truncated], fun damaged => by rw [portTest_of_damaged s p damaged],
    fun check bad => by rw [portTest_of_misfit s p check ((badLength_iff _ _).2 bad)], fun check fit => ?_⟩
  rw [portTest_of_fit s p check (Bool.eq_false_iff.2 (mt (badLength_iff _ _).1 fit))]
  exact ⟨fun other => if_pos other, fun test slot => (if_neg (not_not.2 test)).trans (if_neg slot),
    fun test hub => (if_neg (not_not.2 test)).trans (if_pos hub)⟩

/-! ### The attempt that a frame fails -/

theorem counted_trainsAgain (p : Slot) (errors : Nat) (s : State) :
    let received := (portAfterFrame (s.port p) 0).counters
    (s.counted p errors).trainsAgain p = { s with
      ports := s.ports.write p { s.portTold p (s.pausedWithout p) with
        link := .training, attempt := (s.port p).attempt + 1, trained := [], workingWidth := none, lanesInUse := []
        trainingDeadline := some (s.time.localTicks + 250000), testDeadline := none, testUnsent := [], testNext := 16
        testProgress := 0, assembly := none, errorCount := errors
        transmission := match (s.port p).transmission with
          | some (.test _ _) => none
          | x => x
        counters := { received with failedAttempts := oneMore (s.port p).counters.failedAttempts } }
      qm := { s.qm with
        waiting := s.qm.waiting.filter (· ≠ .test p)
        slot := s.qm.slot.write p { s.sq p with paused := s.pausedWithout p } }
      out := [] } := by
  intro received
  have port := counted_port p errors s
  have paused : (s.counted p errors).pausedWithout p = s.pausedWithout p := by
    unfold State.pausedWithout State.heldCells
    rw [port]
    rfl
  have told (b : Bool) : (s.counted p errors).portTold p b =
      { s.portTold p b with
        errorCount := errors, counters := received } := by
    unfold State.portTold
    rw [port, show (s.counted p errors).sq p = s.sq p from rfl]
    split <;> rfl
  have ports (q : Port) : (s.counted p errors).ports.write p q = s.ports.write p q := Table.write_write ..
  unfold State.trainsAgain
  dsimp only
  rw [paused, told, ports, port]
  rfl

/-- The last attempt that fails ends the bring-up (R5). -/
theorem attemptFails_last {p : Slot} {s : State} (down : (s.port p).link ≠ .up) (last : 3 ≤ (s.port p).attempt) :
    attemptFails p s = giveUp p (s.attemptEnded p) := by
  unfold attemptFails
  rw [failAttempt_eq 3 down, if_neg (by omega)]

theorem giveUp_errorCount {p : Slot} {s t u : State} (slots : t.slots = s.slots) (h : s.Linked p) (listed : s.Listed)
    (after : Serves (giveUp p t) u) : (u.port p).errorCount = (t.port p).errorCount := by
  obtain ⟨gives, linked, listed'⟩ := giveUp_eq slots h listed
  have away := faulted_away ((faultSlot_serves linked listed' .link none).trans (gives ▸ after))
  rw [away.port, enterFaulted_port linked, setReportedWidth_port, State.port_updPort_same]

end Sys2Proof.Machine
end

section
/-! SUPPORT. A link that comes UP. -/

namespace Sys2Proof.Machine

/-! ### The port as its link comes UP -/

/-- The state as a link has come UP with its width reported and its pause symbol sent, before the slot moves (R7). -/
def State.comesUp (p : Slot) (s : State) : State :=
  (setReportedWidth p (s.port p).workingWidth (s.updPort p fun q => { q with link := .up, testDeadline := none })).emit
    (.symbol p (if (s.port p).pauseAsserted then .pauseOn else .pauseOff))

theorem comesUp_port (p : Slot) (s : State) : (s.comesUp p).port p = { s.port p with
    link := .up, testDeadline := none, reportedWidth := (s.port p).workingWidth
    transmission := ((s.comesUp p).port p).transmission } := by
  unfold State.comesUp
  rw [State.port_emit, setReportedWidth_port, State.port_updPort_same]

theorem enterUp_eq (p : Slot) (s : State) : enterUp p s = arbitrate p (linkUp p (s.comesUp p)) := by
  have paused : ((setReportedWidth p (s.port p).workingWidth
      (s.updPort p fun q => { q with link := .up, testDeadline := none })).port p).pauseAsserted =
      (s.port p).pauseAsserted := by
    rw [setReportedWidth_port, State.port_updPort_same]
  unfold enterUp State.comesUp
  dsimp only
  rw [State.port_updPort_same]
  dsimp only
  rw [paused]

theorem comesUp_slots (p : Slot) (s : State) : (s.comesUp p).slots =
    if (s.port p).reportedWidth = (s.port p).workingWidth then s.slots else
      { s.slots with slot := s.slots.slot.write p { s.slot p with width := (s.port p).workingWidth } } := by
  have slots := setReportedWidth_slots p (s.port p).workingWidth
    (s.updPort p fun q => { q with link := .up, testDeadline := none })
  rw [State.port_updPort_same] at slots
  exact slots

theorem comesUp_slot (p : Slot) (s : State) : (s.comesUp p).slot p = { s.slot p with
    width := if (s.port p).reportedWidth = (s.port p).workingWidth then (s.slot p).width
      else (s.port p).workingWidth } := by
  unfold State.slot
  rw [comesUp_slots]
  split
  · rfl
  · rw [Table.read_write_same]
    rfl

theorem comesUp_slot_ne {p m : Slot} (other : m ≠ p) (s : State) : (s.comesUp p).slot m = s.slot m := by
  unfold State.slot
  rw [comesUp_slots]
  split
  · rfl
  · exact Table.read_write_ne _ _ other

/-- The pause symbol is the first symbol of the port that goes out (R7). -/
theorem comesUp_out {p : Slot} {s : State} (fresh : s.out = []) : ∃ before, (s.comesUp p).out =
    before ++ [.symbol p (if (s.port p).pauseAsserted then .pauseOn else .pauseOff)] ∧ ∀ x, .symbol p x ∉ before := by
  refine ⟨_, rfl, fun x hx => ?_⟩
  have went := (setReportedWidth_silent p p _ _).symbols x hx
  rw [show (s.updPort p _).out = s.out from rfl, fresh] at went
  cases went

theorem comesUp_unfed (p : Slot) (s : State) : Unfed p s (s.comesUp p) := by
  refine .trans ?_ (.of_same (s := setReportedWidth p (s.port p).workingWidth _) rfl rfl rfl)
  refine .trans ?_ (setReportedWidth_unfed p p _ _)
  refine .of_same rfl rfl ?_
  unfold State.egressEmpty
  rw [State.port_updPort_same]
  rfl

/-- A change of a reported width gives no port anything less to send. -/
theorem setReportedWidth_busy (p : Slot) (w : Option Width) {s : State} (busy : s.egressEmpty p = false) :
    (setReportedWidth p w s).egressEmpty p = false := by
  unfold setReportedWidth
  split
  · exact busy
  · refine (evaluateFit_calm (mv := true) p _).busy ?_
    unfold State.egressEmpty at busy ⊢
    rw [State.port_updSlot, State.port_updPort_same]
    exact busy

theorem comesUp_busy {p : Slot} {s : State} (busy : s.egressEmpty p = false) : (s.comesUp p).egressEmpty p = false := by
  refine setReportedWidth_busy p _ (s := s.updPort p fun q => { q with link := .up, testDeadline := none }) ?_
  unfold State.egressEmpty at busy ⊢
  rw [State.port_updPort_same]
  exact busy

/-! ### The slot as its link comes UP -/

/-- The slot is admitted: by its flag or by the policy of its card's kind, a CONTROL card in slot 1 or 2 always (R126). -/
def State.admits (s : State) (n : Slot) : Bool :=
  (s.slot n).admitted || (s.slot n).identity.any fun i =>
    (i.kind == .control && isControllerSlot n) || !(s.slots.manual.read i.kind.index)

theorem linkUp_of_linking {n : Slot} {s : State} (linking : (s.slot n).state = .linking) : linkUp n s =
    changeSlot n (if s.admits n then .active else .standby) none (s.updSlot n fun q => { q with admitted := s.admits n }) :=
  if_pos linking

theorem linkUp_of_other {n : Slot} {s : State} (other : (s.slot n).state ≠ .linking) : linkUp n s = s := if_neg other

theorem admits_iff {s : State} {n : Slot} {i : Identity} (identity : (s.slot n).identity = some i) :
    s.admits n = true ↔ (s.slot n).admitted = true ∨ (i.kind = .control ∧ n.val < 2) ∨
      s.slots.manual.read i.kind.index = false := by
  unfold State.admits isControllerSlot
  rw [identity]
  simp

/-- The slot comes to an up state, and keeps the rest of its record but for its lamp, its power enable and its flag. -/
theorem linkUp_slot (n : Slot) (s : State) : ((linkUp n s).slot n).width = (s.slot n).width ∧
    ((s.slot n).state = .linking → ((linkUp n s).slot n).state = if s.admits n then .active else .standby) := by
  by_cases linking : (s.slot n).state = .linking
  · rw [linkUp_of_linking linking, changeSlot_slot, State.slot_updSlot_same]
    exact ⟨rfl, fun _ => rfl⟩
  · rw [linkUp_of_other linking]
    exact ⟨rfl, fun h => absurd h linking⟩

theorem linkUp_slot_ne {n m : Slot} (other : m ≠ n) (s : State) : (linkUp n s).slot m = s.slot m := by
  unfold linkUp
  split
  · exact (changeSlot_slot_ne other ..).trans (State.slot_updSlot_ne _ _ _ other)
  · rfl

theorem linkUp_waitingList (n : Slot) (s : State) : (linkUp n s).slots.waitingList = s.slots.waitingList := by
  unfold linkUp
  split
  · exact changeSlot_waitingList ..
  · rfl

theorem linkUp_stands (n : Slot) (s : State) : PortStands n s (linkUp n s) := by
  by_cases linking : (s.slot n).state = .linking
  · rw [linkUp_of_linking linking]
    refine .trans ?_ (changeSlot_stands n (by split <;> decide) none _)
    exact .of_same rfl rfl (List.prefix_refl _)
  · rw [linkUp_of_other linking]
    exact .refl n s

/-! ### The link UP as a whole -/

theorem enterUp_slots (p : Slot) (s : State) : (enterUp p s).slots = (linkUp p (s.comesUp p)).slots := by
  rw [enterUp_eq]
  exact (arbitrate_changes _ _).same .slots rfl

theorem enterUp_slot (p : Slot) (s : State) : ((enterUp p s).slot p).width =
      (if (s.port p).reportedWidth = (s.port p).workingWidth then (s.slot p).width else (s.port p).workingWidth) ∧
    ((s.slot p).state = .linking → ((enterUp p s).slot p).state = if s.admits p then .active else .standby) ∧
    ((s.slot p).state ≠ .linking → (enterUp p s).slots = (s.comesUp p).slots) := by
  have record := comesUp_slot p s
  have slot (m : Slot) : (enterUp p s).slot m = (linkUp p (s.comesUp p)).slot m := by
    unfold State.slot
    rw [enterUp_slots]
  obtain ⟨width, state⟩ := linkUp_slot p (s.comesUp p)
  have admits : (s.comesUp p).admits p = s.admits p := by
    have manual : (s.comesUp p).slots.manual = s.slots.manual := by
      rw [comesUp_slots]
      split <;> rfl
    unfold State.admits
    rw [record, manual]
  refine ⟨?_, fun linking => ?_, fun other => ?_⟩
  · rw [slot, width, record]
  · rw [slot, state (by rw [record]; exact linking), admits]
  · rw [enterUp_slots, linkUp_of_other (by rw [record]; exact other)]

theorem enterUp_slot_ne {p m : Slot} (other : m ≠ p) (s : State) : (enterUp p s).slot m = s.slot m := by
  have slot : (enterUp p s).slot m = (linkUp p (s.comesUp p)).slot m := by
    unfold State.slot
    rw [enterUp_slots]
  rw [slot, linkUp_slot_ne other, comesUp_slot_ne other]

theorem enterUp_listed {p : Slot} {s : State} (linked : s.Linked p) (listed : s.Listed) : (enterUp p s).Listed := by
  intro m hm
  have list : (enterUp p s).slots.waitingList = s.slots.waitingList := by
    rw [enterUp_slots, linkUp_waitingList, comesUp_slots]
    split <;> rfl
  have waits := listed m (list ▸ hm)
  rw [enterUp_slot_ne, waits]
  rintro rfl
  exact linked.not_waiting waits

theorem enterUp_stands (p : Slot) (s : State) : PortStands p (s.comesUp p) (enterUp p s) := by
  rw [enterUp_eq]
  exact (linkUp_stands p _).trans (arbitrate_calm (mv := true) ..).portStands

/-- A slot that drains stays as it is with its link UP, with something to send or nothing. -/
theorem enterUp_egressEmpty {p : Slot} {s : State} (other : (s.slot p).state ≠ .linking) :
    (s.egressEmpty p = false → (enterUp p s).egressEmpty p = false) ∧
      (s.Unawaited p → s.egressEmpty p = true → (enterUp p s).egressEmpty p = true) := by
  rw [enterUp_eq, linkUp_of_other (by rw [comesUp_slot]; exact other)]
  exact ⟨fun busy => (arbitrate_calm (mv := true) p p _).busy (comesUp_busy busy),
    fun none gone => arbitrate_egressEmpty p p ((comesUp_unfed p s).empty none gone)⟩

/-! ### The return that brought it UP -/

/-- The dispatch of a TEST frame frees its cells, and the pause that follows is told to the port (R15, R30, R45, R51). -/
theorem dispatchFrame_stands (p : Slot) (s : State) :
    let t := dispatchFrame p id s
    t.slots = s.slots ∧ t.egressEmpty p = s.egressEmpty p ∧ s.out <+: t.out ∧
      t.port p = { s.port p with assembly := none, pauseAsserted := (t.port p).pauseAsserted } ∧
      ((s.port p).link = .up → (t.port p).pauseAsserted = (s.port p).pauseAsserted ∨
        .symbol p (if (t.port p).pauseAsserted then .pauseOn else .pauseOff) ∈ t.out) := by
  intro t
  have freed : t = discardAssembly p { s with fwd := { s.fwd with drops := s.dropsAfterDispatch p } } := rfl
  have record := discardAssembly_port p { s with fwd := { s.fwd with drops := s.dropsAfterDispatch p } }
  have queues := discardAssembly_sq p p { s with fwd := { s.fwd with drops := s.dropsAfterDispatch p } }
  have out := congrArg State.out (discardAssembly_eq p { s with fwd := { s.fwd with drops := s.dropsAfterDispatch p } })
  rw [← freed] at record queues out
  refine ⟨?_, ?_, out ▸ List.prefix_append _ _, record, fun up => ?_⟩
  · rw [freed, (discardAssembly_changes _ _).same .slots rfl]
  · unfold State.egressEmpty
    rw [record, queues]
    rfl
  · have told : t.port p = { State.portTold s p (State.pausedWithout s p) with assembly := none } := by
      rw [freed, discardAssembly_eq]
      exact Table.read_write_same _ _ _
    have asserted : (t.port p).pauseAsserted = (s.portTold p (s.pausedWithout p)).pauseAsserted := by rw [told]
    have symbols : t.out = s.out ++ s.symbolsTold p (s.pausedWithout p) := out
    rw [symbols, asserted]
    unfold State.portTold State.symbolsTold
    by_cases same : s.pausedWithout p = (s.sq p).paused
    · rw [if_pos same]
      exact .inl rfl
    · rw [if_neg same]
      by_cases kept : s.pausedWithout p = (s.port p).pauseAsserted
      · exact .inl kept
      · refine .inr ?_
        rw [if_neg (by simp [same, kept, up])]
        simp

/-! ### Drains of one slot alone -/

/-- Where one slot alone drains, at the start and at its end, the ends of drains are its own. -/
theorem checkDrains_alone {n : Slot} {s : State} (before : ∀ m, m ≠ n → (s.slot m).state ≠ .draining)
    (after : ∀ m, m ≠ n → ((checkDrain n s).slot m).state ≠ .draining) : checkDrains s = checkDrain n s := by
  have none (ms : List Slot) {t : State} (h : ∀ m ∈ ms, (t.slot m).state ≠ .draining) :
      ms.foldl (fun u m => checkDrain m u) t = t := by
    induction ms with
    | nil => rfl
    | cons m ms ih =>
      rw [List.foldl_cons, checkDrain_of_not_draining (h m List.mem_cons_self)]
      exact ih fun k hk => h k (List.mem_cons_of_mem _ hk)
  obtain ⟨front, rear, split⟩ := List.append_of_mem ((by decide : ∀ q : Slot, q ∈ allSlots) n)
  have nodup : (front ++ n :: rear).Nodup := split ▸ (by decide)
  obtain ⟨-, tail, apart⟩ := List.nodup_append.1 nodup
  unfold checkDrains forSlots
  rw [split, List.foldl_append, List.foldl_cons, none front fun m hm => before m (apart m hm n List.mem_cons_self),
    none rear fun m hm => after m fun e => (List.nodup_cons.1 tail).1 (e ▸ hm)]

end Sys2Proof.Machine
end

section
/-! Test returns. -/

namespace Sys2Proof.Machine

/-- A return that is counted before its test progress is raised. -/
theorem counted_updPort_progress (p : Slot) (errors : Nat) (s : State) :
    (s.counted p errors).updPort p (fun q => { q with testProgress := q.testProgress + 1 }) =
      (s.updPort p fun q => { q with testProgress := q.testProgress + 1 }).counted p errors := by
  rw [updPort_eq_write, counted_port]
  unfold State.counted
  rw [State.port_updPort_same]
  show ({ s with ports := (s.ports.write p _).write p _, out := [] } : State) =
    { s with ports := (s.ports.write p _).write p _, out := [] }
  rw [Table.write_write, Table.write_write]
  rfl

/-- The end of an intact return: it is counted, judged, and dispatched to the hub (R7, R30). -/
theorem receptionEnd_intact {s : State} {p : Slot} {lanes : List (List Byte)}
    (whole : TakenWhole s p lanes ⟨1, false⟩) (testing : (s.port p).link = .testing) (room : 64 ≤ s.cardMaxFrame p)
    (intact : intactReturn p (s.port p) (frameOfLanes lanes) = true) :
    let c := (s.updPort p fun q => { q with testProgress := q.testProgress + 1 }).counted p (s.port p).errorCount
    receptionEnd p lanes s.begin = dispatchFrame p id (if 16 ≤ (s.port p).testProgress + 1 then enterUp p c else c) := by
  intro c
  obtain ⟨check, length, test, hub, -, -, payload, -⟩ := (intactReturn_iff _ _ _).1 intact
  have passes : portTest s p false (frameOfLanes lanes) = none := by
    refine portTest_of_fit s p check (Bool.eq_false_iff.2 fun bad => ?_)
    rw [badLength_iff] at bad
    omega
  have errors : errorsAfter s p false (frameOfLanes lanes) = (s.port p).errorCount := by simp [errorsAfter, passes]
  have port := counted_port p (s.port p).errorCount s
  rw [receptionEnd_judged_forwarded whole testing passes, errors, forwardFrame_test test hub,
    judgeReturn_intact (by rw [port]; exact intact), port, counted_updPort_progress]
  rfl

/-- Where a drain cannot end with the link UP, the port is UP and told of its pause, and the slot of its width (R7, R78). -/
theorem enterUp_completes {p : Slot} {s : State} (linked : s.Linked p) (listed : s.Listed)
    (stays : (s.slot p).state ≠ .draining ∨ s.egressEmpty p = false) :
    let t := checkDrains (dispatchFrame p id (enterUp p s))
    (t.port p).link = .up ∧ (t.port p).testDeadline = none ∧ (t.port p).reportedWidth = (s.port p).workingWidth ∧
      ((t.port p).pauseAsserted = (s.port p).pauseAsserted ∨
        .symbol p (if (t.port p).pauseAsserted then .pauseOn else .pauseOff) ∈ t.out) ∧
      t.slot p = (enterUp p s).slot p := by
  let u := enterUp p s
  let d := dispatchFrame p id u
  obtain ⟨slots, egress, grew, port, told⟩ : d.slots = u.slots ∧ d.egressEmpty p = u.egressEmpty p ∧ _ :=
    dispatchFrame_stands p u
  have listed' : d.Listed := by
    have up := enterUp_listed linked listed
    unfold State.Listed State.slot at up ⊢
    rw [show d.slots = u.slots from slots]
    exact up
  have slot : d.slot p = u.slot p := by
    unfold State.slot
    rw [slots]
  obtain ⟨-, linking, other⟩ := enterUp_slot p s
  have still : d.Stays p := by
    unfold State.Stays
    rw [slot, egress]
    by_cases h : (s.slot p).state = .linking
    · rw [show (u.slot p).state = _ from linking h]
      split <;> exact ⟨by decide, fun h => by cases h⟩
    · have same : (u.slot p).state = (s.slot p).state := by
        have kept : u.slot p = (s.comesUp p).slot p := by
          unfold State.slot
          rw [show u.slots = _ from other h]
        rw [kept, comesUp_slot]
      rw [same]
      exact ⟨linked.not_waiting, fun drains => (enterUp_egressEmpty h).1 (stays.resolve_left fun k => k drains)⟩
  have away := (checkDrains_serves listed').away p still
  have stands : PortStands p (s.comesUp p) u := enterUp_stands p s
  have record := comesUp_port p s
  have link : (u.port p).link = .up := by rw [stands.port, record]
  refine ⟨?_, ?_, ?_, ?_, away.slot.trans slot⟩
  · rw [away.port, port]
    exact link
  · rw [away.port, port, stands.port, record]
  · rw [away.port, port, stands.port, record]
  · have first := stands.told (by rw [record])
    have second := told link
    have third := away.told (by rw [port]; exact link)
    rw [record] at first
    rcases third with same | told
    · rw [same]
      rcases second with same | told
      · rw [same]
        exact first.imp_right fun told => away.out.subset (grew.subset told)
      · exact .inr (away.out.subset told)
    · exact .inr told

/-- The drain of the one slot that drains ends with nothing to send (R2, R129). -/
theorem checkDrains_quiesces {p : Slot} {s : State} (drains : (s.slot p).state = .draining)
    (empty : s.egressEmpty p = true) (alone : ∀ m, m ≠ p → (s.slot m).state ≠ .draining)
    (blocked : s.HeadBlocked s.slots.waitingList (s.slots.committed - s.classOf p)) :
    let t := checkDrains s
    t.slot p = (s.drained p).slot p ∧ t.slots.committed = s.slots.committed - s.classOf p ∧ (t.port p).link = .down ∧
      (t.port p).reportedWidth = none := by
  obtain ⟨ends, calm⟩ := checkDrain_ends drains empty blocked
  have port := drained_port drains
  have final := drained_slots drains
  have whole : checkDrains s = checkDrain p s := by
    refine checkDrains_alone alone fun m h => ?_
    unfold State.slot
    rw [ends, final]
    dsimp only
    rw [Table.read_write_ne _ _ h]
    exact alone m h
  intro t
  rw [show t = checkDrain p s from whole]
  refine ⟨?_, ?_, ?_, ?_⟩
  · unfold State.slot
    rw [ends]
  · rw [ends, final]
  · rw [calm.port, port]
  · rw [calm.port, port]

/-- A drain whose port has nothing to send ends as its link comes UP (R129). -/
theorem enterUp_drains {p : Slot} {s : State} (drains : (s.slot p).state = .draining) (gone : s.egressEmpty p = true)
    (none : s.Unawaited p) (alone : ∀ m, m ≠ p → (s.slot m).state ≠ .draining)
    (blocked : s.HeadBlocked s.slots.waitingList (s.slots.committed - s.classOf p)) :
    let t := checkDrains (dispatchFrame p id (enterUp p s))
    (t.slot p).state = .quiesced ∧ (t.port p).link = .down ∧ (t.port p).reportedWidth = Option.none ∧
      (t.slot p).counters = { (s.slot p).counters with
        drainsCompleted := oneMore (s.slot p).counters.drainsCompleted } ∧
      t.slots.committed = s.slots.committed - s.classOf p := by
  let u := enterUp p s
  let d := dispatchFrame p id u
  have other : (s.slot p).state ≠ .linking := by rw [drains]; decide
  obtain ⟨-, -, same⟩ := enterUp_slot p s
  obtain ⟨slots, egress, -⟩ : d.slots = u.slots ∧ d.egressEmpty p = u.egressEmpty p ∧ _ := dispatchFrame_stands p u
  have kept : d.slots = (s.comesUp p).slots := slots.trans (same other)
  have record : d.slot p = (s.comesUp p).slot p := by
    unfold State.slot
    rw [kept]
  rw [comesUp_slot] at record
  have others (m : Slot) (h : m ≠ p) : d.slot m = s.slot m := by
    rw [← comesUp_slot_ne h s]
    unfold State.slot
    rw [kept]
  have budget : d.slots.waitingList = s.slots.waitingList ∧ d.slots.committed = s.slots.committed ∧
      d.budget = s.budget := by
    unfold State.budget
    rw [kept, comesUp_slots]
    split <;> exact ⟨rfl, rfl, rfl⟩
  have class' (m : Slot) : d.classOf m = s.classOf m := by
    unfold State.classOf
    by_cases h : m = p
    · rw [h, record]
    · rw [others m h]
  obtain ⟨list, committed, budget⟩ := budget
  have blocked' : d.HeadBlocked d.slots.waitingList (d.slots.committed - d.classOf p) := by
    intro m head
    rw [class', class', committed, budget]
    exact blocked m (list ▸ head)
  have drains' : (d.slot p).state = .draining := by rw [record]; exact drains
  have empty : d.egressEmpty p = true := egress.trans ((enterUp_egressEmpty other).2 none gone)
  obtain ⟨slot, power, link, width⟩ := checkDrains_quiesces drains' empty
    (fun m h => by rw [others m h]; exact alone m h) blocked'
  have quiesced : (d.drained p).slot p = _ :=
    (congrArg (fun x => x.slot.read p) (drained_slots drains')).trans (Table.read_write_same ..)
  refine ⟨?_, link, width, ?_, ?_⟩
  · rw [slot, quiesced]
  · rw [slot, quiesced, record]
  · rw [power, committed, class']

theorem egressEmpty_iff (s : State) (p : Slot) :
    s.egressEmpty p = true ↔ (s.sq p).queues = ⟨[], [], [], []⟩ ∧ (s.port p).transmission = none := by
  unfold State.egressEmpty Queues.isEmpty
  cases (s.sq p).queues
  simp [and_assoc]

/-- What has gone out by the end of a return that brings its link UP begins as it did when the pause symbol went out. -/
theorem enterUp_out {p : Slot} {s : State} (linked : s.Linked p) (listed : s.Listed) :
    (s.comesUp p).out <+: (checkDrains (dispatchFrame p id (enterUp p s))).out := by
  obtain ⟨slots, -, grew, -⟩ := dispatchFrame_stands p (enterUp p s)
  have listed' : (dispatchFrame p id (enterUp p s)).Listed := by
    have up := enterUp_listed linked listed
    unfold State.Listed State.slot at up ⊢
    rw [slots]
    exact up
  exact (enterUp_stands p s).out.trans (grew.trans (checkDrains_serves listed').out)

/-- Settles O24: an intact return before the sixteenth, the sixteenth, and a frame that is none. -/
theorem farLoopTestJudgesReturns : Obligations.FarLoopTestJudgesReturns := by
  intro p lanes s a testing assembly length bytes progress intact symbol
  have run {t : State} (h : receptionEnd p lanes s.begin = t) :
      exec (.frameReceptionEnd p lanes) s = .next (checkDrains t) :=
    h ▸ rfl
  refine ⟨fun single room good => ?_, fun agrees bad => ?_⟩
  · subst single
    obtain ⟨-, check, size, rest⟩ := good
    have whole : TakenWhole s p lanes ⟨1, false⟩ := by
      refine ⟨.inr testing, assembly, ?_, length⟩
      unfold Assembly.agrees
      rw [show (frameOfLanes lanes).length = 64 from size]
      rfl
    let t := s.updPort p fun q => { q with testProgress := q.testProgress + 1 }
    have returned : t.port p = { s.port p with testProgress := (s.port p).testProgress + 1 } := State.port_updPort_same ..
    let c := t.counted p (s.port p).errorCount
    have ends : receptionEnd p lanes s.begin =
        dispatchFrame p id (if 16 ≤ (s.port p).testProgress + 1 then enterUp p c else c) :=
      receptionEnd_intact whole testing room ((intactReturn_iff _ _ _).2 ⟨check, size, rest⟩)
    refine ⟨fun few => ?_, fun last inv linked => ?_⟩
    · have early : ¬ 16 ≤ (s.port p).testProgress + 1 := by
        have : (s.port p).testProgress < 15 := few
        omega
      rw [if_neg early] at ends
      obtain ⟨⟨port, others, pause, qm⟩, fwd, changes⟩ := counted_dispatched p (s.port p).errorCount t
      refine ⟨_, run ends, ?_, fun q h => (others q h).trans (State.port_updPort_ne _ _ _ h), ?_, qm, fwd,
        changes.after (updPort_changes _ _ _ |>.weaken rfl) rfl⟩
      · rw [port, returned]
        rfl
      · unfold PauseFreed at pause
        rw [returned, if_neg (by unfold Port.assemblyCells; dsimp only; rw [assembly]; decide)] at pause
        exact pause
    · rw [if_pos (by rw [show (s.port p).testProgress = 15 from last])] at ends
      have port : c.port p = _ := counted_port p (s.port p).errorCount t
      rw [returned] at port
      have egress : c.egressEmpty p = s.egressEmpty p := by
        unfold State.egressEmpty
        rw [port]
        rfl
      intro r empty
      have isEmpty : s.egressEmpty p = true ↔ empty := egressEmpty_iff s p
      obtain ⟨before, sent, silent⟩ := comesUp_out (p := p) (s := c) rfl
      obtain ⟨after, out⟩ := enterUp_out (p := p) (s := c) linked inv.listed
      have slot : c.slot p = s.slot p := rfl
      have kept := fun stays => enterUp_completes (p := p) (s := c) linked inv.listed stays
      obtain ⟨width, moves, still⟩ := enterUp_slot p c
      refine ⟨_, run ends, ⟨before, after, ?_, fun b => silent _⟩, fun busy => ?_, fun linking i identity => ?_,
        fun state => ?_, fun drains gone waits alone blocked => ?_⟩
      · rw [← out, sent, port, List.append_assoc]
        rfl
      · obtain ⟨link, deadline, reported, told, same⟩ := kept (busy.imp_right fun h =>
          egress.trans (Bool.eq_false_iff.2 (mt isEmpty.1 h)))
        rw [port] at reported told width
        exact ⟨link, deadline, reported, by rw [same]; exact width, told⟩
      · obtain ⟨-, -, -, -, same⟩ := kept (.inl (by rw [slot, linking]; decide))
        have admits : c.admits p = true ↔ _ := admits_iff (s := c) identity
        rw [same, moves linking]
        by_cases h : c.admits p = true
        · rw [if_pos h]
          exact (if_pos (admits.1 h)).symm
        · rw [if_neg h]
          exact (if_neg (mt admits.2 h)).symm
      · have stays : (c.slot p).state ≠ .draining ∨ c.egressEmpty p = false := by
          rcases state with h | h | ⟨h, busy⟩
          · exact .inl (by rw [slot, h]; decide)
          · exact .inl (by rw [slot, h]; decide)
          · exact .inr (egress.trans (Bool.eq_false_iff.2 (mt isEmpty.1 busy)))
        obtain ⟨-, -, -, -, same⟩ := kept stays
        have other : (c.slot p).state ≠ .linking := by
          rw [slot]
          rcases state with h | h | ⟨h, -⟩ <;> rw [h] <;> decide
        have record : (enterUp p c).slot p = (c.comesUp p).slot p := by
          unfold State.slot
          rw [still other]
        rw [same, record, comesUp_slot]
        rfl
      · have unawaited : c.Unawaited p := by
          rcases waits with h | h | ⟨h, -⟩
          · exact .inl h
          · exact .inr h
          · rw [drains] at h
            cases h
        obtain ⟨state, link, width, counters, power⟩ := enterUp_drains (p := p) (s := c) drains
          (egress.trans (isEmpty.2 gone)) unawaited alone blocked
        exact ⟨state, link, width, counters, power⟩
  · have whole : TakenWhole s p lanes a := ⟨.inr testing, assembly, agrees, length⟩
    let c := s.counted p (errorsAfter s p a.truncated bytes)
    have port : c.port p = _ := counted_port p (errorsAfter s p a.truncated bytes) s
    have down : (c.port p).link ≠ .up := by
      rw [port]
      exact testing ▸ by decide
    have judged : judgeReturn p a.truncated bytes c = attemptFails p c := by
      refine judgeReturn_fails fun ⟨cut, h⟩ => bad ⟨cut, (intactReturn_iff p (s.port p) bytes).1 ?_⟩
      rw [port] at h
      exact h
    have errors := errorsAfter_eq s p a.truncated bytes
    obtain ⟨noBuffer, badCheck, badLength, fit⟩ := dropsAfterFailure_cases s p bytes
    intro kind declared damaged misfit received counted
    have counts {t : State} (errorCount : (t.port p).errorCount = errorsAfter s p a.truncated bytes)
        (drops : t.fwd.drops = s.dropsAfterFailure p a.truncated bytes) : counted t := by
      refine ⟨fun h => ?_, fun h => ?_, fun h => ?_, fun h => ?_, fun cut check h => ?_, fun cut check h => ?_⟩
      · rw [errorCount, errors, if_pos h]
      · rw [errorCount, errors, if_neg h]
      · rw [drops, h, noBuffer]
      · rw [drops, h.1, badCheck h.2]
      · rw [drops, cut, badLength check h]
      · rw [drops, cut]
        exact fit check h
    refine ⟨fun few good => ?_, fun last linked inv => ?_⟩
    · have again : attemptFails p c = c.trainsAgain p := by
        rw [attemptFails_again down (by rw [port]; exact few) (by rw [port]; exact good), nextAttempt_eq rfl]
      have trains := counted_trainsAgain p (errorsAfter s p a.truncated bytes) s
      have record : (c.trainsAgain p).port p = _ :=
        (congrArg (fun t : State => Table.read t.ports p) trains).trans (Table.read_write_same ..)
      have ends := receptionEnd_failed whole testing (judged.trans again) (by rw [record]; simp) (by rw [record])
        (show DropsStand s (c.trainsAgain p) from rfl)
      let u : State := { c.trainsAgain p with
        fwd := { (c.trainsAgain p).fwd with drops := s.dropsAfterFailure p a.truncated bytes } }
      have erred : (u.port p).errorCount = errorsAfter s p a.truncated bytes := congrArg Port.errorCount record
      refine ⟨u, run ends, counts erred rfl, ?_, fun q h => ?_, ?_, rfl, rfl, ?_⟩
      · rw [erred]
        exact record
      · exact (congrArg (fun t : State => Table.read t.ports q) trains).trans (Table.read_write_ne _ _ h)
      · exact congrArg State.qm trains
      · intro part
        cases part <;> first | exact .inl (by decide) | exact .inr rfl
    · have last' : 3 ≤ (c.port p).attempt := by rw [port]; exact last
      have gives {u : State} : _ ∧ (Serves (attemptFails p c) u → _) :=
        attemptFails_serves (u := u) down linked inv.listed fun few => absurd few (by omega)
      rw [show max 1 (4 - (c.port p).attempt) = 1 by omega] at gives
      obtain ⟨listed, fails⟩ := gives (u := attemptFails p c)
      obtain ⟨link, -, gone, -⟩ := fails (.refl listed)
      have stand : DropsStand s (attemptFails p c) := by
        rw [attemptFails_last down last']
        exact (show DropsStand s (c.attemptEnded p) from rfl).trans (giveUp_drops ..)
      have ends := receptionEnd_failed whole testing judged (by rw [link]; decide) gone stand
      let x : State := { attemptFails p c with
        fwd := { (attemptFails p c).fwd with drops := s.dropsAfterFailure p a.truncated bytes } }
      have dropped : Serves (attemptFails p c) x :=
        .of_calm listed rfl fun m => .of_changes (with_fwd_changes _ _) rfl m
      have serves : Serves (attemptFails p c) (checkDrains x) := dropped.trans (checkDrains_serves dropped.listed)
      obtain ⟨-, final⟩ := gives (u := checkDrains x)
      have result := final serves
      have drops : (checkDrains x).fwd.drops = x.fwd.drops := checkDrains_drops x
      refine ⟨checkDrains x, run ends, counts ?_ (drops.trans rfl), ?_⟩
      · rw [attemptFails_last down last'] at serves
        rw [giveUp_errorCount (attemptEnded_slots p c) linked inv.listed serves, attemptEnded_port, port]
        rfl
      · let y : State := { s with ports := s.ports.write p { s.port p with counters := received } }
        have record : y.port p = { s.port p with counters := received } := Table.read_write_same ..
        show GivesUp p 1 y _
        unfold GivesUp at result ⊢
        rw [port] at result
        rw [record]
        exact result

end Sys2Proof.Machine
end

section
/-! SUPPORT. What a slot's own change leaves of the mailboxes and of the egress of its port. -/

namespace Sys2Proof.Machine

/-! ### The tracker's part -/

section
variable {R : State → State → Prop}

/-- What clock changes, points and flows leave as it is, the tracker's part of a slot change leaves as it is. -/
theorem trackerSlotChange_keeps (refl : ∀ s, R s s) (trans : ∀ s t u, R s t → R t u → R s u)
    (clocks : ∀ s t, OnlyChanges [.time, .trk, .delay] s t → R s t) (point : ∀ id new s, R s (changePoint id new s))
    (timing : ∀ state source s, R s (alarmTiming state source s)) (flows : ∀ g s, R s (resuspendFlows g s))
    (old new : SlotState) (s : State) : R s (trackerSlotChange old new s) := by
  have tracked (f : Tracker → Tracker) (t : State) : R t (t.updTrk f) := clocks _ _ ((updTrk_changes f t).weaken rfl)
  have source (src : Source) (r : SourceRecord) (t : State) : R t (setSource src r t) :=
    trans _ _ _ (clocks _ _ ((updSource_changes src _ t).weaken rfl)) (point ..)
  have provider (src : Source) (t : State) : R t (reworkProvider src t) := by
    unfold reworkProvider
    dsimp only
    split
    · exact refl t
    · split <;> exact source ..
  have suspended (x y : TimingState) (t : State) : R t (flowsTimingChange x y t) := by
    unfold flowsTimingChange
    split
    · exact flows ..
    · exact refl t
  have enters (x : TimingState) (t : State) : R t (enterTiming x t) := by
    unfold enterTiming
    dsimp only
    refine trans _ _ _ ?_ (timing ..)
    refine trans _ _ _ ?_ (clocks _ _ ((with_delay_changes _ _).weaken rfl))
    refine trans _ _ _ ?_ (suspended ..)
    split
    · exact trans _ _ _ (tracked _ t) (clocks _ _ ((setFreq_changes _ _).weaken rfl))
    · exact tracked _ t
  have examined (t : State) : R t (examineSelection t) := by
    have selected (x : Option Source) : R t (t.updTrk fun k => { k with selected := x }) := tracked _ t
    unfold examineSelection
    dsimp only
    split
    · exact refl t
    · split
      case h_5 | h_6 =>
        split <;> exact trans _ _ _ (selected _) (enters ..)
      all_goals first
        | exact selected _
        | exact trans _ _ _ (selected _) (enters ..)
  unfold trackerSlotChange
  split
  · exact trans _ _ _ (trans _ _ _ (provider ..) (provider ..)) (examined _)
  · exact refl s

end

/-! ### The mailboxes -/

/-- Between two states the mailboxes stood. -/
def MailStands (s t : State) : Prop := t.alarm.mailbox = s.alarm.mailbox

section
variable {s t u : State}

theorem MailStands.trans (h : MailStands s t) (k : MailStands t u) : MailStands s u := Eq.trans k h

theorem MailStands.of_changes {ps : List Part} (only : OnlyChanges ps s t) (apart : (!ps.contains Part.alarm) = true) :
    MailStands s t :=
  congrArg AlarmUnit.mailbox (only.same .alarm (by simpa using apart))

end

theorem produce_mail (bodies : List NoticeBody) (s : State) : MailStands s (produce bodies s) := by
  have pended (ns : List Notice) (t : State) : MailStands t (forEach ns pendNotice t) := by
    unfold forEach
    induction ns generalizing t with
    | nil => exact rfl
    | cons x xs ih =>
      refine MailStands.trans (t := pendNotice x t) ?_ (ih _)
      unfold pendNotice MailStands
      dsimp only [State.updAlarm]
      split <;> rfl
  have delivered (ws : List Wait) (ns : List Notice) (t : State) : MailStands t (deliver ws ns t) := by
    induction ws generalizing ns t with
    | nil => exact pended ns t
    | cons w ws ih =>
      unfold deliver
      split
      · exact rfl
      · refine .trans ?_ (ih ..)
        unfold completeWait
        refine .trans ?_ (.of_changes (complete_changes _ _ _ _) rfl)
        exact rfl
  unfold produce
  refine .trans ?_ (delivered ..)
  exact rfl

theorem changePoint_mail (id : PointId) (new : Point) (s : State) : MailStands s (changePoint id new s) := by
  refine .trans (t := movePoint id new s) ?_ (produce_mail ..)
  exact rfl

theorem resuspendFlows_mail (g : FlowRecord → Suspension → Suspension) (s : State) : MailStands s (resuspendFlows g s) :=
  (MailStands.of_changes (with_fwd_changes s _) rfl).trans (changePoint_mail ..)

theorem alarmTiming_mail (state : TimingState) (selected : Option Source) (s : State) :
    MailStands s (alarmTiming state selected s) := by
  unfold alarmTiming
  refine .trans ?_ (produce_mail ..)
  exact rfl

theorem stopPort_mail (p : Slot) (link : LinkState) (s : State) : MailStands s (stopPort p link s) := by
  have width (w : Option Width) (t : State) : MailStands t (setReportedWidth p w t) := by
    unfold setReportedWidth
    split
    · exact rfl
    · refine .trans ?_ (resuspendFlows_mail ..)
      exact rfl
  unfold stopPort
  refine .trans ?_ (width ..)
  refine .trans ?_ (.of_changes (updPort_changes _ _ _) rfl)
  refine .trans ?_ (.of_changes (discardAssembly_changes _ _) rfl)
  refine .trans ?_ (.of_changes (dropTests_changes _ _) rfl)
  refine .trans ?_ (.of_changes (cutTransmission_changes _ _) rfl)
  exact rfl

/-- A slot that enters LINKING keeps its mailbox (R176). -/
theorem changeSlot_linking_mail (n : Slot) (reason : Option FaultReason) (s : State) :
    MailStands s (changeSlot n .linking reason s) := by
  have alarmed (old : SlotState) (t : State) : MailStands t (alarmSlotChange n old .linking reason t) := by
    have cancelled : MailStands t (if old = .active ∧ SlotState.linking ≠ .active ∧ isControllerSlot n = true
        then cancelWaits n t else t) := by
      split <;> exact rfl
    have withdrawn (v : State) : MailStands v (withdrawAcks n v) := by
      unfold withdrawAcks
      dsimp only
      split
      · split
        · exact rfl
        · refine .trans ?_ (.of_changes (joinWaiting_changes _ _) rfl)
          exact rfl
      · exact rfl
    have noticed (p : Point) (v : State) : MailStands v (produce [.slot n .linking reason] (movePoint (slotFaultPoint n) p v)) := by
      refine .trans ?_ (produce_mail ..)
      exact rfl
    unfold alarmSlotChange
    dsimp only
    rw [if_pos rfl]
    split
    · exact (cancelled.trans (noticed _ _)).trans (withdrawn _)
    · exact cancelled.trans (noticed _ _)
  have flows (old : SlotState) (t : State) : MailStands t (flowsSlotReport n old .linking t) := by
    unfold flowsSlotReport
    split
    · exact (resuspendFlows_mail ..).trans (resuspendFlows_mail ..)
    · exact rfl
  unfold changeSlot
  dsimp only
  refine .trans ?_ (trackerSlotChange_keeps (R := MailStands) (fun _ => rfl) (fun _ _ _ => .trans)
    (fun _ _ only => .of_changes only rfl) changePoint_mail alarmTiming_mail resuspendFlows_mail _ _ _)
  refine .trans ?_ (.of_changes (monitorSlotChange_changes _ _ _) rfl)
  refine .trans ?_ (.of_changes (delaySlotChange_changes _ _ _ _) rfl)
  refine .trans ?_ (.of_changes (queueSlotChange_changes _ _ _ _) rfl)
  refine .trans ?_ (flows ..)
  refine .trans ?_ (.of_changes (sidebandReport_changes _ _ _ _) rfl)
  refine .trans ?_ (alarmed ..)
  refine .trans ?_ (.of_changes (agentSlotChange_changes _ _ _ _) rfl)
  exact rfl

theorem enterLinking_mail (n : Slot) (s : State) : MailStands s (enterLinking n s) := by
  unfold enterLinking
  refine .trans ?_ (changeSlot_linking_mail ..)
  exact stopPort_mail n .training (s.updSlot n fun r => { r with softStart := none })

/-! ### The egress of a slot that begins to drain -/

theorem alarmTiming_unfed (n : Slot) (state : TimingState) (selected : Option Source) (s : State) :
    Unfed n s (alarmTiming state selected s) := by
  unfold alarmTiming
  refine .trans ?_ (produce_unfed ..)
  exact .of_same rfl rfl rfl

theorem alarmSlotChange_unfed (n m : Slot) {old new : SlotState} (stands : (old.isUp && !new.isUp) = false)
    (reason : Option FaultReason) (s : State) : Unfed n s (alarmSlotChange m old new reason s) := by
  have cancelled : Unfed n s (if old = .active ∧ new ≠ .active ∧ isControllerSlot m = true then cancelWaits m s else s) := by
    split
    · exact ⟨fun none => none.imp_left fun h => by
        show s.alarm.waits.filter _ = []
        rw [h]
        rfl, fun _ => id⟩
    · exact .refl n s
  unfold alarmSlotChange
  dsimp only
  rw [if_neg (by simp [stands])]
  refine .trans ?_ (produce_unfed ..)
  refine cancelled.trans ?_
  exact .of_same rfl rfl rfl

/-- With nothing to send a client's departure puts nothing into the queues of its port (R103). -/
theorem delaySlotChange_unfed (n : Slot) (old new : SlotState) (s : State) : Unfed n s (delaySlotChange n old new s) := by
  have empty (t : State) (gone : t.egressEmpty n = true) : withdrawMarks n t = t :=
    withdrawMarks_of_empty ((egressEmpty_iff t n).1 gone).1
  unfold delaySlotChange
  split
  · exact .of_changes (delayArrival_changes n s) rfl
  · split
    · unfold delayDeparture
      split
      · have forgotten : Unfed n s ((abandonProbe n s).updDelay n fun d =>
            { d with client := false, window := [], base := none, missRun := 0, highRun := 0, delays := none }) :=
          (Unfed.of_changes (abandonProbe_changes n s) rfl).trans (.of_changes (updDelay_changes n _ _) rfl)
        refine ⟨fun none => ?_, fun none gone => ?_⟩
        · have kept := forgotten.unawaited none
          unfold State.Unawaited at kept ⊢
          rw [(withdrawMarks_changes _ _).same .alarm rfl, (withdrawMarks_changes _ _).same .agent rfl]
          exact kept
        · rw [empty _ (forgotten.empty none gone)]
          exact forgotten.empty none gone
      · exact .refl n s
    · exact .refl n s

/-- A slot that begins to drain with nothing to send, and no answer of its own to come, has nothing to send after its
reports either. -/
theorem changeSlot_draining_unfed (n : Slot) (s : State) :
    Unfed n (agentSlotChange n (s.slot n).state .draining (s.enters n .draining)) (changeSlot n .draining none s) := by
  have stands (old : SlotState) : (old.isUp && !SlotState.draining.isUp) = false := by cases old <;> rfl
  have flows (old : SlotState) (t : State) : Unfed n t (flowsSlotReport n old .draining t) := by
    unfold flowsSlotReport
    split
    · exact (resuspendFlows_unfed ..).trans (resuspendFlows_unfed ..)
    · exact .refl n t
  have queues (old : SlotState) (t : State) : Unfed n t (queueSlotChange n old .draining t) := by
    rw [queueSlotChange_standing (stands old), if_neg (by decide)]
    exact .refl n t
  unfold changeSlot
  dsimp only
  refine .trans ?_ (trackerSlotChange_keeps (R := Unfed n) (.refl n) (fun _ _ _ => .trans)
    (fun _ _ only => .of_changes only rfl) (changePoint_unfed n) (alarmTiming_unfed n) (resuspendFlows_unfed n) _ _ _)
  refine .trans ?_ (.of_changes (monitorSlotChange_changes _ _ _) rfl)
  refine .trans ?_ (delaySlotChange_unfed ..)
  refine .trans ?_ (queues ..)
  refine .trans ?_ (flows ..)
  refine .trans ?_ (.of_changes (sidebandReport_side n (by decide) _) rfl)
  exact alarmSlotChange_unfed n n (stands _) none _

theorem State.EgressStays.busy {s : State} {n : Slot} (h : s.EgressStays n) : s.egressEmpty n = false := by
  refine Bool.eq_false_iff.2 fun gone => ?_
  obtain ⟨queues, idle⟩ := (egressEmpty_iff s n).1 gone
  unfold State.EgressStays at h
  rw [queues, idle] at h
  simp at h

/-- A client's departure leaves its port what is no TIME_MARK frame (R103). -/
theorem withdrawMarks_stays {n : Slot} {s : State} (h : s.EgressStays n) : (withdrawMarks n s).EgressStays n := by
  let t := s.updSq n fun q =>
    { q with queues := { q.queues with timing := (s.sq n).queues.timing.filter fun id => !s.isMark id } }
  have filtered : t.EgressStays n := by
    have record : t.sq n = _ := State.sq_updSq_same ..
    unfold State.EgressStays at h ⊢
    rw [record]
    refine h.imp_right (.imp_right fun ⟨id, mem, mark⟩ => ⟨id, ?_, mark⟩)
    exact List.mem_filter.2 ⟨mem, by rw [mark]; rfl⟩
  have withdrawn := (Calm.forEach (withdrawMark_calm n n) ((s.sq n).queues.timing.filter s.isMark) t).stays filtered
  exact (arbitrate_calm (mv := true) n n _).stays withdrawn

theorem delaySlotChange_stays {n : Slot} {old new : SlotState} {s : State} (h : s.EgressStays n) :
    (delaySlotChange n old new s).EgressStays n := by
  unfold delaySlotChange
  split
  · exact (Aside.of_changes (mv := true) (delayArrival_changes n s) rfl n).stays h
  · split
    · unfold delayDeparture
      split
      · refine withdrawMarks_stays ?_
        have forgotten : Calm true n s ((abandonProbe n s).updDelay n fun d =>
            { d with client := false, window := [], base := none, missRun := 0, highRun := 0, delays := none }) :=
          (abandonProbe_calm ..).trans (.of_changes (updDelay_changes n _ _) rfl n)
        exact forgotten.stays h
      · exact h
    · exact h

/-- A slot that begins to drain with something to send has something to send after its reports. -/
theorem changeSlot_draining_stays {n : Slot} {s : State} (h : s.EgressStays n) :
    (changeSlot n .draining none s).EgressStays n := by
  have stands (old : SlotState) : (old.isUp && !SlotState.draining.isUp) = false := by cases old <;> rfl
  unfold changeSlot
  dsimp only
  refine (trackerSlotChange_calm (mv := true) ..).stays ?_
  refine (monitorSlotChange_calm (mv := true) ..).stays ?_
  refine delaySlotChange_stays ?_
  rw [queueSlotChange_standing (stands _), if_neg (by decide)]
  refine (reportsBeforeQueues_calm (mv := true) n (by decide) none _).stays ?_
  refine (agentSlotChange_aside (mv := true) ..).stays ?_
  exact h

end Sys2Proof.Machine
end

section
/-! SLOT_ADMIT, SLOT_DRAIN, SLOT_RETRY and PORT_RESET. -/

namespace Sys2Proof.Machine

/-! ### The slot that a request names -/

theorem slotOfByte_of_val {n : Slot} {b : Byte} (h : n.val + 1 = b.toNat) : slotOfByte b = some n := by
  unfold slotOfByte slotOfNat
  rw [dif_pos (by omega)]
  exact congrArg some (Fin.ext (by simp only; omega))

theorem slotOfByte_of_past {b : Byte} (h : b.toNat = 0 ∨ 12 < b.toNat) : slotOfByte b = none :=
  dif_neg (by omega)

theorem withSlot_of_val {n : Slot} {b : Byte} (h : n.val + 1 = b.toNat) (f : Slot → State → Effect) (s : State) :
    withSlot b f s = f n s := by
  unfold withSlot
  rw [slotOfByte_of_val h]

theorem withSlot_of_past {b : Byte} (h : b.toNat = 0 ∨ 12 < b.toNat) (f : Slot → State → Effect) (s : State) :
    withSlot b f s = refusedWith .badIndex s := by
  unfold withSlot
  rw [slotOfByte_of_past h]

/-- A request whose effect is answered at once. -/
theorem request_completes {s : State} {i : Instr} {r : Request} (h : Takes s i r) {effect : Request → State → Effect}
    {status : Status} {results : List Byte} {t : State} (answers : effect r s.taking = (t, some (status, results))) :
    request i effect s = .next (answer .taken r status results t) := by
  rw [request_takes h, answers]

/-! ### A slot's change, with its record -/

/-- The slot controller after a slot's record has been prepared and its state changed. -/
theorem changeSlot_updSlot_slots (n : Slot) (new : SlotState) (reason : Option FaultReason) (f : SlotRecord → SlotRecord)
    (s : State) : (changeSlot n new reason (s.updSlot n f)).slots = { s.slots with
      slot := s.slots.slot.write n { f (s.slot n) with
        state := new, lines := { (f (s.slot n)).lines with powerEnable := new.poweredOn, removeLamp := new.lampLit } } } := by
  rw [changeSlot_slots]
  unfold State.enters State.updSlot Table.update
  dsimp only
  rw [Table.read_write_same, Table.write_write]
  rfl

/-- A slot's change that does not take it to EMPTY is followed by the agent. -/
theorem changeSlot_agentFollows {n : Slot} {new : SlotState} {s t : State} (here : new ≠ .empty)
    (reason : Option FaultReason) (before : Tame n s t) (state : (t.slot n).state = (s.slot n).state)
    (identity : (t.slot n).identity = (s.slot n).identity) : AgentFollows n new s (changeSlot n new reason t) :=
  have change := changeSlot_tame n n here reason t
  agentFollows_of_change before state identity change.agent fun _ => change.quiet

/-! ### SLOT_DRAIN -/

/-- The state in which a slot has begun to drain (R128). -/
def State.drains (n : Slot) (s : State) : State :=
  changeSlot n .draining none
    (s.updSlot n fun r => { r with drainTimer := some (s.now + s.slots.drainTimeout * Config.ticksPerMs) })

theorem enterDraining_eq (n : Slot) (s : State) : enterDraining n s = checkDrain n (s.drains n) := rfl

theorem drains_slots (n : Slot) (s : State) : (s.drains n).slots = { s.slots with
    slot := s.slots.slot.write n { s.slot n with
      state := .draining, drainTimer := some (s.time.localTicks + s.slots.drainTimeout * 125000)
      lines := { (s.slot n).lines with powerEnable := true, removeLamp := false } } } := by
  unfold State.drains
  rw [changeSlot_updSlot_slots]
  rfl

theorem drains_slot (n : Slot) (s : State) : (s.drains n).slot n = { s.slot n with
    state := .draining, drainTimer := some (s.time.localTicks + s.slots.drainTimeout * 125000)
    lines := { (s.slot n).lines with powerEnable := true, removeLamp := false } } := by
  unfold State.slot
  rw [drains_slots]
  exact Table.read_write_same ..

theorem drains_agentFollows (n : Slot) (s : State) : AgentFollows n .draining s (s.drains n) := by
  refine changeSlot_agentFollows (by decide) none (.updSlot ..) ?_ ?_ <;> rw [State.slot_updSlot_same]

theorem drains_busy {n : Slot} {s : State} (h : s.EgressStays n) : (s.drains n).egressEmpty n = false :=
  (changeSlot_draining_stays (s := s.updSlot n _) h).busy

/-- What the agent's part makes of the waits that answer to a slot as it begins to drain. -/
theorem agentSlotChange_unawaited {n : Slot} {s t : State} (none : s.NoWaitStays n) (agent : t.agent = s.agent)
    (waits : t.alarm.waits = s.alarm.waits) (identity : (t.slot n).identity = (s.slot n).identity) :
    (agentSlotChange n (s.slot n).state .draining t).Unawaited n := by
  have changed := agentSlotChange_agent n (s.slot n).state .draining t
  have alarm : (agentSlotChange n (s.slot n).state .draining t).alarm = t.alarm :=
    (agentSlotChange_changes _ _ _ _).same .alarm rfl
  have fewer : ∀ f ∈ (agentSlotChange n (s.slot n).state .draining t).agent.inflight, f ∈ s.agent.inflight := by
    rw [changed, ← agent]
    dsimp only
    split
    · exact fun f hf => List.mem_of_mem_filter hf
    · exact fun f hf => hf
  rcases none with none | none | ⟨active, controller, i, card, kind⟩
  · exact .inl (by rw [alarm, waits]; exact none)
  · exact .inr fun f hf => none f (fewer f hf)
  · refine .inr fun f hf => ?_
    have holds : t.holdsController n = true := by
      unfold State.holdsController isControllerSlot
      rw [identity, card]
      simp [controller, kind]
    rw [changed, active, holds] at hf
    simpa using (List.mem_filter.1 hf).2

/-- A slot with nothing to send has nothing to send as it has begun to drain. -/
theorem drains_empty {n : Slot} {s : State} (none : s.NoWaitStays n) (gone : s.egressEmpty n = true) :
    (s.drains n).egressEmpty n = true := by
  let b := s.updSlot n fun r => { r with drainTimer := some (s.now + s.slots.drainTimeout * Config.ticksPerMs) }
  have record : b.slot n = _ := State.slot_updSlot_same ..
  have unfed := changeSlot_draining_unfed n b
  have state : (b.slot n).state = (s.slot n).state := by rw [record]
  rw [state] at unfed
  refine unfed.empty (agentSlotChange_unawaited none rfl rfl ?_) ?_
  · unfold State.enters
    rw [State.slot_updSlot_same, record]
  · have aside : Aside true n _ _ := agentSlotChange_aside (mv := true) n n (s.slot n).state .draining (b.enters n .draining)
    rw [egressEmpty_iff]
    obtain ⟨queues, idle⟩ := (egressEmpty_iff s n).1 gone
    have qm : ((agentSlotChange n (s.slot n).state .draining (b.enters n .draining)).sq n) = s.sq n := by
      have down : (((s.slot n).state.isUp && !SlotState.draining.isUp)) = false := by cases (s.slot n).state <;> rfl
      unfold agentSlotChange
      rw [down]
      split <;> rfl
    refine ⟨by rw [qm]; exact queues, ?_⟩
    have ports : (agentSlotChange n (s.slot n).state .draining (b.enters n .draining)).ports = s.ports :=
      (agentSlotChange_changes _ _ _ _).same .ports rfl
    unfold State.port
    rw [ports]
    exact idle

/-- A drain that ends within its own event is followed by the agent as a change to QUIESCED (R181, R182). -/
theorem agentFollows_of_drain {n : Slot} {s b d u : State} (up : (s.slot n).state.isUp = true) (before : Tame n s b)
    (identity : (b.slot n).identity = (s.slot n).identity)
    (between : Tame n (agentSlotChange n (s.slot n).state .draining (b.enters n .draining)) d)
    (after : AgentKept n (agentSlotChange n .draining .quiesced (d.enters n .quiesced)) u)
    (quiet : Quiet (agentSlotChange n .draining .quiesced (d.enters n .quiesced)) u) : AgentFollows n .quiesced s u := by
  have controller : (b.enters n .draining).holdsController n = s.holdsController n := by
    unfold State.holdsController State.enters
    rw [State.slot_updSlot_same, identity]
  have falls : (((s.slot n).state.isUp && !SlotState.draining.isUp)) = false := by cases (s.slot n).state <;> rfl
  have first := agentSlotChange_agent n (s.slot n).state .draining (b.enters n .draining)
  have second := agentSlotChange_agent n .draining .quiesced (d.enters n .quiesced)
  dsimp only at first second
  rw [controller, falls] at first
  have stays : ((SlotState.draining == SlotState.active) && (SlotState.quiesced != SlotState.active) &&
      (d.enters n .quiesced).holdsController n) = false := rfl
  have goes : (SlotState.draining.isUp && !SlotState.quiesced.isUp) = true := rfl
  rw [stays, goes] at second
  have own : (d.enters n .quiesced).agent = d.agent := rfl
  rw [own] at second
  unfold AgentFollows
  intro a leaves fell kept
  have fell' : fell = true := by
    show ((s.slot n).state.isUp && !SlotState.quiesced.isUp) = true
    rw [up]
    rfl
  refine ⟨fun left => ⟨?_, fun f hf => ?_⟩, fun _ none r hr dest => ?_, fun waits _ _ => ?_⟩
  · have left' : ((s.slot n).state == .active && SlotState.draining != .active && s.holdsController n) = true := left
    rw [after.queue, second]
    dsimp only
    rw [if_neg (by simp), between.agent.queue, first]
    dsimp only
    rw [if_pos left']
    exact congrArg _ before.agent.queue
  · have left' : ((s.slot n).state == .active && SlotState.draining != .active && s.holdsController n) = true := left
    have mem := after.inflight f hf
    rw [second] at mem
    have mem := between.agent.inflight f (by simpa using mem)
    rw [first] at mem
    dsimp only at mem
    rw [if_pos left'] at mem
    simpa using (List.mem_filter.1 mem).2
  · have gone : ∀ f ∈ (agentSlotChange n .draining .quiesced (d.enters n .quiesced)).agent.inflight, f.requester ≠ n := by
      rw [second]
      intro f hf
      have mem := between.agent.inflight f (by simpa using hf)
      rw [first] at mem
      dsimp only at mem
      split at mem
      · simpa using (List.mem_filter.1 mem).2
      · next h => exact (none.resolve_left h) f (before.agent.inflight f mem)
    have mem := after.responses gone r hr dest
    rw [second] at mem
    simpa [dest] using (List.mem_filter.1 mem).2
  · have same : b.agent = a := before.quiet.agent waits
    have still : (agentSlotChange n (s.slot n).state .draining (b.enters n .draining)).alarm.waits = [] := by
      rw [(agentSlotChange_changes _ _ _ _).same .alarm rfl]
      exact before.quiet.waits waits
    have held := between.quiet.agent still
    have none' : (agentSlotChange n .draining .quiesced (d.enters n .quiesced)).alarm.waits = [] := by
      rw [(agentSlotChange_changes _ _ _ _).same .alarm rfl]
      exact between.quiet.waits still
    have begun : (b.enters n .draining).agent = a := same
    rw [begun] at first
    have responses : d.agent.responses = a.responses := by
      rw [held, first]
      rfl
    refine ⟨?_, fun _ ⟨r, head, dest⟩ => ?_⟩
    · rw [quiet.agent none', second, held, first, if_pos fell', if_pos fell']
      rfl
    · have part : agentSlotChange n .draining .quiesced (d.enters n .quiesced) =
          withdrawResponses n (d.enters n .quiesced) := by
        unfold agentSlotChange
        dsimp only
        rw [if_pos goes, if_neg (by simp)]
      rw [quiet.entry none', part, withdrawResponses_entry (r := r) (by rw [own, responses]; exact head) dest, own, responses]

/-- SLOT_DRAIN of a slot with nothing to send ends the drain within its own event (R129; LOG 54). -/
theorem drains_ends {n : Slot} {s : State} (up : (s.slot n).state.isUp = true) (gone : s.egressEmpty n = true)
    (none : s.NoWaitStays n) (blocked : s.HeadBlocked s.slots.waitingList (s.slots.committed - s.classOf n)) :
    let t := checkDrain n (s.drains n)
    t.slots = { s.slots with
        committed := s.slots.committed - s.classOf n
        slot := s.slots.slot.write n { s.slot n with
          state := .quiesced, pullGuard := false, softStart := Option.none, drainTimer := Option.none
          width := (t.slot n).width
          lines := { (s.slot n).lines with powerEnable := false, removeLamp := true }
          counters := { (s.slot n).counters with drainsCompleted := oneMore (s.slot n).counters.drainsCompleted } } } ∧
      (t.port n).link = .down ∧ (t.port n).reportedWidth = Option.none ∧ AgentFollows n .quiesced s t := by
  have begun := drains_slots n s
  have record := drains_slot n s
  have drains : ((s.drains n).slot n).state = .draining := by rw [record]
  have class' (m : Slot) : (s.drains n).classOf m = s.classOf m := by
    unfold State.classOf
    by_cases h : m = n
    · subst h
      rw [record]
    · unfold State.slot
      rw [begun]
      dsimp only
      rw [Table.read_write_ne _ _ h]
  have budget : (s.drains n).budget = s.budget := by
    unfold State.budget
    rw [begun]
  have blocked' : (s.drains n).HeadBlocked (s.drains n).slots.waitingList
      ((s.drains n).slots.committed - (s.drains n).classOf n) := by
    intro m head
    rw [class', class', budget, begun]
    rw [begun] at head
    exact blocked m head
  obtain ⟨ends, calm⟩ := checkDrain_ends drains (drains_empty none gone) blocked'
  have port := drained_port drains
  have final := drained_slots drains
  intro t
  refine ⟨?_, ?_, ?_, ?_⟩
  · have width : (t.slot n).width = (((s.drains n).drained n).slot n).width := by
      unfold State.slot
      rw [ends]
    rw [width, ends, final, record, class', begun]
    dsimp only
    rw [Table.write_write]
  · rw [calm.port, port]
  · rw [calm.port, port]
  · let c := countSlot n (fun c => { c with drainsCompleted := count32 c.drainsCompleted }) (s.drains n)
    let d := (leavePower n c).updSlot n fun r => { r with pullGuard := false }
    let b := s.updSlot n fun r => { r with drainTimer := some (s.now + s.slots.drainTimeout * Config.ticksPerMs) }
    have state : (b.slot n).state = (s.slot n).state := by rw [State.slot_updSlot_same]
    have left : (d.slot n).state = .draining := by
      rw [State.slot_updSlot_same]
      exact (leavePower_state n c).trans ((countSlot_state ..).trans drains)
    have change := changeSlot_tame n n (new := .quiesced) (by decide) Option.none d
    rw [left] at change
    have begin := changeSlot_tame n n (new := .draining) (by decide) Option.none b
    rw [state] at begin
    refine agentFollows_of_drain up (.updSlot n n _ s) (b := b) (d := d) (by rw [State.slot_updSlot_same]) ?_
      (change.agent.trans calm.agent) (change.quiet.trans calm.quiet)
    exact begin.trans ((Tame.updSlot n n _ (s.drains n)).trans ((leavePower_tame n n c).trans (.updSlot n n _ _)))

/-! ### SLOT_RETRY -/

theorem joinSideband_queue (e : SidebandEntry) (s : State) : (joinSideband e s).side.queue = s.side.queue ++ [e] := by
  unfold joinSideband startTransaction
  split <;> rfl

/-- A slot that enters IDENTIFYING from a state in which it is not in use has its identity read (R142). -/
theorem changeSlot_identifying_queue {n : Slot} {s : State} (inactive : (s.slot n).state ≠ .active) :
    (changeSlot n .identifying none s).side.queue = s.side.queue ++ [.identify n 1] := by
  let old := (s.slot n).state
  have entered (t : State) : (sidebandReport n old .identifying t).side.queue = t.side.queue ++ [.identify n 1] := by
    unfold sidebandReport sidebandSlotChange
    dsimp only
    rw [if_neg (by decide), if_pos rfl, joinSideband_queue, if_neg fun h => inactive h.1]
  have before : (alarmSlotChange n old .identifying none (agentSlotChange n old .identifying (s.enters n .identifying))).side =
      s.side := by
    rw [(alarmSlotChange_changes _ _ _ _ _).same .side rfl, (agentSlotChange_changes _ _ _ _).same .side rfl]
    rfl
  rw [changeSlot_of_inactive inactive (by decide), (monitorSlotChange_changes _ _ _).same .side rfl,
    (queueSlotChange_changes _ _ _ _).same .side rfl, entered, before]

/-! ### PORT_RESET -/

theorem bringUp_port (n : Slot) (s : State) : let q := (bringUp n s).port n
    q.link = .training ∧ q.attempt = 1 ∧ q.transmission = none ∧ q.assembly = none ∧ q.reportedWidth = none ∧
      q.pauseAsserted = ((bringUp n s).sq n).paused := by
  intro q
  have port : q = { (stopPort n .training s).port n with
      laneGood := Table.fill true, attempt := 1, link := .training, trained := [], workingWidth := none, lanesInUse := []
      trainingDeadline := some ((stopPort n .training s).now + Config.trainingTicks) } := by
    unfold q bringUp enterTraining
    rw [State.port_updPort_same, State.port_updPort_same]
    rfl
  have sq : (bringUp n s).sq n = (stopPort n .training s).sq n := rfl
  rw [port, stopPort_port n (by decide), sq]
  exact ⟨rfl, rfl, rfl, rfl, rfl, rfl⟩

theorem bringUp_slots_of (n : Slot) (s : State) : (bringUp n s).slots = { s.slots with
    slot := s.slots.slot.write n { s.slot n with width := ((bringUp n s).slot n).width } } := by
  have slots := stopPort_slots n .training s
  unfold State.slot
  rw [bringUp_slots, slots]
  split
  · exact congrArg (fun t => { s.slots with slot := t }) (Table.write_read s.slots.slot n).symm
  · rw [Table.read_write_same]
    rfl

/-- PORT_RESET of a slot that is up: its record, its port, its queues and what the agent loses (R2, R58, R133). -/
theorem enterLinking_resets {n : Slot} {s : State} (up : (s.slot n).state.isUp = true) :
    let t := enterLinking n s
    t.slots = { s.slots with slot := s.slots.slot.write n { s.slot n with
        state := .linking, softStart := none, width := (t.slot n).width
        lines := { (s.slot n).lines with powerEnable := true, removeLamp := false } } } ∧
      (t.port n).link = .training ∧ (t.port n).attempt = 1 ∧ (t.port n).transmission = none ∧
      (t.port n).assembly = none ∧ (t.port n).reportedWidth = none ∧ (t.port n).pauseAsserted = false ∧
      (t.sq n).queues = ⟨[], [], [], []⟩ ∧ (t.sq n).paused = false ∧ (t.sq n).hold = .none ∧
      (t.sq n).holdTimer = none ∧ (t.sq n).stallCount = 0 ∧ AgentFollows n .linking s t := by
  let o := s.updSlot n fun r => { r with softStart := none }
  let b := bringUp n o
  have record : o.slot n = { s.slot n with softStart := none } := State.slot_updSlot_same ..
  have brought : b.slots = _ := bringUp_slots_of n o
  have slot : b.slot n = { s.slot n with softStart := none, width := (b.slot n).width } := by
    have read : b.slot n = _ := (congrArg (fun x => x.slot.read n) brought).trans (Table.read_write_same ..)
    rw [record] at read
    exact read
  have falls : ((b.slot n).state.isUp && !SlotState.linking.isUp) = true := by
    rw [slot]
    simp only [up]
    rfl
  obtain ⟨queues, paused, hold, timer, count⟩ := changeSlot_sq_fallen falls (by decide) none
  obtain ⟨link, attempt, idle, gone, width, synced⟩ : (b.port n).link = _ ∧ _ := bringUp_port n o
  have stands : PortStands n b (changeSlot n .linking none b) := changeSlot_stands n (by decide) none b
  have linking := changeSlot_slots n .linking none b
  have base (x : SlotRecord) : b.slots.slot.write n x = s.slots.slot.write n x := by
    rw [brought, Table.write_write]
    exact Table.write_write ..
  have rest : b.slots = { s.slots with slot := b.slots.slot } := by
    rw [brought]
    rfl
  intro t
  have t_eq : t = changeSlot n .linking none b := rfl
  clear_value t
  subst t_eq
  refine ⟨?_, ?_, ?_, ?_, ?_, ?_, ?_, queues, paused, hold, timer, by rw [count, if_pos rfl], ?_⟩
  · rw [changeSlot_slot, linking]
    unfold State.enters State.updSlot Table.update
    dsimp only
    rw [base, show b.slots.slot.read n = b.slot n from rfl, slot]
    exact congrArg (fun x : SlotController => { x with slot := s.slots.slot.write n { s.slot n with
      state := .linking, softStart := none, width := (b.slot n).width
      lines := { (s.slot n).lines with powerEnable := true, removeLamp := false } } }) rest
  · rw [stands.port]
    exact link
  · rw [stands.port]
    exact attempt
  · rw [stands.idle (by rw [link]; decide)]
    exact idle
  · rw [stands.port]
    exact gone
  · rw [stands.port]
    exact width
  · rw [stands.synced synced]
    exact paused
  · refine changeSlot_agentFollows (by decide) none ((Tame.updSlot n n _ s).trans (bringUp_tame n n o)) ?_ ?_
    · rw [slot]
    · rw [slot]

/-! ### The four requests -/

theorem slotAdmit_of_standby {n : Slot} {s : State} (standby : (s.slot n).state = .standby) :
    let t := changeSlot n .active none (s.updSlot n fun r => { r with admitted := true })
    slotAdmit n s = okWith [7, 1] t ∧ t.slots = { s.slots with slot := s.slots.slot.write n { s.slot n with
      state := .active, admitted := true
      lines := { (s.slot n).lines with powerEnable := true, removeLamp := false } } } := by
  intro t
  have results : admitResults t n = [7, 1] := by
    unfold admitResults
    rw [show t.slot n = _ from changeSlot_slot .., State.slot_updSlot_same]
    rfl
  refine ⟨?_, changeSlot_updSlot_slots ..⟩
  unfold slotAdmit
  rw [standby, ← results]

/-- Settles O59: the four requests on a slot that is none of the twelve, and by the state of one that is. -/
theorem slotRequestsFollowTheState : Obligations.SlotRequestsFollowTheState := by
  intro slot q s toAdmit drain retry reset
  refine ⟨fun past i hi takes => ?_, fun n names => ?_⟩
  · simp only [List.mem_cons, List.not_mem_nil, or_false] at hi
    rcases hi with rfl | rfl | rfl | rfl <;> exact request_refuses takes (withSlot_of_past past _ _)
  intro r up lit becomes flag
  refine ⟨fun takes => ?_, fun takes => ?_, fun takes => ?_, fun takes => ?_⟩
  · have answers {status : Status} {results : List Byte} {t : State}
        (h : slotAdmit n s.taking = (t, some (status, results))) : Answered toAdmit s q status results t :=
      request_completes takes ((withSlot_of_val names _ _).trans h)
    refine ⟨fun standby => ?_, fun early => ?_, fun active => ?_, fun late => ?_⟩
    · obtain ⟨effect, slots⟩ := slotAdmit_of_standby (n := n) (s := s.taking) standby
      exact ⟨_, answers effect, slots⟩
    · refine answers ?_
      have record : (s.taking.updSlot n fun r => { r with admitted := true }).slot n = { r with admitted := true } :=
        State.slot_updSlot_same ..
      have results : admitResults (s.taking.updSlot n fun r => { r with admitted := true }) n = [r.state.code, 1] := by
        unfold admitResults
        rw [record]
        rfl
      unfold slotAdmit
      rw [← results]
      rcases early with h | h | h | h <;> rw [show (s.taking.slot n).state = _ from h] <;> rfl
    · refine answers ?_
      unfold slotAdmit
      rw [show (s.taking.slot n).state = _ from active]
      unfold admitResults
      rw [show (s.taking.slot n).state = _ from active]
      rfl
    · refine answers ?_
      unfold slotAdmit
      rcases late with h | h | h | h | h <;> rw [show (s.taking.slot n).state = _ from h] <;> rfl
  · have answers {status : Status} {results : List Byte} {t : State}
        (h : slotDrain n s.taking = (t, some (status, results))) : Answered drain s q status results t :=
      request_completes takes ((withSlot_of_val names _ _).trans h)
    have begins (h : up) : slotDrain n s.taking = okWith [] (checkDrain n (s.taking.drains n)) := by
      rw [← enterDraining_eq]
      unfold slotDrain
      rcases h with h | h <;> rw [show (s.taking.slot n).state = _ from h]
    have isUp (h : up) : (s.taking.slot n).state.isUp = true := by
      rcases h with h | h <;> rw [show (s.taking.slot n).state = _ from h] <;> rfl
    refine ⟨fun isUp stays => ?_, fun h queues idle none blocked => ?_, fun draining => ?_, fun down other => ?_⟩
    · have still : checkDrain n (s.taking.drains n) = s.taking.drains n :=
        checkDrain_of_busy (drains_busy (s := s.taking) stays)
      exact ⟨_, answers (still ▸ begins isUp), drains_slots n s.taking, drains_agentFollows n s.taking⟩
    · obtain ⟨slots, link, width, follows⟩ := drains_ends (n := n) (s := s.taking) (isUp h)
        ((egressEmpty_iff _ _).2 ⟨queues, idle⟩) none blocked
      exact ⟨_, answers (begins h), slots, link, width, follows⟩
    · refine answers ?_
      unfold slotDrain
      rw [show (s.taking.slot n).state = _ from draining]
      rfl
    · refine answers ?_
      have states : (s.taking.slot n).state ≠ .standby ∧ (s.taking.slot n).state ≠ .active ∧
          (s.taking.slot n).state ≠ .draining := ⟨fun h => down (.inl h), fun h => down (.inr h), other⟩
      unfold slotDrain
      revert states
      cases (s.taking.slot n).state <;> simp [refusedWith]
  · have answers {status : Status} {results : List Byte} {t : State}
        (h : slotRetry n s.taking = (t, some (status, results))) : Answered retry s q status results t :=
      request_completes takes ((withSlot_of_val names _ _).trans h)
    refine ⟨fun ended closed => ?_, fun other => ?_⟩
    · let b := s.taking.updSlot n fun r =>
        { r with
          identity := none, powerClass := none, admitted := false, fault := none, failureKind := none
          pullGuard := false }
      have record : b.slot n = _ := State.slot_updSlot_same ..
      have inactive : (b.slot n).state ≠ .active := by
        rw [record]
        show r.state ≠ .active
        rcases ended with h | h <;> rw [h] <;> decide
      have state : ((enterIdentifying n s.taking).slot n).state = .identifying := changeSlot_state n _ none b
      refine ⟨enterIdentifying n s.taking, answers ?_, changeSlot_updSlot_slots .., changeSlot_identifying_queue inactive⟩
      unfold slotRetry
      dsimp only
      rw [if_pos ⟨ended, closed⟩, state]
      rfl
    · refine answers (if_neg ?_)
      rintro ⟨state, closed⟩
      rcases other with h | ⟨h, k⟩
      · exact absurd (h.symm.trans closed) (by decide)
      · exact state.elim h k
  · have answers {status : Status} {results : List Byte} {t : State}
        (h : portReset n s.taking = (t, some (status, results))) : Answered reset s q status results t :=
      request_completes takes ((withSlot_of_val names _ _).trans h)
    refine ⟨fun isUp => ?_, fun down => answers (if_neg down)⟩
    have up' : (s.taking.slot n).state.isUp = true := by
      rcases isUp with h | h <;> rw [show (s.taking.slot n).state = _ from h] <;> rfl
    obtain ⟨slots, link, attempt, idle, gone, width, told, queues, paused, hold, timer, count, follows⟩ :=
      enterLinking_resets up'
    exact ⟨_, answers (if_pos isUp), slots, link, attempt, idle, gone, width, told, queues, paused, hold, timer, count,
      congrArg (fun m => m.read n) (enterLinking_mail n s.taking), follows⟩

end Sys2Proof.Machine
end

section
/-! HUB_RESET and CLEAR_COUNTERS. -/

namespace Sys2Proof.Machine

/-! ### The ports and the queues as traffic is reset -/

/-- Between two states a port and its queues stood but for a pause, told to the port, and for counters. -/
structure Spared (n : Slot) (s t : State) : Prop where
  port : t.port n = { s.port n with pauseAsserted := (t.port n).pauseAsserted }
  sq : t.sq n = { s.sq n with paused := (t.sq n).paused, egress := (t.sq n).egress }
  synced : (s.port n).pauseAsserted = (s.sq n).paused → (t.port n).pauseAsserted = (t.sq n).paused
  time : t.time = s.time

theorem Spared.refl (n : Slot) (s : State) : Spared n s s := ⟨rfl, rfl, id, rfl⟩

theorem Spared.trans {n : Slot} {s t u : State} (h : Spared n s t) (k : Spared n t u) : Spared n s u where
  port := by rw [k.port, h.port]
  sq := by rw [k.sq, h.sq]
  synced same := k.synced (h.synced same)
  time := k.time.trans h.time

/-- Between two states a port and its queues stood. -/
structure Kept (n : Slot) (s t : State) : Prop where
  port : t.port n = s.port n
  sq : t.sq n = s.sq n
  time : t.time = s.time

theorem Kept.refl (n : Slot) (s : State) : Kept n s s := ⟨rfl, rfl, rfl⟩

theorem Kept.trans {n : Slot} {s t u : State} (h : Kept n s t) (k : Kept n t u) : Kept n s u :=
  ⟨k.port.trans h.port, k.sq.trans h.sq, k.time.trans h.time⟩

theorem flushAll_sq_ne {p n : Slot} (other : n ≠ p) (s : State) : (flushAll p s).sq n =
    { s.sq n with paused := ((flushAll p s).sq n).paused } := by
  rw [(flushAll_discarded p s).sq_ne n other, State.sq_updSq_ne _ _ _ other]

/-- The flush of another port. -/
theorem resetQueues_spared {p n : Slot} (other : n ≠ p) (s : State) : Spared n s (resetQueues p s) where
  port := flushAll_port p n s
  sq := by
    rw [show (resetQueues p s).sq n = (flushAll p s).sq n from State.sq_updSq_ne _ _ _ other, flushAll_sq_ne other]
  synced same := by
    rw [show (resetQueues p s).sq n = (flushAll p s).sq n from State.sq_updSq_ne _ _ _ other]
    exact (flushAll_calm other s).synced same
  time := (resetQueues_changes p s).same .time rfl

/-- A port whose queues are reset (R59). -/
theorem resetQueues_own (p : Slot) (s : State) :
    (resetQueues p s).port p = { s.port p with pauseAsserted := ((resetQueues p s).port p).pauseAsserted } ∧
      (resetQueues p s).sq p = ⟨.empty, ((resetQueues p s).sq p).paused, .none, none, 0,
        ((resetQueues p s).sq p).egress⟩ ∧
      ((s.port p).pauseAsserted = (s.sq p).paused →
        ((resetQueues p s).port p).pauseAsserted = ((resetQueues p s).sq p).paused) ∧
      (resetQueues p s).time = s.time := by
  have record : (resetQueues p s).sq p = { (flushAll p s).sq p with hold := .none, holdTimer := none, stallCount := 0 } :=
    State.sq_updSq_same ..
  refine ⟨flushAll_port p p s, ?_, fun same => ?_, (resetQueues_changes p s).same .time rfl⟩
  · rw [record, flushAll_sq]
  · rw [record]
    exact (flushAll_stands p s).synced same

theorem resetPort_spared {p n : Slot} (other : n ≠ p) (s : State) : Spared n s (resetPort p s) where
  port := by
    rw [show (resetPort p s).port n = (discardAssembly p s).port n from State.port_updPort_ne _ _ _ other,
      discardAssembly_port_ne other]
  sq := by
    rw [show (resetPort p s).sq n = (discardAssembly p s).sq n from rfl, discardAssembly_sq]
  synced same := by
    rw [show (resetPort p s).port n = (discardAssembly p s).port n from State.port_updPort_ne _ _ _ other]
    exact (discardAssembly_calm other s).synced same
  time := (resetPort_changes p s).same .time rfl

/-- A port that is reset: its assembly is discarded and its error window cleared (R20). -/
theorem resetPort_own (p : Slot) (s : State) :
    (resetPort p s).port p = { s.port p with
      assembly := none, cardHold := false, errorCount := 0, lastErrorCount := 0, stallSeen := false
      pauseAsserted := ((resetPort p s).port p).pauseAsserted } ∧
      (resetPort p s).sq p = { s.sq p with paused := ((resetPort p s).sq p).paused } ∧
      ((s.port p).pauseAsserted = (s.sq p).paused →
        ((resetPort p s).port p).pauseAsserted = ((resetPort p s).sq p).paused) ∧
      (resetPort p s).time = s.time := by
  have record : (resetPort p s).port p = { (discardAssembly p s).port p with
      cardHold := false, errorCount := 0, lastErrorCount := 0, stallSeen := false } := State.port_updPort_same ..
  refine ⟨?_, discardAssembly_sq p p s, fun same => ?_, (resetPort_changes p s).same .time rfl⟩
  · rw [record, discardAssembly_port]
  · rw [record, show (resetPort p s).sq p = (discardAssembly p s).sq p from rfl, discardAssembly_eq]
    unfold State.port State.sq
    dsimp only
    rw [Table.read_write_same, Table.read_write_same]
    unfold State.portTold
    split
    · next kept => rw [kept]; exact same
    · rfl

theorem setPaused_kept {p n : Slot} (other : n ≠ p) (b : Bool) (s : State) : Kept n s (setPaused p b s) := by
  rw [setPaused_eq]
  exact ⟨Table.read_write_ne _ _ other, Table.read_write_ne _ _ other, rfl⟩

/-- A pause that is released, and told to its port (R59). -/
theorem setPaused_own (p : Slot) (b : Bool) (s : State) :
    (setPaused p b s).port p = { s.port p with pauseAsserted := ((setPaused p b s).port p).pauseAsserted } ∧
      (setPaused p b s).sq p = { s.sq p with paused := b } ∧
      ((s.port p).pauseAsserted = (s.sq p).paused → ((setPaused p b s).port p).pauseAsserted = b) ∧
      (setPaused p b s).time = s.time := by
  rw [setPaused_eq]
  unfold State.port State.sq State.portTold
  dsimp only
  rw [Table.read_write_same, Table.read_write_same]
  refine ⟨?_, rfl, fun same => ?_, rfl⟩
  · split <;> rfl
  · split
    · next kept => rw [kept]; exact same
    · rfl

/-! ### The bring-ups that start again -/

/-- Where a GOOD lane is left a bring-up in progress starts again in TRAINING (R20). -/
def State.restarts (p : Slot) (s : State) : State :=
  if (s.port p).link = .training ∨ (s.port p).link = .testing then
    withdrawMaker (.test p) (s.updPort p fun q =>
      { q with
        link := .training, attempt := 1, trained := [], workingWidth := none, lanesInUse := []
        trainingDeadline := some (s.time.localTicks + 250000), testDeadline := none, testUnsent := [], testNext := 16 })
  else s

/-- A GOOD lane is left at each port whose bring-up is in progress. -/
def State.LanesLeft (s : State) : Prop :=
  ∀ p : Slot, (s.port p).link = .training ∨ (s.port p).link = .testing → ∃ l : Lane, (s.port p).laneGood.read l = true

theorem restartBringUp_eq {p : Slot} {s : State} (lanes : s.LanesLeft) : restartBringUp p s = s.restarts p := by
  have starts (h : (s.port p).link = .training ∨ (s.port p).link = .testing) :
      beginTraining p ((dropTests p s).updPort p fun q => { q with attempt := 1, trainingDeadline := none }) =
        s.restarts p := by
    let t := (dropTests p s).updPort p fun q => { q with attempt := 1, trainingDeadline := none }
    have whole : enterTraining p t = s.restarts p := by
      unfold State.restarts
      rw [if_pos h]
      unfold t enterTraining dropTests
      have commute (f : Port → Port) (u : State) :
          (withdrawMaker (.test p) u).updPort p f = withdrawMaker (.test p) (u.updPort p f) := rfl
      rw [commute, commute, updPort_updPort, updPort_updPort]
      rfl
    have record : (enterTraining p t).port p = { s.port p with
        link := .training, attempt := 1, trained := [], workingWidth := none, lanesInUse := []
        trainingDeadline := some (s.time.localTicks + 250000), testDeadline := none, testUnsent := [], testNext := 16 } := by
      rw [whole]
      unfold State.restarts
      rw [if_pos h]
      exact State.port_updPort_same ..
    rw [← whole]
    refine if_neg fun none => ?_
    obtain ⟨l, hl⟩ := lanes p h
    have bad := (trainingTarget_eq_zero _ _).1 none l
    rw [record] at bad
    exact absurd (bad.symm.trans hl) (by decide)
  unfold restartBringUp
  cases h : (s.port p).link with
  | training => exact starts (.inl h)
  | testing => exact starts (.inr h)
  | down | up =>
    unfold State.restarts
    rw [if_neg (by rw [h]; decide)]

theorem restarts_port (p : Slot) (s : State) : (s.restarts p).port p =
    if (s.port p).link = .training ∨ (s.port p).link = .testing then { s.port p with
      link := .training, attempt := 1, trained := [], workingWidth := none, lanesInUse := []
      trainingDeadline := some (s.time.localTicks + 250000), testDeadline := none, testUnsent := [], testNext := 16 }
    else s.port p := by
  unfold State.restarts
  split
  · exact State.port_updPort_same ..
  · rfl

theorem restarts_kept {p n : Slot} (other : n ≠ p) (s : State) : Kept n s (s.restarts p) := by
  unfold State.restarts
  split
  · exact ⟨State.port_updPort_ne _ _ _ other, rfl, rfl⟩
  · exact .refl n s

theorem restarts_lanesLeft {p : Slot} {s : State} (lanes : s.LanesLeft) : (s.restarts p).LanesLeft := fun q starting => by
  by_cases h : q = p
  · subst h
    have record := restarts_port q s
    by_cases own : (s.port q).link = .training ∨ (s.port q).link = .testing
    · rw [if_pos own] at record
      rw [record]
      exact lanes q own
    · rw [if_neg own] at record
      rw [record] at starting ⊢
      exact lanes q starting
  · rw [(restarts_kept h s).port] at starting ⊢
    exact lanes q starting

theorem forSlots_restartBringUp {s : State} (lanes : s.LanesLeft) :
    forSlots restartBringUp s = forSlots State.restarts s := by
  unfold forSlots
  generalize allSlots = slots
  induction slots generalizing s with
  | nil => rfl
  | cons n ns ih =>
    rw [List.foldl_cons, List.foldl_cons, restartBringUp_eq lanes]
    exact ih (restarts_lanesLeft lanes)

theorem restarts_changes (p : Slot) (s : State) : OnlyChanges [.ports, .qm] s (s.restarts p) := by
  unfold State.restarts
  split
  · exact (withdrawMaker_changes _ _).after ((updPort_changes _ _ _).weaken rfl) rfl
  · exact .refl s

/-! ### Traffic as a whole -/

/-- The state in which every port's queues are flushed, every assembly discarded, and the reserve waiting list emptied. -/
def State.flushed (s : State) : State :=
  let t := forSlots resetPort (forSlots resetQueues s)
  { t with qm := { t.qm with waiting := [], exhaustion := false } }

theorem flushed_own (n : Slot) (s : State) :
    s.flushed.port n = { s.port n with
      assembly := none, cardHold := false, errorCount := 0, lastErrorCount := 0, stallSeen := false
      pauseAsserted := (s.flushed.port n).pauseAsserted } ∧
      s.flushed.sq n = ⟨.empty, (s.flushed.sq n).paused, .none, none, 0, (s.flushed.sq n).egress⟩ ∧
      ((s.port n).pauseAsserted = (s.sq n).paused → (s.flushed.port n).pauseAsserted = (s.flushed.sq n).paused) ∧
      s.flushed.time = s.time := by
  obtain ⟨a, before, after⟩ := forSlots_visits (R := Spared n) (.refl n) (fun _ _ _ => .trans) n
    (fun m hm t => resetQueues_spared hm.symm t) s
  obtain ⟨port, sq, synced, time⟩ := resetQueues_own n a
  obtain ⟨b, before', after'⟩ := forSlots_visits (R := Spared n) (.refl n) (fun _ _ _ => .trans) n
    (fun m hm t => resetPort_spared hm.symm t) (forSlots resetQueues s)
  obtain ⟨port', sq', synced', time'⟩ := resetPort_own n b
  have middle := after.trans before'
  unfold State.flushed
  generalize forSlots resetPort (forSlots resetQueues s) = t at after'
  refine ⟨?_, ?_, fun same => ?_, ?_⟩
  · show t.port n = { s.port n with
      assembly := none, cardHold := false, errorCount := 0, lastErrorCount := 0, stallSeen := false
      pauseAsserted := (t.port n).pauseAsserted }
    rw [after'.port, port', middle.port, port, before.port]
  · show t.sq n = ⟨.empty, (t.sq n).paused, .none, none, 0, (t.sq n).egress⟩
    rw [after'.sq, sq', middle.sq, sq]
  · exact after'.synced (synced' (middle.synced (synced (before.synced same))))
  · exact after'.time.trans (time'.trans (middle.time.trans (time.trans before.time)))

theorem flushed_changes (s : State) : OnlyChanges [.ports, .qm, .out] s s.flushed := by
  have ports : OnlyChanges [.ports, .qm, .out] s (forSlots resetPort (forSlots resetQueues s)) :=
    .seq (.forSlots (fun n t => (resetQueues_changes n t).weaken rfl) _)
      (.forSlots (fun n t => (resetPort_changes n t).weaken rfl) _)
  unfold State.flushed
  generalize forSlots resetPort (forSlots resetQueues s) = t at ports
  exact ports.seq ((with_qm_changes _ _).weaken rfl)

theorem resetTraffic_eq {s : State} (lanes : s.LanesLeft) :
    resetTraffic s = forSlots State.restarts (forSlots (fun n => setPaused n false) s.flushed) := by
  have left : (forSlots (fun n => setPaused n false) s.flushed).LanesLeft := fun p starting => by
    obtain ⟨u, before, after⟩ := forSlots_visits (R := Kept p) (.refl p) (fun _ _ _ => .trans) p
      (fun m hm t => setPaused_kept hm.symm false t) s.flushed
    obtain ⟨port, -⟩ := setPaused_own p false u
    obtain ⟨own, -⟩ := flushed_own p s
    rw [after.port, port, before.port, own] at starting ⊢
    exact lanes p starting
  rw [← forSlots_restartBringUp left]
  rfl

/-- A port and its queues after a reset of traffic (R20, R59). -/
theorem resetTraffic_own (n : Slot) {s : State} (lanes : s.LanesLeft) :
    let t := resetTraffic s
    let cleared : Port := { s.port n with
      assembly := none, cardHold := false, errorCount := 0, lastErrorCount := 0, stallSeen := false
      pauseAsserted := (t.port n).pauseAsserted }
    (t.port n = if (s.port n).link = .training ∨ (s.port n).link = .testing then { cleared with
        link := .training, attempt := 1, trained := [], workingWidth := none, lanesInUse := []
        trainingDeadline := some (s.time.localTicks + 250000), testDeadline := none, testUnsent := [], testNext := 16 }
      else cleared) ∧
      t.sq n = ⟨.empty, false, .none, none, 0, (t.sq n).egress⟩ ∧
      ((s.sq n).paused = (s.port n).pauseAsserted → (t.port n).pauseAsserted = false) := by
  obtain ⟨own, queues, synced, time⟩ := flushed_own n s
  obtain ⟨u, before, after⟩ := forSlots_visits (R := Kept n) (.refl n) (fun _ _ _ => .trans) n
    (fun m hm t => setPaused_kept hm.symm false t) s.flushed
  obtain ⟨port, sq, told, time'⟩ := setPaused_own n false u
  obtain ⟨v, before', after'⟩ := forSlots_visits (R := Kept n) (.refl n) (fun _ _ _ => .trans) n
    (fun m hm t => restarts_kept hm.symm t) (forSlots (fun n => setPaused n false) s.flushed)
  have middle := after.trans before'
  rw [← resetTraffic_eq lanes] at after'
  generalize resetTraffic s = t at after'
  have record := restarts_port n v
  have sq' : (v.restarts n).sq n = v.sq n := by
    unfold State.restarts
    split <;> rfl
  have link : (v.port n).link = (s.port n).link := by rw [middle.port, port, before.port, own]
  have now : v.time = s.time := middle.time.trans (time'.trans (before.time.trans time))
  rw [link, now] at record
  refine ⟨?_, ?_, fun same => ?_⟩
  · rw [after'.port, record]
    split <;> rw [middle.port, port, before.port, own]
  · rw [after'.sq, sq', middle.sq, sq, before.sq, queues]
  · have asserted : ((v.restarts n).port n).pauseAsserted = (v.port n).pauseAsserted := by
      rw [record]
      split <;> rfl
    rw [after'.port, asserted, middle.port]
    exact told (by rw [before.port, before.sq]; exact synced same.symm)

/-- A reset of traffic reaches the ports and the queue manager alone, whose waiting list it empties. -/
theorem resetTraffic_traffic {s : State} (lanes : s.LanesLeft) :
    OnlyChanges [.ports, .qm, .out] s (resetTraffic s) ∧ (resetTraffic s).qm.waiting = [] ∧
      (resetTraffic s).qm.exhaustion = false := by
  rw [resetTraffic_eq lanes]
  have emptied (t : State) (f : Slot → State → State)
      (step : ∀ n u, (u.qm.waiting = [] ∧ u.qm.exhaustion = false) → (f n u).qm.waiting = [] ∧ (f n u).qm.exhaustion = false)
      (h : t.qm.waiting = [] ∧ t.qm.exhaustion = false) :
      (forSlots f t).qm.waiting = [] ∧ (forSlots f t).qm.exhaustion = false :=
    forSlots_keeps (R := fun t u => (t.qm.waiting = [] ∧ t.qm.exhaustion = false) →
      u.qm.waiting = [] ∧ u.qm.exhaustion = false) (fun _ => id) (fun _ _ _ h k x => k (h x)) step t h
  refine ⟨?_, emptied _ _ (fun n u h => ?_) (emptied _ _ (fun n u h => ?_) ⟨rfl, rfl⟩)⟩
  · refine .seq ?_ (.forSlots (fun n t => (restarts_changes n t).weaken rfl) _)
    exact .seq (flushed_changes s) (.forSlots (fun n t => (setPaused_changes n false t).weaken rfl) _)
  · unfold State.restarts
    split
    · refine ⟨?_, h.2⟩
      show u.qm.waiting.filter _ = []
      rw [h.1]
      rfl
    · exact h
  · rw [setPaused_eq]
    exact h

end Sys2Proof.Machine
end

section
/-! SUPPORT. The sideband master and the delay unit at a HUB_RESET, and the two requests. -/

namespace Sys2Proof.Machine

/-! ### The sideband master -/

/-- A transaction as it starts (R143, R144). -/
def Transaction.starting (now : Nat) : Transaction :=
  ⟨.select, [], ⟨.notReached, .notReached, .notReached⟩, now, none, false, false⟩

theorem startTransaction_of_running {s : State} (runs : s.side.current ≠ none) : startTransaction s = s := by
  unfold startTransaction
  split
  · next h _ => exact absurd h runs
  · rfl

/-- Where no transaction runs one starts for the head of the queue, if there is one (R143). -/
theorem startTransaction_of_idle {s : State} (idle : s.side.current = none) (free : s.side.selector = none) :
    startTransaction s = { s with side := { s.side with
      current := s.side.queue.head?.map fun _ => .starting s.time.localTicks
      selector := s.side.queue.head?.map SidebandEntry.slot } } := by
  cases queue : s.side.queue with
  | nil =>
    unfold startTransaction
    rw [idle, queue]
    dsimp only [List.head?_nil, Option.map_none]
    rw [← idle, ← free]
  | cons e rest =>
    unfold startTransaction
    rw [idle, queue]
    rfl

/-- The sideband master after a reset (R152; LOG 17). -/
theorem resetSideband_side (s : State) :
    let kept := s.side.queue.filter fun e => !e.isRaw
    let t := resetSideband s
    t.side.queue = kept ∧ t.side.lastAttempt = s.side.lastAttempt ∧
      (∀ x : Transaction, s.side.current = some x → x.phase ≠ .select → x.held = none →
        t.side.current = some { x with aborting := true } ∧ t.side.selector = s.side.selector) ∧
      ((∃ x : Transaction, s.side.current = some x ∧ (x.phase = .select ∨ x.held ≠ none)) ∨
          (s.side.current = none ∧ s.side.selector = none) →
        t.side.current = kept.head?.map (fun _ => .starting s.time.localTicks) ∧
          t.side.selector = kept.head?.map SidebandEntry.slot) := by
  intro kept t
  let emptied (u : State) : State := u.updSide fun m =>
    { m with queue := m.queue.filter fun e => !e.isRaw, counters := Table.fill ⟨0, 0, 0⟩ }
  have whole : t = startTransaction (emptied (abortTransaction s)) := rfl
  have queue (u : State) : (startTransaction u).side.queue = u.side.queue ∧
      (startTransaction u).side.lastAttempt = u.side.lastAttempt := by
    unfold startTransaction
    split <;> exact ⟨rfl, rfl⟩
  have aborted : (abortTransaction s).side.queue = s.side.queue ∧
      (abortTransaction s).side.lastAttempt = s.side.lastAttempt := by
    unfold abortTransaction
    split
    · split <;> exact ⟨rfl, rfl⟩
    · exact ⟨rfl, rfl⟩
  have left : (emptied (abortTransaction s)).side.queue = kept := congrArg (List.filter _) aborted.1
  refine ⟨?_, ?_, fun x runs phase held => ?_, fun idle => ?_⟩
  · rw [whole, (queue _).1]
    exact left
  · rw [whole, (queue _).2]
    exact aborted.2
  · have aborts : abortTransaction s = s.updSide fun m => { m with current := some { x with aborting := true } } := by
      unfold abortTransaction
      rw [runs]
      exact if_neg (by simp [phase, held])
    rw [whole, startTransaction_of_running (by rw [aborts]; simp [emptied, State.updSide]), aborts]
    exact ⟨rfl, rfl⟩
  · have ended : (abortTransaction s).side.current = none ∧ (abortTransaction s).side.selector = none ∧
        (abortTransaction s).time = s.time := by
      rcases idle with ⟨x, runs, ends⟩ | ⟨current, selector⟩
      · have ends' : abortTransaction s = endTransaction s := by
          unfold abortTransaction
          rw [runs]
          exact if_pos (ends.imp_right fun h => by simpa [Option.isSome_iff_ne_none] using h)
        rw [ends']
        exact ⟨rfl, rfl, rfl⟩
      · have same : abortTransaction s = s := by
          unfold abortTransaction
          rw [current]
        rw [same]
        exact ⟨current, selector, rfl⟩
    obtain ⟨current, selector, time⟩ := ended
    rw [whole, startTransaction_of_idle (s := emptied (abortTransaction s)) current selector, left,
      show (emptied (abortTransaction s)).time = s.time from time]
    exact ⟨rfl, rfl⟩

/-! ### The delay unit -/

/-- Between two states the delay unit stood beside the slots' records, and a slot's record stood but for counters. -/
def DelayStands (n : Slot) (s t : State) : Prop :=
  t.delay = { s.delay with slot := t.delay.slot } ∧ t.slotDelay n = { s.slotDelay n with counters := (t.slotDelay n).counters }

theorem DelayStands.trans {n : Slot} {s t u : State} (h : DelayStands n s t) (k : DelayStands n t u) : DelayStands n s u := by
  refine ⟨?_, ?_⟩
  · rw [k.1, h.1]
  · rw [k.2, h.2]

/-- Every outstanding probe goes (R107). -/
theorem abandonProbes_delay (n : Slot) (s : State) :
    (abandonProbes s).delay = { s.delay with slot := (abandonProbes s).delay.slot } ∧
      (abandonProbes s).slotDelay n = { s.slotDelay n with
        outstanding := none, counters := ((abandonProbes s).slotDelay n).counters } := by
  have beside (m : Slot) (other : m ≠ n) (t : State) : DelayStands n t (abandonProbe m t) := by
    unfold abandonProbe
    split
    · refine ⟨rfl, ?_⟩
      rw [show (t.updDelay m _).slotDelay n = t.slotDelay n from Table.read_update_ne _ _ other.symm]
    · exact ⟨rfl, rfl⟩
  obtain ⟨u, before, after⟩ := forSlots_visits (R := DelayStands n) (fun _ => ⟨rfl, rfl⟩) (fun _ _ _ => .trans) n beside s
  have own : (abandonProbe n u).delay = { u.delay with slot := (abandonProbe n u).delay.slot } ∧
      (abandonProbe n u).slotDelay n = { u.slotDelay n with
        outstanding := none, counters := ((abandonProbe n u).slotDelay n).counters } := by
    unfold abandonProbe
    split
    · refine ⟨rfl, ?_⟩
      rw [show (u.updDelay n _).slotDelay n = _ from Table.read_update_same _ _ _]
      rfl
    · next none =>
      refine ⟨rfl, ?_⟩
      have none' : (u.slotDelay n).outstanding = Option.none := by simpa using none
      rw [← none']
  unfold abandonProbes
  generalize forSlots abandonProbe s = t at after
  exact ⟨by rw [after.1, own.1, before.1], by rw [after.2, own.2, before.2]⟩

/-! ### The statistics counters -/

theorem zeroDrops : DropCounters.zero = ⟨#v[0, 0, 0, 0, 0, 0, 0, 0, 0], 0⟩ := rfl

/-- What a clearing of the counters leaves of the records of one slot (R19, R35, R60, R139, R153). -/
theorem clearBlockCounters_slot (n : Slot) (s : State) :
    let t := clearBlockCounters s
    t.port n = { s.port n with counters := ⟨0, 0, 0, 0⟩ } ∧ t.sq n = { s.sq n with egress := ⟨0, 0, 0, 0, 0⟩ } ∧
      t.slot n = { s.slot n with counters := ⟨0, 0, 0, 0, 0, 0⟩ } ∧
      t.slotDelay n = { s.slotDelay n with counters := ⟨0, 0, 0, 0, 0, 0, 0, 0, 0, 0, 0, 0⟩ } ∧
      t.side.counters.read n = ⟨0, 0, 0⟩ ∧ t.fwd.drops.read n = ⟨#v[0, 0, 0, 0, 0, 0, 0, 0, 0], 0⟩ := by
  refine ⟨Table.read_mapAll .., Table.read_mapAll .., Table.read_mapAll .., Table.read_mapAll .., ?_, ?_⟩
  · exact Table.read_fill ..
  · exact (Table.read_fill ..).trans zeroDrops

theorem clearBlockCounters_flow (f : Fin 255) (s : State) :
    (clearBlockCounters s).flow f = { s.flow f with forwarded := 0, dropped := 0 } := Table.read_mapAll ..

theorem clearBlockCounters_point (id : PointId) (s : State) :
    (clearBlockCounters s).point id = { s.point id with raiseCount := 0 } := Table.read_mapAll ..

/-! ### HUB_RESET as a whole -/

/-- The state of a HUB_RESET before the statistics counters are cleared (R183). -/
def State.blocksReset (s : State) : State :=
  resetAlarms (resetSideband (abandonProbes (resetCalendar (resetTraffic (s.updAgent fun a => { a with
    responses := [], counters := { a.counters with withdrawn := addCount32 a.counters.withdrawn a.responses.length } })))))

theorem blocksReset_keeps {s : State} (lanes : s.LanesLeft) :
    OnlyChanges [.ports, .qm, .cal, .delay, .side, .alarm, .agent, .out] s s.blocksReset := by
  let t := s.updAgent fun a => { a with
    responses := [], counters := { a.counters with withdrawn := addCount32 a.counters.withdrawn a.responses.length } }
  have traffic : OnlyChanges [.ports, .qm, .out] t (resetTraffic t) := (resetTraffic_traffic (s := t) lanes).1
  unfold State.blocksReset
  refine (resetAlarms_changes _).after ?_ rfl
  refine (resetSideband_changes _).after ?_ rfl
  refine (abandonProbes_changes _).after ?_ rfl
  refine (resetCalendar_changes _).after ?_ rfl
  exact traffic.after ((updAgent_changes _ s).weaken rfl) rfl

theorem resetBlocks_eq {s : State} (lanes : s.LanesLeft) (none : s.NoneDraining) :
    resetBlocks s = clearBlockCounters s.blocksReset := by
  refine checkDrains_of_noneDraining (s := clearBlockCounters s.blocksReset) fun n => ?_
  obtain ⟨-, -, slot, -⟩ := clearBlockCounters_slot n s.blocksReset
  have slots : s.blocksReset.slots = s.slots := (blocksReset_keeps lanes).same .slots rfl
  have same : s.blocksReset.slot n = s.slot n := by
    unfold State.slot
    rw [slots]
  rw [slot, same]
  exact none n

end Sys2Proof.Machine
end

section
/-! HUB_RESET and CLEAR_COUNTERS: what they leave. -/

namespace Sys2Proof.Machine

/-- The blocks that a HUB_RESET goes through after the queues and the ports, one by one. -/
theorem blocks_after_traffic {t x : State} (changes : OnlyChanges [.ports, .qm, .out] t x)
    (waiting : x.qm.waiting = []) (exhaustion : x.qm.exhaustion = false) :
    let w := resetAlarms (resetSideband (abandonProbes (resetCalendar x)))
    w.ports = x.ports ∧ (∀ n : Slot, w.sq n = x.sq n) ∧ w.qm.waiting = [] ∧ w.qm.exhaustion = false ∧
      w.cal = { t.cal with arming := none } ∧
      (w.delay = { t.delay with slot := w.delay.slot } ∧ ∀ n : Slot, w.slotDelay n = { t.slotDelay n with
        outstanding := none, counters := (w.slotDelay n).counters }) ∧
      w.alarm = { t.alarm with waits := [], notices := [], overflow := true, acks := [] } ∧ w.agent = t.agent ∧
      ∃ u : State, u.side = t.side ∧ u.time = t.time ∧ w.side = (resetSideband u).side := by
  have before : (resetCalendar x).delay = t.delay := changes.same .delay rfl
  have record (n : Slot) : (resetCalendar x).slotDelay n = t.slotDelay n := congrArg (fun d => d.slot.read n) before
  have cal : (resetCalendar x).cal = { t.cal with arming := none } :=
    congrArg (fun c : Calendar => { c with arming := none }) (changes.same .cal rfl)
  have probes := abandonProbes_changes (resetCalendar x)
  have stands (n : Slot) := abandonProbes_delay n (resetCalendar x)
  generalize abandonProbes (resetCalendar x) = y at probes stands
  have side := resetSideband_changes y
  have unit : y.side = t.side := Eq.trans (probes.same .side rfl) (changes.same .side rfl)
  have time : y.time = t.time := Eq.trans (probes.same .time rfl) (changes.same .time rfl)
  have master : ∃ u : State, u.side = t.side ∧ u.time = t.time ∧ (resetSideband y).side = (resetSideband u).side :=
    ⟨y, unit, time, rfl⟩
  generalize resetSideband y = z at side master
  have qm : z.qm = x.qm := Eq.trans (side.same .qm rfl) (probes.same .qm rfl)
  have ports : z.ports = x.ports := Eq.trans (side.same .ports rfl) (probes.same .ports rfl)
  have calendar : z.cal = { t.cal with arming := none } := Eq.trans (side.same .cal rfl) (Eq.trans (probes.same .cal rfl) cal)
  have delay : z.delay = y.delay := side.same .delay rfl
  have alarm : z.alarm = t.alarm :=
    Eq.trans (side.same .alarm rfl) (Eq.trans (probes.same .alarm rfl) (changes.same .alarm rfl))
  have agent : z.agent = t.agent :=
    Eq.trans (side.same .agent rfl) (Eq.trans (probes.same .agent rfl) (changes.same .agent rfl))
  intro w
  refine ⟨ports, fun n => congrArg (fun q => q.slot.read n) qm, ?_, ?_, calendar, ⟨?_, fun n => ?_⟩, ?_, agent, master⟩
  · have left : w.qm.waiting = z.qm.waiting.filter fun m => m != Maker.alarm := rfl
    rw [left, qm, waiting]
    rfl
  · exact (congrArg QueueManager.exhaustion qm).trans exhaustion
  · rw [show w.delay = y.delay from delay, (stands 0).1, before]
  · rw [show w.slotDelay n = y.slotDelay n from congrArg (fun d => d.slot.read n) delay, (stands n).2, record n]
  · exact congrArg (fun a : AlarmUnit => { a with waits := [], notices := [], overflow := true, acks := [] }) alarm

/-- The blocks of a HUB_RESET before the statistics counters are cleared, one by one. -/
theorem blocksReset_blocks {s : State} (lanes : s.LanesLeft) :
    let w := s.blocksReset
    (∀ n : Slot,
      let cleared : Port := { s.port n with
        assembly := none, cardHold := false, errorCount := 0, lastErrorCount := 0, stallSeen := false
        pauseAsserted := (w.port n).pauseAsserted }
      (w.port n = if (s.port n).link = .training ∨ (s.port n).link = .testing then { cleared with
          link := .training, attempt := 1, trained := [], workingWidth := none, lanesInUse := []
          trainingDeadline := some (s.time.localTicks + 250000), testDeadline := none, testUnsent := []
          testNext := 16 }
        else cleared) ∧
        w.sq n = ⟨.empty, false, .none, none, 0, (w.sq n).egress⟩ ∧
        ((s.sq n).paused = (s.port n).pauseAsserted → (w.port n).pauseAsserted = false)) ∧
      w.qm.waiting = [] ∧ w.qm.exhaustion = false ∧ w.cal = { s.cal with arming := none } ∧
      (w.delay = { s.delay with slot := w.delay.slot } ∧ ∀ n : Slot, w.slotDelay n = { s.slotDelay n with
        outstanding := none, counters := (w.slotDelay n).counters }) ∧
      w.alarm = { s.alarm with waits := [], notices := [], overflow := true, acks := [] } ∧
      w.agent = { s.agent with responses := [], counters := w.agent.counters } ∧
      (∃ u : State, u.side = s.side ∧ u.time = s.time ∧ w.side = (resetSideband u).side) := by
  unfold State.blocksReset
  let t := s.updAgent fun a => { a with
    responses := [], counters := { a.counters with withdrawn := addCount32 a.counters.withdrawn a.responses.length } }
  have lanes' : t.LanesLeft := lanes
  obtain ⟨changes, waiting, exhaustion⟩ := resetTraffic_traffic lanes'
  have own (n : Slot) := resetTraffic_own n lanes'
  change let w := resetAlarms (resetSideband (abandonProbes (resetCalendar (resetTraffic t)))); _
  generalize resetTraffic t = x at changes waiting exhaustion own
  obtain ⟨ports, sq, waits, exhausted, cal, delay, alarm, agent, master⟩ :=
    blocks_after_traffic changes waiting exhaustion
  generalize resetAlarms (resetSideband (abandonProbes (resetCalendar x))) = w
    at ports sq waits exhausted cal delay alarm agent master
  refine ⟨fun n => ?_, waits, exhausted, cal, delay, alarm, ?_, master⟩
  · obtain ⟨port, queues, told⟩ := own n
    have same : w.port n = x.port n := congrArg (fun p => p.read n) ports
    rw [same, sq n]
    exact ⟨port, queues, told⟩
  · rw [agent]
    rfl

/-- Settles O60: CLEAR_COUNTERS, and a HUB_RESET up to the answers of the agent. -/
theorem resetAndClearEmptyTheirState : Obligations.ResetAndClearEmptyTheirState := by
  intro q s
  refine ⟨fun takes => ?_, fun takes none => ?_⟩
  · refine ⟨clearAgentCounters (clearBlockCounters s.taking), request_answers takes rfl,
      fun n => clearBlockCounters_slot n s.taking, fun f => clearBlockCounters_flow f s.taking,
      fun id => clearBlockCounters_point id s.taking, rfl, rfl, rfl, rfl, rfl, rfl, rfl, rfl, rfl, ?_⟩
    intro part
    cases part <;> first | exact .inl (by decide) | exact .inr rfl
  · intro starting lanes
    have lanes' : s.taking.LanesLeft := lanes
    have run : Answered .hubReset s q .ok [] (resetAgent (resetBlocks s.taking)) := request_answers takes rfl
    rw [resetBlocks_eq lanes' none] at run
    obtain ⟨slots, waiting, exhaustion, cal, ⟨delay, delays⟩, alarm, agent, ⟨u, side, now, master⟩⟩ :=
      blocksReset_blocks lanes'
    have keeps := blocksReset_keeps lanes'
    generalize s.taking.blocksReset = w at run slots waiting exhaustion cal delay delays alarm agent master keeps
    have fwd : w.fwd = s.fwd := keeps.same .fwd rfl
    have trk : w.trk = s.trk := keeps.same .trk rfl
    have mon : w.mon = s.mon := keeps.same .mon rfl
    have controller : w.slots = s.slots := keeps.same .slots rfl
    have time : w.time = s.time := keeps.same .time rfl
    have qcfg : w.qcfg = s.qcfg := keeps.same .qcfg rfl
    obtain ⟨queue, last, aborts, idle⟩ := resetSideband_side u
    rw [← master] at queue last aborts idle
    rw [side] at queue last aborts idle
    rw [now] at idle
    refine ⟨clearBlockCounters w, fun n => ?_, waiting, exhaustion, cal, time, qcfg, ?_, ?_, fun f => ?_, ?_, ?_,
      fun id => ?_, ⟨queue, last, aborts, idle⟩, ?_, ?_, agent, ?_⟩
    · obtain ⟨port, queues, told⟩ := slots n
      obtain ⟨port', queues', slot, slotDelay, sideband, drops⟩ := clearBlockCounters_slot n w
      refine ⟨?_, ?_, ⟨fun off => ?_, fun on => ?_⟩, ?_, ?_, sideband, drops⟩
      · rw [queues', show w.sq n = _ from queues]
        rfl
      · intro same
        rw [port']
        exact told same
      · rw [port']
        exact congrArg (fun p : Port => { p with counters := ⟨0, 0, 0, 0⟩ }) (port.trans (if_neg off))
      · rw [port']
        exact congrArg (fun p : Port => { p with counters := ⟨0, 0, 0, 0⟩ }) (port.trans (if_pos on))
      · rw [slot, show w.slot n = s.slot n from congrArg (fun x => x.slot.read n) controller]
      · rw [slotDelay, show w.slotDelay n = _ from delays n]
        rfl
    · exact congrArg (fun x : Tracker => { x with counters := TrackerCounters.zero }) trk
    · exact congrArg (fun x : DelayUnit => { x with slot := (clearBlockCounters w).delay.slot }) delay
    · rw [clearBlockCounters_flow, show w.flow f = s.flow f from congrArg (fun x => x.flows.read f) fwd]
    · exact congrArg (fun x : Forwarding => { x with
        flows := (clearBlockCounters w).fwd.flows, drops := (clearBlockCounters w).fwd.drops
        defaultForwarded := 0, defaultDropped := 0 }) fwd
    · exact congrArg (fun x : AlarmUnit => { x with
        points := (clearBlockCounters w).alarm.points, counters := ⟨0, 0, 0, 0, 0⟩ }) alarm
    · rw [clearBlockCounters_point, show w.point id = s.point id from congrArg (fun x => x.points.read id) alarm]
    · exact congrArg (fun x : Monitor => { x with counters := ⟨0, 0, 0, 0⟩ }) mon
    · exact congrArg (fun x : SlotController => { x with slot := (clearBlockCounters w).slots.slot }) controller
    · exact run

end Sys2Proof.Machine
end

section
/-! SUPPORT. The tick: hub time, and the commands whose time it brings. -/

namespace Sys2Proof.Machine

/-! ### Hub time -/

/-- Hub time in units of 2^-32 ns (R79). -/
def TimeBase.units (t : TimeBase) : Nat := (t.sec * 1000000000 + t.ns) * 2 ^ 32 + t.frac

/-- Dividing by one number and the quotient by another splits a remainder into digits. -/
theorem mod_digits (a b n : Nat) : n % (a * b) = n / b % a * b + n % b := by
  rw [Nat.mul_comm a b, Nat.mod_mul, Nat.add_comm, Nat.mul_comm]

/-- Hub time gains the increment, modulo 2^48 s (R79). -/
theorem advance_units (t : TimeBase) :
    t.advance.units = (t.units + t.increment) % (2 ^ 48 * 1000000000 * 2 ^ 32) := by
  have whole : (t.units + t.increment) / 2 ^ 32 = t.sec * 1000000000 + (t.ns + (t.frac + t.increment) / 2 ^ 32) := by
    unfold TimeBase.units
    omega
  have part : (t.units + t.increment) % 2 ^ 32 = (t.frac + t.increment) % 2 ^ 32 := by
    unfold TimeBase.units
    omega
  rw [mod_digits, part, whole, mod_digits (2 ^ 48)]
  have advanced : t.advance.units =
      ((t.sec + (t.ns + (t.frac + t.increment) / 2 ^ 32) / 1000000000) % 2 ^ 48 * 1000000000 +
        (t.ns + (t.frac + t.increment) / 2 ^ 32) % 1000000000) * 2 ^ 32 + (t.frac + t.increment) % 2 ^ 32 := rfl
  rw [advanced, Nat.mul_add_mod_self_right, Nat.mul_comm t.sec, Nat.mul_add_div (by decide)]

/-- The instants at an offset into the cycles that lie at or before a number of ns are counted by a division. -/
theorem lt_count_iff {cycle : Nat} (positive : 0 < cycle) (offset at_ k : Nat) :
    k < (at_ + cycle - offset) / cycle ↔ k * cycle + offset ≤ at_ := by
  rw [Nat.lt_iff_add_one_le, Nat.le_div_iff_mul_le positive, Nat.succ_mul]
  omega

theorem countsOnto_iff (cycle offset before after : Nat) :
    countsOnto cycle offset before after = true ↔ ComesOnto cycle offset before after := by
  unfold countsOnto ComesOnto
  rw [decide_eq_true_iff]
  rcases Nat.eq_zero_or_pos cycle with rfl | positive
  · simp
  · constructor
    · intro more
      refine ⟨positive, _, ?_, (lt_count_iff positive offset after _).1 more⟩
      exact Nat.lt_of_not_le fun early => Nat.lt_irrefl _ ((lt_count_iff positive offset before _).2 early)
    · rintro ⟨-, k, late, reached⟩
      have upper := (lt_count_iff positive offset after k).2 reached
      have lower := mt (lt_count_iff positive offset before k).1 (Nat.not_le.2 late)
      omega

theorem reachesMultiple_iff (cycle before after : Nat) :
    reachesMultiple cycle before after = true ↔ ComesOnto cycle 0 before after := by
  rw [← countsOnto_iff]
  unfold reachesMultiple countsOnto
  rcases Nat.eq_zero_or_pos cycle with rfl | positive
  · simp
  · simp [Nat.add_div_right _ positive]

/-! ### Commands in the lists of a tick -/

theorem dueAt_iff (now : Nat) (deadline : Option Nat) : dueAt now deadline = true ↔ HasCome deadline now := by
  cases deadline <;> simp [dueAt, HasCome]

theorem mem_slotsWhere {f : Slot → Bool} {c : Slot → Instr} {i : Instr} :
    i ∈ slotsWhere f c ↔ ∃ n, f n = true ∧ i = c n := by
  unfold slotsWhere
  rw [List.mem_map]
  refine exists_congr fun n => ?_
  rw [List.mem_filter, eq_comm (a := c n)]
  exact ⟨fun ⟨⟨_, holds⟩, same⟩ => ⟨holds, same⟩,
    fun ⟨holds, same⟩ => ⟨⟨(by decide : ∀ q : Slot, q ∈ allSlots) n, holds⟩, same⟩⟩

theorem mem_commandIf {b : Bool} {c i : Instr} : i ∈ commandIf b c ↔ b = true ∧ i = c := by
  cases b <;> simp [commandIf]

theorem transmissionDue_iff (nowNs : Nat) (p : Port) : transmissionDue nowNs p = true ↔
    ∃ ends : Nat, ends ≤ nowNs ∧
      ((∃ id, p.transmission = some (.frame id ends)) ∨ ∃ k, p.transmission = some (.test k ends)) := by
  unfold transmissionDue
  split
  · next id ends running => simp [running]
  · next k ends running => simp [running]
  · next none => simp [none]

/-- A command comes from a list over every slot where it comes from the list of some slot. -/
theorem mem_flatMap_allSlots {f : Slot → List Instr} {i : Instr} : i ∈ allSlots.flatMap f ↔ ∃ n, i ∈ f n := by
  rw [List.mem_flatMap]
  exact exists_congr fun n => and_iff_right ((by decide : ∀ q : Slot, q ∈ allSlots) n)

theorem mem_flatMap_sources {f : Source → List Instr} {i : Instr} :
    i ∈ [Source.P, Source.N].flatMap f ↔ ∃ src, i ∈ f src := by
  rw [List.mem_flatMap]
  exact exists_congr fun src => and_iff_right (by cases src <;> decide)

theorem mem_flatMap_inputs {f : Fin 4 → List Instr} {i : Instr} :
    i ∈ ([0, 1, 2, 3] : List (Fin 4)).flatMap f ↔ ∃ n, i ∈ f n := by
  rw [List.mem_flatMap]
  exact exists_congr fun n => and_iff_right ((by decide : ∀ m : Fin 4, m ∈ ([0, 1, 2, 3] : List (Fin 4))) n)

theorem mem_windowEvents {b : Bank} {before after : Nat} {p : Slot} {i : Instr} :
    i ∈ windowEvents b before after p ↔
      ((∃ w ∈ b.windows.read p, ComesOnto b.cycle (w.start + w.length) before after) ∧ i = .windowEnd p) ∨
        ((∃ w ∈ b.windows.read p, ComesOnto b.cycle w.start before after) ∧ i = .windowOpen p) := by
  unfold windowEvents
  simp [mem_commandIf, countsOnto_iff, Window.finish]

theorem interval_eq (s : State) (src : Source) : interval s src = s.sourceInterval src := by
  cases src <;> rfl

theorem silent_iff (s : State) (src : Source) : silent s src = true ↔
    ((s.source src).state = .candidate ∨ (s.source src).state = .qualified) ∧
      3 * s.sourceInterval src ≤ s.now - (s.source src).silenceStart := by
  simp [silent, interval_eq]

theorem holdoffOver_iff (s : State) (src : Source) : holdoffOver s src = true ↔
    (s.source src).state = .failed ∧
      ∃ start : Nat, (s.source src).holdoffStart = some start ∧ 1250000000 ≤ s.now - start := by
  cases started : (s.source src).holdoffStart <;>
    simp [holdoffOver, started, show Config.holdoffTicks = 1250000000 from rfl]

theorem holdoverOver_iff (s : State) : holdoverOver s = true ↔ s.trk.timing = .holdover ∧
    (∀ start : Nat, s.trk.holdoverStart = some start →
      s.trk.servo.holdoverLimit ≤ (s.now - start) / 125000000) ∧
    (s.trk.holdoverStart = none → s.trk.servo.holdoverLimit ≤ s.trk.holdoverLast) := by
  cases started : s.trk.holdoverStart <;>
    simp [holdoverOver, State.holdoverTimer, started, show Config.ticksPerSecond = 125000000 from rfl]

/-- The commands that a tick brings, beside the ends of a transaction and of a conversion. -/
def timedEvents (s : State) (before after : Nat) : List Instr :=
  portEvents s ++ hubTimeEvents s before after ++ commandIf (localSecondDue s) .localSecond ++ slotTimerEvents s ++
    timingTimerEvents s

/-- The timed commands are exactly those that come due. -/
theorem mem_timedEvents {s : State} {before after : Nat} {i : Instr} :
    i ∈ timedEvents s before after ↔ s.ComesDue s.now before after i := by
  have armed : s.cal.arming.isSome = true ↔ s.cal.arming ≠ none := Option.isSome_iff_ne_none
  have second : localSecondDue s = true ↔ 125000000 ∣ s.now := by
    rw [Nat.dvd_iff_mod_eq_zero]
    exact beq_iff_eq
  unfold timedEvents portEvents hubTimeEvents slotTimerEvents timingTimerEvents
  simp only [List.mem_append, mem_slotsWhere, mem_commandIf, mem_flatMap_allSlots, mem_flatMap_sources,
    mem_flatMap_inputs, mem_windowEvents, transmissionDue_iff, dueAt_iff, reachesMultiple_iff, silent_iff,
    holdoffOver_iff, holdoverOver_iff, Bool.and_eq_true, beq_iff_eq, decide_eq_true_iff, armed, second]
  constructor
  · rintro (((((((⟨p, due, rfl⟩ | ⟨p, due, rfl⟩) | ⟨p, due, rfl⟩) | ⟨p, due, rfl⟩) | ((⟨due, rfl⟩ |
        ⟨p, ⟨due, rfl⟩ | ⟨due, rfl⟩⟩) | ⟨due, rfl⟩)) | ⟨due, rfl⟩) | ((((⟨n, due, rfl⟩ | ⟨n, due, rfl⟩) | ⟨n, due, rfl⟩) |
        ⟨n, due, rfl⟩) | ⟨n, due, rfl⟩)) | ((((⟨src, due, rfl⟩ | ⟨src, due, rfl⟩) | ⟨due, rfl⟩) | ⟨due, rfl⟩) | ⟨due, rfl⟩))
    all_goals exact due
  · intro due
    cases i with
    | transmissionEnd | trainingDeadlineExpiry | testDeadlineExpiry | holdTimerExpiry | presenceDebounced
    | latchDebounced | softStartExpiry | drainTimeout | extInputDebounced | silenceTimeout | holdoffExpiry
    | windowOpen | windowEnd =>
      simp only [reduceCtorEq, and_false, exists_false, or_false, false_or]
      exact ⟨_, due, rfl⟩
    | holdoverLimitReached | probeTick | markTick | localSecond | calendarSwap | hubSecond =>
      simp only [reduceCtorEq, and_false, exists_false, or_false, false_or, and_true]
      exact due
    | _ => exact due.elim

end Sys2Proof.Machine
end

section
/-! SUPPORT. The tick of a sideband transaction, phase by phase (R144, R145). -/

namespace Sys2Proof.Machine

/-! ### What the master puts on the line -/

theorem sendSignals_eq {n : Slot} {s : State} (selected : s.side.selector = some n) (signals : List SidebandSignal) :
    sendSignals signals s = { s with out := s.out ++ signals.map (Output.sideband n) } := by
  unfold sendSignals
  rw [selected]
  dsimp only
  unfold forEach
  induction signals generalizing s with
  | nil => simp
  | cons g rest ih =>
    rw [List.foldl_cons, ih (s := s.emit (.sideband n g)) selected]
    simp [State.emit]

/-- Between two states the transaction became another and signals went out on the line of a slot. -/
def GoesOn (n : Slot) (s t : State) (y : Transaction) (signals : List SidebandSignal) : Prop :=
  t.side = { s.side with current := some y } ∧ t.out = s.out ++ signals.map (Output.sideband n)

theorem toPhase_goesOn {n : Slot} {s : State} (selected : s.side.selector = some n) (p : SidebandPhase)
    (x : Transaction) :
    GoesOn n s (toPhase p x s) { x with phase := p, due := x.due + phaseTicks p }
      (phaseSignals ((s.side.queue.head?.map SidebandEntry.offset).getD 0) p) := by
  unfold toPhase
  rw [sendSignals_eq (n := n)]
  · exact ⟨rfl, rfl⟩
  · exact selected

/-- A data byte is over: the master acknowledges each but the last, which the stop follows (R144). -/
theorem dataByteOver_goesOn {n : Slot} {s : State} (selected : s.side.selector = some n) (x : Transaction) (b : Byte)
    {last : Bool} (ends : (x.aborting || decide ((s.side.queue.head?.map SidebandEntry.length).getD 0 ≤
      (x.bytes ++ [b]).length)) = last) :
    let p : SidebandPhase := if last then .stop else .data
    GoesOn n s (dataByteOver x b s) { x with bytes := x.bytes ++ [b], phase := p, due := x.due + phaseTicks p }
      (.acknowledge (!last) :: phaseSignals 0 p) := by
  intro p
  have sent := sendSignals_eq selected [.acknowledge (!last)]
  have whole : dataByteOver x b s =
      toPhase p { x with bytes := x.bytes ++ [b] } (sendSignals [.acknowledge (!last)] s) := by
    subst ends
    rfl
  obtain ⟨side, out⟩ := toPhase_goesOn (s := sendSignals [.acknowledge (!last)] s) (by rw [sent]; exact selected) p
    { x with bytes := x.bytes ++ [b] }
  have signals (o : Nat) : phaseSignals o p = phaseSignals 0 p := by
    unfold p
    split <;> rfl
  rw [signals, sent] at out
  rw [sent] at side
  rw [whole, sent]
  exact ⟨side, out.trans (List.append_assoc ..)⟩

/-! ### The end of a condition or byte -/

section
variable {x : Transaction} {s : State}

theorem elementOver_select (phase : x.phase = .select) : elementOver x s = if s.cardHoldsData then
      (s.drawn.updSide fun m => { m with current := some { x with stuck := true } }, [.sidebandTransactionEnd .busStuck])
    else (toPhase .start x s.drawn, []) := by
  unfold elementOver
  rw [phase]

theorem elementOver_start (phase : x.phase = .start) :
    elementOver x s = (toPhase (if x.aborting then .stop else .addressWrite) x s, []) := by
  unfold elementOver
  rw [phase]

theorem elementOver_addressWrite (phase : x.phase = .addressWrite) :
    let item : AckItem := if s.cardRefuses then .nack else .ack
    elementOver x s =
      (toPhase (afterByte .offset item x) { x with map := { x.map with addressWrite := item } } s.drawn, []) := by
  unfold elementOver
  rw [phase]

theorem elementOver_offset (phase : x.phase = .offset) :
    let item : AckItem := if s.cardRefuses then .nack else .ack
    elementOver x s = (toPhase (afterByte .restart item x) { x with map := { x.map with offset := item } } s.drawn, []) := by
  unfold elementOver
  rw [phase]

theorem elementOver_restart (phase : x.phase = .restart) :
    elementOver x s = (toPhase (if x.aborting then .stop else .addressRead) x s, []) := by
  unfold elementOver
  rw [phase]

theorem elementOver_addressRead (phase : x.phase = .addressRead) :
    let item : AckItem := if s.cardRefuses then .nack else .ack
    elementOver x s =
      (toPhase (afterByte .data item x) { x with map := { x.map with addressRead := item } } s.drawn, []) := by
  unfold elementOver
  rw [phase]

theorem elementOver_data (phase : x.phase = .data) : elementOver x s = (dataByteOver x s.cardByte s.drawn, []) := by
  unfold elementOver
  rw [phase]

theorem elementOver_stop (phase : x.phase = .stop) : elementOver x s =
    if x.aborting then (startTransaction (endTransaction s), [])
    else (s, [.sidebandTransactionEnd (endOfMap x.map x.bytes)]) := by
  unfold elementOver
  rw [phase]

/-- In an abort the condition or byte in progress is the last before the stop (R149). -/
theorem elementOver_of_aborting {n : Slot} (selected : s.side.selector = some n) (aborts : x.aborting = true)
    (begun : x.phase ≠ .select) (unstopped : x.phase ≠ .stop) :
    ∃ (y : Transaction) (signals : List SidebandSignal), GoesOn n s (elementOver x s).1 y (signals ++ [.stop]) ∧
      y.phase = .stop ∧ y.due = x.due + 1250 ∧ y.held = x.held ∧ y.aborting = true := by
  have stops (next : SidebandPhase) (item : AckItem) : afterByte next item x = .stop := by
    unfold afterByte
    rw [aborts]
    rfl
  cases phase : x.phase with
  | select => exact absurd phase begun
  | stop => exact absurd phase unstopped
  | start =>
    rw [elementOver_start phase, if_pos aborts]
    exact ⟨_, [], toPhase_goesOn selected .stop x, rfl, rfl, rfl, aborts⟩
  | addressWrite =>
    rw [elementOver_addressWrite phase, stops]
    exact ⟨_, [], toPhase_goesOn (s := s.drawn) selected .stop _, rfl, rfl, rfl, aborts⟩
  | offset =>
    rw [elementOver_offset phase, stops]
    exact ⟨_, [], toPhase_goesOn (s := s.drawn) selected .stop _, rfl, rfl, rfl, aborts⟩
  | restart =>
    rw [elementOver_restart phase, if_pos aborts]
    exact ⟨_, [], toPhase_goesOn selected .stop x, rfl, rfl, rfl, aborts⟩
  | addressRead =>
    rw [elementOver_addressRead phase, stops]
    exact ⟨_, [], toPhase_goesOn (s := s.drawn) selected .stop _, rfl, rfl, rfl, aborts⟩
  | data =>
    rw [elementOver_data phase]
    have went := dataByteOver_goesOn (s := s.drawn) (last := true) selected x s.cardByte (by rw [aborts]; rfl)
    exact ⟨_, [.acknowledge false], went, rfl, rfl, rfl, aborts⟩

/-- An addressed byte is over: the next phase where the card acknowledged it, and otherwise the stop (R144, R145). -/
theorem afterByte_goesOn {n : Slot} (selected : s.side.selector = some n) (goes : x.aborting = false)
    (next : SidebandPhase) (map : AckMap) :
    let went := toPhase (afterByte next (if s.cardRefuses then .nack else .ack) x) { x with map := map } s.drawn
    if s.cardRefuses then GoesOn n s went { x with map := map, phase := .stop, due := x.due + 1250 } [.stop]
    else GoesOn n s went { x with map := map, phase := next, due := x.due + phaseTicks next }
      (phaseSignals ((s.side.queue.head?.map SidebandEntry.offset).getD 0) next) := by
  have after : afterByte next (if s.cardRefuses then .nack else .ack) x = if s.cardRefuses then .stop else next := by
    unfold afterByte
    rw [goes]
    cases s.cardRefuses <;> rfl
  rw [after]
  split
  · exact toPhase_goesOn (s := s.drawn) selected .stop { x with map := map }
  · exact toPhase_goesOn (s := s.drawn) selected next { x with map := map }
end

/-! ### The tick of a transaction -/

section
variable {x : Transaction} {s : State} (running : s.side.current = some x)
include running

theorem tickSideband_of_held (held : s.cardHoldsClock = true) :
    let y := { x with held := some (x.held.getD s.now), due := x.due + 1 }
    tickSideband s = (s.drawn.updSide fun m => { m with current := some y },
      if y.holdOver s.now then [.holdTimeout x.phase] else []) := by
  unfold tickSideband
  rw [running]
  exact if_pos held

/-- The transaction as its clock wire is free, with the free value of the look at it drawn. -/
theorem tickSideband_of_free (free : s.cardHoldsClock = false) :
    let y := { x with held := none }
    let u := s.drawn.updSide fun m => { m with current := some y }
    tickSideband s = if x.due ≤ s.now then elementOver y u else (u, []) := by
  unfold tickSideband
  rw [running]
  exact if_neg (by rw [free]; decide)
end

/-- A tick of the sideband brings an end of the transaction or a HOLD_TIMEOUT, and nothing else. -/
theorem tickSideband_brings {s : State} {i : Instr} (brought : i ∈ (tickSideband s).2) :
    s.side.current ≠ none ∧ ((∃ e, i = .sidebandTransactionEnd e) ∨ ∃ p, i = .holdTimeout p) := by
  have ends (x : Transaction) (u : State) (h : i ∈ (elementOver x u).2) : ∃ e, i = .sidebandTransactionEnd e := by
    cases phase : x.phase with
    | select =>
      rw [elementOver_select phase] at h
      split at h
      · exact ⟨_, List.mem_singleton.1 h⟩
      · exact absurd h List.not_mem_nil
    | stop =>
      rw [elementOver_stop phase] at h
      split at h
      · exact absurd h List.not_mem_nil
      · exact ⟨_, List.mem_singleton.1 h⟩
    | start =>
      rw [elementOver_start phase] at h
      exact absurd h List.not_mem_nil
    | addressWrite =>
      rw [elementOver_addressWrite phase] at h
      exact absurd h List.not_mem_nil
    | offset =>
      rw [elementOver_offset phase] at h
      exact absurd h List.not_mem_nil
    | restart =>
      rw [elementOver_restart phase] at h
      exact absurd h List.not_mem_nil
    | addressRead =>
      rw [elementOver_addressRead phase] at h
      exact absurd h List.not_mem_nil
    | data =>
      rw [elementOver_data phase] at h
      exact absurd h List.not_mem_nil
  cases running : s.side.current with
  | none =>
    unfold tickSideband at brought
    rw [running] at brought
    exact absurd brought List.not_mem_nil
  | some x =>
    refine ⟨nofun, ?_⟩
    cases held : s.cardHoldsClock with
    | true =>
      rw [tickSideband_of_held running held] at brought
      split at brought
      · exact .inr ⟨_, List.mem_singleton.1 brought⟩
      · exact absurd brought List.not_mem_nil
    | false =>
      rw [tickSideband_of_free running held] at brought
      split at brought
      · exact .inl (ends _ _ brought)
      · exact absurd brought List.not_mem_nil

end Sys2Proof.Machine
end

section
/-! The step of an idle hub: the reserve grant, the request, the tick. -/

namespace Sys2Proof.Machine

/-- The state as its clocks have gone on by one period of the oscillator. -/
def State.clocked (s : State) : State := { s.begin with time := s.time.advance }

/-- The tick leaves what the sideband made of its part of it. -/
theorem tick_side (s : State) :
    s.tick.side = (tickSideband s.clocked).1.side ∧ s.tick.out = (tickSideband s.clocked).1.out := by
  have monitor := tickMonitor_changes (tickSideband s.clocked).1
  exact ⟨monitor.same .side rfl, monitor.same .out rfl⟩

/-- The conversion is due at the tick (R157). -/
theorem conversionDue_iff (m : Monitor) (now : Nat) : m.conversionDue now = true ↔
    m.state = .scanning ∧ ∃ e : Nat, m.conversionEnd = some e ∧ e ≤ now := by
  cases ends : m.conversionEnd <;> simp [Monitor.conversionDue, ends]

/-- What the tick brings for the monitor. -/
theorem mem_tickMonitor {s : State} {i : Instr} : i ∈ (tickMonitor s).2 ↔
    s.mon.conversionDue s.now = true ∧ i = .conversionComplete (Config.analogResult s.free) := by
  unfold tickMonitor
  split
  · next due => simp [due]
  · next early => simp [early]

/-- The commands of a tick: those that come due, those of the transaction, and the end of a conversion. -/
theorem mem_tick {s : State} {i : Instr} : i ∈ s.tick.pending ↔
    (s.ComesDue (s.time.localTicks + 1) (s.time.sec * 1000000000 + s.time.ns)
        (s.time.sec * 1000000000 + s.time.ns + (s.time.frac + s.time.increment) / 2 ^ 32) i ∨
      i ∈ (tickSideband s.clocked).2) ∨
    (s.mon.state = .scanning ∧ ∃ e : Nat, s.mon.conversionEnd = some e ∧ e ≤ s.time.localTicks + 1) ∧
      i = .conversionComplete (Config.analogResult (tickSideband s.clocked).1.free) := by
  have side := tickSideband_changes s.clocked
  have mon : (tickSideband s.clocked).1.mon = s.mon := side.same .mon rfl
  have now : (tickSideband s.clocked).1.now = s.time.localTicks + 1 := congrArg TimeBase.localTicks (side.same .time rfl)
  have parts : s.tick.pending = timedEvents s.clocked (s.time.sec * 1000000000 + s.time.ns)
      (s.time.sec * 1000000000 + s.time.ns + (s.time.frac + s.time.increment) / 2 ^ 32) ++
        (tickSideband s.clocked).2 ++ (tickMonitor (tickSideband s.clocked).1).2 := rfl
  rw [parts, List.mem_append, List.mem_append, mem_timedEvents, mem_tickMonitor, mon, now, conversionDue_iff]
  exact Iff.rfl

/-- Without a transaction the sideband lets the tick pass. -/
theorem tickSideband_of_none {s : State} (idle : s.side.current = none) : tickSideband s = (s, []) := by
  unfold tickSideband
  rw [idle]

/-- A tick without a transaction and a conversion due changes the clocks and the queue of commands alone. -/
theorem tick_changes_of_idle {s : State} (idle : s.side.current = none)
    (early : ¬ (s.mon.state = .scanning ∧ ∃ e : Nat, s.mon.conversionEnd = some e ∧ e ≤ s.time.localTicks + 1)) :
    OnlyChanges [.time, .pending, .out] s s.tick := by
  have side : tickSideband s.clocked = (s.clocked, []) := tickSideband_of_none idle
  have mon : tickMonitor s.clocked = (s.clocked, []) := by
    refine if_neg fun due => early ?_
    exact (conversionDue_iff _ _).1 due
  have whole : s.tick = { s.clocked with pending := s.tick.pending } := by
    have same : s.tick = { (tickMonitor (tickSideband s.clocked).1).1 with pending := s.tick.pending } := rfl
    rw [side, mon] at same
    exact same
  rw [whole]
  intro part
  cases part <;> first | exact .inl (by decide) | exact .inr rfl

/-! ### The tick of a transaction -/

section
variable {s : State} {n : Slot}

theorem cardSeated_eq {t : State} (selected : t.side.selector = some n) :
    t.cardSeated = (t.slot n).lines.rawPresent := by
  unfold State.cardSeated
  rw [selected]
  rfl

/-- The state in which a condition or byte of a transaction ends: no hold is in progress, and the free value of the look
at the clock wire is drawn. -/
def State.unheld (s : State) (x : Transaction) : State :=
  s.clocked.drawn.updSide fun m => { m with current := some { x with held := none } }

/-- A tick that ends a condition or byte is the end of that element. -/
theorem tickSideband_late {x : Transaction} (running : s.side.current = some x)
    (free : s.clocked.cardHoldsClock = false) (late : x.due ≤ s.time.localTicks + 1) :
    tickSideband s.clocked = elementOver { x with held := none } (s.unheld x) :=
  (tickSideband_of_free (s := s.clocked) running free).trans (if_pos late)

/-- What the end of an element does, the tick does. -/
theorem tick_goesOn {x y : Transaction} {signals : List SidebandSignal} (running : s.side.current = some x)
    (free : s.clocked.cardHoldsClock = false) (late : x.due ≤ s.time.localTicks + 1)
    (went : GoesOn n (s.unheld x) (elementOver { x with held := none } (s.unheld x)).1 y signals) :
    s.tick.side = { s.side with current := some y } ∧ s.tick.out = signals.map (Output.sideband n) := by
  obtain ⟨side, out⟩ := tick_side s
  rw [side, out, tickSideband_late running free late]
  exact went

/-- The tick of a transaction in an abort, whose condition or byte is over (R149). -/
theorem tick_of_aborting {x : Transaction} (running : s.side.current = some x) (aborts : x.aborting = true)
    (selected : s.side.selector = some n) (begun : x.phase ≠ .select) (late : x.due ≤ s.time.localTicks + 1) :
    ((s.slot n).lines.rawPresent = true ∧ Config.cardHoldsClock s.free = true) ∨
      (x.phase ≠ .stop → ∃ y : Transaction, s.tick.side = { s.side with current := some y } ∧ y.phase = .stop ∧
        y.due = x.due + 1250 ∧ y.held = none ∧ y.aborting = true ∧ Output.sideband n .stop ∈ s.tick.out) ∧
      (x.phase = .stop → s.tick.out = [] ∧ s.tick.side = { s.side with
        current := s.side.queue.head?.map fun _ => .starting (s.time.localTicks + 1)
        selector := s.side.queue.head?.map SidebandEntry.slot }) := by
  have seated : s.clocked.cardSeated = (s.slot n).lines.rawPresent := cardSeated_eq (t := s.clocked) selected
  cases holds : s.clocked.cardHoldsClock with
  | true =>
    unfold State.cardHoldsClock at holds
    rw [seated, Bool.and_eq_true] at holds
    exact .inl holds
  | false =>
    refine .inr ⟨fun unstopped => ?_, fun stop => ?_⟩
    · obtain ⟨y, signals, went, phase, due, held, aborting⟩ :=
        elementOver_of_aborting (x := { x with held := none }) (s := s.unheld x) selected aborts begun unstopped
      obtain ⟨side, out⟩ := tick_goesOn running holds late went
      refine ⟨y, side, phase, due, held, aborting, ?_⟩
      rw [out]
      simp
    · obtain ⟨side, out⟩ := tick_side s
      have finished := tickSideband_late running holds late
      rw [elementOver_stop (x := { x with held := none }) stop, if_pos aborts,
        startTransaction_of_idle (s := endTransaction (s.unheld x)) rfl rfl] at finished
      rw [side, out, finished]
      exact ⟨rfl, rfl⟩

/-! ### The tick of a transaction that goes on -/

/-- What the tick makes of the transaction and of its line: the phase it goes to and how long that takes. -/
def State.GoesTo (s : State) (n : Slot) (x : Transaction) (p : SidebandPhase) (ticks : Nat) (map : AckMap)
    (bytes : List Byte) (signals : List SidebandSignal) : Prop :=
  s.tick.side = { s.side with current := some ⟨p, bytes, map, x.due + ticks, none, false, x.stuck⟩ } ∧
    s.tick.out = signals.map (Output.sideband n)

/-- A hold that has lasted 10 ms is over (R145). -/
theorem holdOver_iff {x : Transaction} {since : Nat} (held : x.held = some since) (now : Nat) :
    x.holdOver now = true ↔ since + 1250000 ≤ now := by
  have ticks : Config.clockHoldTicks = 1250000 := rfl
  unfold Transaction.holdOver
  rw [held, Option.any_some, decide_eq_true_iff, ticks]

section
variable {x : Transaction} (running : s.side.current = some x)

include running in
/-- While the card holds the clock the transaction waits, and HOLD_TIMEOUT comes as the hold has lasted (R145). -/
theorem tick_of_held (held : s.clocked.cardHoldsClock = true) :
    let now := s.time.localTicks + 1
    s.tick.side = { s.side with current := some { x with held := some (x.held.getD now), due := x.due + 1 } } ∧
      s.tick.out = [] ∧ (.holdTimeout x.phase ∈ s.tick.pending ↔ x.held.getD now + 1250000 ≤ now) := by
  intro now
  obtain ⟨side, out⟩ := tick_side s
  have waits := tickSideband_of_held (s := s.clocked) running held
  dsimp only at waits
  rw [side, out, mem_tick, waits]
  refine ⟨rfl, rfl, ?_⟩
  have finished : ({ x with held := some (x.held.getD s.clocked.now), due := x.due + 1 } : Transaction).holdOver
      s.clocked.now = true ↔ x.held.getD now + 1250000 ≤ now := holdOver_iff rfl now
  rw [← finished]
  constructor
  · rintro ((comes | brought) | ⟨-, no⟩)
    · exact comes.elim
    · split at brought
      · next h => exact h
      · exact absurd brought List.not_mem_nil
    · cases no
  · intro h
    exact .inl (.inr (by rw [if_pos h]; exact List.mem_singleton_self _))

variable (free : s.clocked.cardHoldsClock = false)
include running free

/-- Before the end of its condition or byte a transaction waits. -/
theorem tick_of_early (early : s.time.localTicks + 1 < x.due) :
    s.tick.side = { s.side with current := some { x with held := none } } ∧ s.tick.out = [] := by
  obtain ⟨side, out⟩ := tick_side s
  have waits := (tickSideband_of_free (s := s.clocked) running free).trans (if_neg (Nat.not_le.2 early))
  rw [side, out, waits]
  exact ⟨rfl, rfl⟩

variable (selected : s.side.selector = some n) (goes : x.aborting = false) (late : x.due ≤ s.time.localTicks + 1)
include selected goes late

omit selected in
/-- The end of an element takes a transaction that is not being aborted to a phase. -/
theorem tick_goesTo {p : SidebandPhase} {ticks : Nat} {map : AckMap} {bytes : List Byte} {signals : List SidebandSignal}
    (went : GoesOn n (s.unheld x) (elementOver { x with held := none } (s.unheld x)).1
      { x with phase := p, bytes := bytes, map := map, due := x.due + ticks, held := none } signals) :
    s.GoesTo n x p ticks map bytes signals := by
  obtain ⟨side, out⟩ := tick_goesOn running free late went
  rw [goes] at side
  exact ⟨side, out⟩

/-- SELECT ends: the data wire is stuck, or the start follows (R144, R145). -/
theorem tick_select (phase : x.phase = .select) :
    if (s.slot n).lines.rawPresent && Config.cardHoldsData (s.free + 1) then
      s.tick.side = { s.side with current := some { x with held := none, stuck := true } } ∧ s.tick.out = [] ∧
        .sidebandTransactionEnd .busStuck ∈ s.tick.pending
    else s.GoesTo n x .start 1250 x.map x.bytes [.start] := by
  have data : (s.unheld x).cardHoldsData = ((s.slot n).lines.rawPresent && Config.cardHoldsData (s.free + 1)) :=
    congrArg (· && Config.cardHoldsData (s.free + 1)) (cardSeated_eq (t := s.unheld x) selected)
  have ended := elementOver_select (x := { x with held := none }) (s := s.unheld x) phase
  rw [data] at ended
  split
  · next low =>
    obtain ⟨side, out⟩ := tick_side s
    rw [if_pos low] at ended
    rw [side, out, mem_tick, tickSideband_late running free late, ended]
    exact ⟨rfl, rfl, .inl (.inr (List.mem_singleton_self _))⟩
  · next high =>
    rw [if_neg high] at ended
    refine tick_goesTo running free goes late ?_
    rw [ended]
    exact toPhase_goesOn (s := (s.unheld x).drawn) selected .start _

/-- The start and the restart are followed by the byte of the memory address (R144). -/
theorem tick_start (phase : x.phase = .start) :
    s.GoesTo n x .addressWrite 11250 x.map x.bytes [.bits (wireBits 108)] := by
  refine tick_goesTo running free goes late ?_
  rw [elementOver_start (x := { x with held := none }) phase, if_neg (by simp [goes])]
  exact toPhase_goesOn (s := s.unheld x) selected .addressWrite _

theorem tick_restart (phase : x.phase = .restart) :
    s.GoesTo n x .addressRead 11250 x.map x.bytes [.bits (wireBits 109)] := by
  refine tick_goesTo running free goes late ?_
  rw [elementOver_restart (x := { x with held := none }) phase, if_neg (by simp [goes])]
  exact toPhase_goesOn (s := s.unheld x) selected .addressRead _

/-- An addressed byte is over: the stop where the card refuses it, and otherwise the next phase (R144, R145). -/
theorem tick_byte (next : SidebandPhase) (map : AckItem → AckMap)
    (finished : let item : AckItem := if (s.unheld x).cardRefuses then .nack else .ack
      elementOver { x with held := none } (s.unheld x) = (toPhase (afterByte next item { x with held := none })
        { x with held := none, map := map item } (s.unheld x).drawn, [])) :
    let refused := !(s.slot n).lines.rawPresent || Config.cardRefusesByte (s.free + 1)
    let item : AckItem := if refused then .nack else .ack
    if refused then s.GoesTo n x .stop 1250 (map item) x.bytes [.stop]
    else s.GoesTo n x next (phaseTicks next) (map item) x.bytes
      (phaseSignals ((s.side.queue.head?.map SidebandEntry.offset).getD 0) next) := by
  intro refused item
  have refuses : (s.unheld x).cardRefuses = refused :=
    congrArg (fun b => !b || Config.cardRefusesByte (s.free + 1)) (cardSeated_eq (t := s.unheld x) selected)
  have went := afterByte_goesOn (x := { x with held := none }) (s := s.unheld x) selected goes next (map item)
  have ended : elementOver { x with held := none } (s.unheld x) = (toPhase (afterByte next item { x with held := none })
      { x with held := none, map := map item } (s.unheld x).drawn, []) := by
    have whole := finished
    rw [refuses] at whole
    exact whole
  rw [refuses] at went
  split
  · next refused' =>
    refine tick_goesTo running free goes late ?_
    rw [ended]
    exact (if_pos refused').mp went
  · next taken =>
    refine tick_goesTo running free goes late ?_
    rw [ended]
    exact (if_neg taken).mp went

/-- A data byte is over: it is kept and acknowledged, but for the last one (R144). -/
theorem tick_data {e : SidebandEntry} {rest : List SidebandEntry} (queue : s.side.queue = e :: rest)
    (phase : x.phase = .data) :
    let bytes := x.bytes ++ [if (s.slot n).lines.rawPresent then Config.freeByte (s.free + 1) else 255]
    (bytes.length < e.length → s.GoesTo n x .data 11250 x.map bytes [.acknowledge true]) ∧
      (e.length ≤ bytes.length → s.GoesTo n x .stop 1250 x.map bytes [.acknowledge false, .stop]) := by
  intro bytes
  have read : x.bytes ++ [(s.unheld x).cardByte] = bytes :=
    congrArg (fun b : Bool => x.bytes ++ [if b then Config.freeByte (s.free + 1) else 255])
      (cardSeated_eq (t := s.unheld x) selected)
  have last (b : Bool) (h : decide (e.length ≤ bytes.length) = b) :
      (x.aborting || decide (((s.unheld x).side.queue.head?.map SidebandEntry.length).getD 0 ≤
        (x.bytes ++ [(s.unheld x).cardByte]).length)) = b := by
    rw [goes, read, show (s.unheld x).side.queue = e :: rest from queue]
    exact h
  have went (b : Bool) (h : decide (e.length ≤ bytes.length) = b) :=
    dataByteOver_goesOn (s := (s.unheld x).drawn) selected { x with held := none } (s.unheld x).cardByte (last b h)
  dsimp only at went
  rw [read] at went
  refine ⟨fun more => ?_, fun whole => ?_⟩
  · refine tick_goesTo running free goes late ?_
    rw [elementOver_data (x := { x with held := none }) phase]
    exact went false (decide_eq_false (Nat.not_le.2 more))
  · refine tick_goesTo running free goes late ?_
    rw [elementOver_data (x := { x with held := none }) phase]
    exact went true (decide_eq_true whole)

omit selected in
/-- The stop is over: the transaction has ended as its acknowledge map shows (R144, R145). -/
theorem tick_stop (phase : x.phase = .stop) :
    (s.tick.side = { s.side with current := some { x with held := none } } ∧ s.tick.out = []) ∧
      .sidebandTransactionEnd (if x.map.addressWrite ≠ .ack then .addressWriteNack
        else if x.map.offset ≠ .ack then .offsetNack
        else if x.map.addressRead ≠ .ack then .addressReadNack else .done x.bytes) ∈ s.tick.pending := by
  obtain ⟨side, out⟩ := tick_side s
  have ended := tickSideband_late running free late
  rw [elementOver_stop (x := { x with held := none }) phase, if_neg (by simp [goes])] at ended
  rw [side, out, mem_tick, ended]
  refine ⟨⟨rfl, rfl⟩, .inl (.inr ?_)⟩
  simp [endOfMap]

end

end

/-! ### The step of an idle hub -/

theorem step_of_immediate {s : State} {i : Instr} (idle : s.pending = []) (next : s.immediate = some i) :
    step s = exec i s := by
  simp only [step, idle, next]

theorem step_of_tick {s : State} (idle : s.pending = []) (none : s.immediate = none) : step s = .next s.tick := by
  simp only [step, idle, none]

/-- Settles O4: the head of the reserve waiting list, the request at the head of the queue, and the tick. -/
theorem idleStepTakesWhatComesNext : Obligations.IdleStepTakesWhatComesNext := by
  intro s idle
  refine ⟨fun fits => ?_, fun blocked may r head => ?_, fun blocked rests => ?_⟩
  · have next : s.immediate = some .reserveWaitingGrant := if_pos fits
    exact step_of_immediate idle next
  · have next : s.immediate = some (decodeRequest s.freeByte r.payload) := by
      unfold State.immediate
      rw [blocked, may, head]
      rfl
    exact step_of_immediate idle next
  have none : s.immediate = none := by
    unfold State.immediate
    rcases rests with later | empty
    · simp [blocked, later]
    · simp [blocked, empty]
  have steps := step_of_tick idle none
  intro total now due
  obtain ⟨side, out⟩ := tick_side s
  have time : s.tick.time = s.time.advance :=
    Eq.trans ((tickMonitor_changes (tickSideband s.clocked).1).same .time rfl)
      ((tickSideband_changes s.clocked).same .time rfl)
  refine ⟨s.tick, steps, ?_, ?_, ?_, ?_, ?_, ?_, ?_, ?_, fun none => ?_, fun none early => ?_, ?_, ?_, ?_⟩
  · rw [time]
    rfl
  · show s.tick.time.units = _
    rw [time]
    exact advance_units s.time
  · rw [time]
    exact Nat.mod_lt _ (by decide)
  · rw [time]
    exact Nat.mod_lt _ (by decide)
  · rw [time]
    rfl
  · rw [time]
    rfl
  · intro before after i noEnd noHold noResult
    rw [mem_tick]
    constructor
    · rintro ((comes | ended) | ⟨-, rfl⟩)
      · exact comes
      · rcases tickSideband_brings ended with ⟨-, ⟨e, rfl⟩ | ⟨p, rfl⟩⟩
        · exact absurd rfl (noEnd e)
        · exact absurd rfl (noHold p)
      · exact absurd rfl (noResult _)
    · exact fun comes => .inl (.inl comes)
  · constructor
    · rintro ⟨r, brought⟩
      rcases mem_tick.1 brought with (comes | ended) | ⟨ends, -⟩
      · exact comes.elim
      · obtain ⟨-, ⟨e, no⟩ | ⟨p, no⟩⟩ := tickSideband_brings ended
        · cases no
        · cases no
      · exact ends
    · exact fun ends => ⟨_, mem_tick.2 (.inr ⟨ends, rfl⟩)⟩
  · have silent (i : Instr) (apart : ∀ r, i ≠ .conversionComplete r)
        (untimed : ¬ s.ComesDue now (s.time.sec * 1000000000 + s.time.ns)
          (s.time.sec * 1000000000 + s.time.ns + (s.time.frac + s.time.increment) / 2 ^ 32) i) : i ∉ s.tick.pending := by
      rw [mem_tick]
      rintro ((comes | ended) | ⟨-, same⟩)
      · exact untimed comes
      · exact (tickSideband_brings ended).1 none
      · exact apart _ same
    exact ⟨fun e => silent _ nofun id, fun p => silent _ nofun id⟩
  · exact tick_changes_of_idle none early
  · exact (State.tick_changes s).weaken rfl
  · intro x n e rest running goes selected queue stays goesTo seated refused item answered bytes
    have holds : s.clocked.cardHoldsClock = (seated && Config.cardHoldsClock s.free) :=
      congrArg (· && Config.cardHoldsClock s.free) (cardSeated_eq (t := s.clocked) selected)
    have offset : (s.side.queue.head?.map SidebandEntry.offset).getD 0 = e.offset := by
      rw [queue]
      rfl
    split
    · next held => exact tick_of_held running (holds.trans held)
    · next released =>
      have free : s.clocked.cardHoldsClock = false := holds.trans (Bool.eq_false_iff.2 released)
      refine ⟨fun early => tick_of_early running free early, fun late => ⟨?_, ?_, ?_, ?_, ?_, ?_, ?_, ?_, ?_⟩⟩
      · exact fun phase => tick_select running free selected goes late phase
      · exact fun phase => tick_start running free selected goes late phase
      · intro phase
        have went := tick_byte running free selected goes late .offset (fun i => { x.map with addressWrite := i })
          (elementOver_addressWrite phase)
        rw [offset] at went
        exact went
      · intro phase
        exact tick_byte running free selected goes late .restart (fun i => { x.map with offset := i })
          (elementOver_offset phase)
      · exact fun phase => tick_restart running free selected goes late phase
      · intro phase
        exact tick_byte running free selected goes late .data (fun i => { x.map with addressRead := i })
          (elementOver_addressRead phase)
      · exact fun phase => (tick_data running free selected goes late queue phase).1
      · exact fun phase => (tick_data running free selected goes late queue phase).2
      · exact fun phase => tick_stop running free goes late phase
  · exact fun x n running aborts selected begun late => tick_of_aborting running aborts selected begun late

end Sys2Proof.Machine
end

section
/-! SUPPORT. The flows between two states: the invariant of flows from each flow and the set formed anew for it, and the
operations beside which the flows stand. -/

namespace Sys2Proof.Machine

/-! ### The invariant, flow by flow -/

/-- A flow meets what the hub's state asks of it: it is FREE exactly while it has no fields, its suspension set is the one
that would be formed anew, and its state is settled by that set (R22). -/
def Flow.Meets (f : Flow) (fresh : FlowRecord → Suspension) : Prop :=
  (f.fields = none ↔ f.state = .free) ∧ (∀ r, f.fields = some r → f.suspension = fresh r) ∧ f.settle = f

/-- The conditions of the table of 2.2, reason by reason, are the set formed anew from the present state (R36). -/
theorem freshSuspension_iff (s : State) (r : FlowRecord) (x : Suspension) : x = freshSuspension s r ↔
    (x.sourceDown = true ↔ (s.slot r.source).state ≠ .active) ∧
      (x.destDown = true ↔ ∃ n : Slot, r.dest = .slot n ∧ (s.slot n).state ≠ .active) ∧
      (x.timing = true ↔ r.needsLock = true ∧ s.trk.timing = .freerun) ∧
      (x.fit = true ↔ r.cls = .sample ∧ fits s s.cal.active r = false) := by
  obtain ⟨sourceDown, destDown, timing, fit⟩ := x
  unfold freshSuspension State.isActive
  rw [Suspension.mk.injEq]
  refine and_congr ?_ (and_congr ?_ (and_congr ?_ ?_))
  · rw [Bool.eq_iff_iff]
    simp
  · rw [Bool.eq_iff_iff]
    cases r.dest <;> simp
  · rw [Bool.eq_iff_iff]
    simp
  · rw [Bool.eq_iff_iff]
    simp

/-- An enabled flow is settled exactly when it is LIVE with an empty set and SUSPENDED otherwise (R22). -/
theorem Flow.settle_eq_self_iff (f : Flow) :
    f.settle = f ↔ (f.enabled = true → (f.state = .live ↔ f.suspension.isEmpty = true)) := by
  obtain ⟨state, fields, suspension, forwarded, dropped⟩ := f
  unfold Flow.settle Flow.enabled
  cases state <;> cases suspension.isEmpty <;> simp

theorem flowInv_iff (s : State) : s.FlowInv ↔ ∀ i, (s.flow i).Meets (freshSuspension s) :=
  forall_congr' fun _ => and_congr_right' <| and_congr
    (forall_congr' fun r => imp_congr_right fun _ => (freshSuspension_iff s r _).symm)
    (Flow.settle_eq_self_iff _).symm

/-! ### The flows stand -/

/-- Between two states the flows stood, their counters apart, and with them what their suspension sets are formed from. -/
structure FlowsStand (s t : State) : Prop where
  flow : ∀ i, t.flow i = { s.flow i with forwarded := (t.flow i).forwarded, dropped := (t.flow i).dropped }
  fresh : ∀ r, freshSuspension t r = freshSuspension s r

section
variable {s t u : State}

theorem FlowsStand.refl (s : State) : FlowsStand s s := ⟨fun _ => rfl, fun _ => rfl⟩

theorem FlowsStand.trans (h : FlowsStand s t) (k : FlowsStand t u) : FlowsStand s u where
  flow i := by rw [k.flow, h.flow]
  fresh r := (k.fresh r).trans (h.fresh r)

theorem FlowsStand.flowInv (h : FlowsStand s t) (inv : s.FlowInv) : t.FlowInv := by
  rw [flowInv_iff] at inv ⊢
  intro i
  obtain ⟨written, set, settled⟩ := inv i
  rw [h.flow]
  refine ⟨written, fun r hr => (set r hr).trans (h.fresh r).symm, ?_⟩
  rw [Flow.settle_eq_self_iff] at settled ⊢
  exact settled

theorem FlowsStand.forEach {α : Type} {f : α → State → State} (h : ∀ a v, FlowsStand v (f a v)) (xs : List α)
    (v : State) : FlowsStand v (forEach xs f v) := by
  unfold Sys2Proof.Machine.forEach
  induction xs generalizing v with
  | nil => exact .refl v
  | cons x xs ih => exact (h x v).trans (ih _)

theorem FlowsStand.forSlots {f : Slot → State → State} (h : ∀ n v, FlowsStand v (f n v)) (v : State) :
    FlowsStand v (forSlots f v) := .forEach h allSlots v

/-- The set formed anew rests on which slots are ACTIVE, the reported widths, the groups, the windows of the active bank
and the timing state (the table of 2.2, R77). -/
theorem freshSuspension_congr (active : ∀ n, t.isActive n = s.isActive n)
    (width : ∀ p, (t.port p).reportedWidth = (s.port p).reportedWidth) (groups : t.fwd.groups = s.fwd.groups)
    (windows : t.cal.active.windows = s.cal.active.windows) (timing : t.trk.timing = s.trk.timing) (r : FlowRecord) :
    freshSuspension t r = freshSuspension s r := by
  have fit (p : Slot) : fitsPort t t.cal.active r.maxFrame p = fitsPort s s.cal.active r.maxFrame p := by
    unfold fitsPort
    rw [width, windows]
  have ports : t.destPorts r = s.destPorts r := by
    unfold State.destPorts State.groupMembers
    simp only [active, groups]
  unfold freshSuspension fits misfit
  simp only [active, timing, fit, ports]

/-- A change of parts that neither the flows nor their suspension sets read, but for the ports, whose widths stood. -/
theorem FlowsStand.of_widths {ps : List Part} (only : OnlyChanges ps s t)
    (apart : ([.fwd, .cal, .trk, .slots].all fun p : Part => !ps.contains p) = true)
    (width : ∀ p, (t.port p).reportedWidth = (s.port p).reportedWidth) : FlowsStand s t := by
  have same (p : Part) (hp : p ∈ [Part.fwd, .cal, .trk, .slots]) : p.Same s t :=
    only.same p (by simpa using List.all_eq_true.1 apart p hp)
  have fwd : t.fwd = s.fwd := same .fwd (by decide)
  have cal : t.cal = s.cal := same .cal (by decide)
  have trk : t.trk = s.trk := same .trk (by decide)
  have slots : t.slots = s.slots := same .slots (by decide)
  refine ⟨fun i => ?_, freshSuspension_congr (fun n => ?_) width (by rw [fwd]) (by rw [cal]) (by rw [trk])⟩
  · unfold State.flow
    rw [fwd]
  · unfold State.isActive State.slot
    rw [slots]

/-- A change of parts that neither the flows nor their suspension sets read. -/
theorem FlowsStand.of_changes {ps : List Part} (only : OnlyChanges ps s t)
    (apart : ([.ports, .fwd, .cal, .trk, .slots].all fun p : Part => !ps.contains p) = true) : FlowsStand s t := by
  have ports : t.ports = s.ports := only.same .ports (by simpa using List.all_eq_true.1 apart .ports (by decide))
  refine .of_widths only (List.all_eq_true.2 fun p hp => List.all_eq_true.1 apart p (.tail _ hp)) fun p => ?_
  unfold State.port
  rw [ports]

/-- Where every slot and port stood aside, the widths stood. -/
theorem FlowsStand.of_aside {mv : Bool} {ps : List Part} (aside : ∀ n, Aside mv n s t) (only : OnlyChanges ps s t)
    (apart : ([.fwd, .cal, .trk, .slots].all fun p : Part => !ps.contains p) = true) : FlowsStand s t :=
  .of_widths only apart fun p => by rw [(aside p).port]

theorem FlowsStand.updPort {f : Port → Port} (p : Slot) (s : State)
    (width : ∀ q, (f q).reportedWidth = q.reportedWidth) : FlowsStand s (s.updPort p f) := by
  refine .of_widths (updPort_changes p f s) rfl fun q => ?_
  by_cases h : q = p
  · subst h
    rw [State.port_updPort_same, width]
  · rw [State.port_updPort_ne _ _ _ h]

theorem FlowsStand.updSlot {f : SlotRecord → SlotRecord} (n : Slot) (s : State)
    (active : (f (s.slot n)).state = (s.slot n).state) : FlowsStand s (s.updSlot n f) := by
  refine ⟨fun i => rfl, freshSuspension_congr (fun m => ?_) (fun _ => rfl) rfl rfl rfl⟩
  unfold State.isActive
  by_cases h : m = n
  · subst h
    rw [State.slot_updSlot_same, active]
  · rw [State.slot_updSlot_ne _ _ _ h]

/-- A change of the slot controller's own items. -/
theorem FlowsStand.with_slots {x : SlotController} (same : x.slot = s.slots.slot) :
    FlowsStand s { s with slots := x } := by
  refine ⟨fun i => rfl, freshSuspension_congr (fun n => ?_) (fun _ => rfl) rfl rfl rfl⟩
  unfold State.isActive State.slot
  rw [same]

theorem FlowsStand.updTrk {f : Tracker → Tracker} (s : State) (timing : (f s.trk).timing = s.trk.timing) :
    FlowsStand s (s.updTrk f) := ⟨fun _ => rfl, freshSuspension_congr (fun _ => rfl) (fun _ => rfl) rfl rfl timing⟩

theorem FlowsStand.updSource (src : Source) (f : SourceRecord → SourceRecord) (s : State) :
    FlowsStand s (s.updSource src f) := by
  cases src <;> exact ⟨fun _ => rfl, freshSuspension_congr (fun _ => rfl) (fun _ => rfl) rfl rfl rfl⟩

/-- A change of the calendar that leaves the windows of the active bank. -/
theorem FlowsStand.updCal {f : Calendar → Calendar} (s : State)
    (windows : (f s.cal).active.windows = s.cal.active.windows) : FlowsStand s (s.updCal f) :=
  ⟨fun _ => rfl, freshSuspension_congr (fun _ => rfl) (fun _ => rfl) rfl windows rfl⟩

theorem FlowsStand.updDrops (n : Slot) (f : DropCounters → DropCounters) (s : State) : FlowsStand s (s.updDrops n f) :=
  ⟨fun _ => rfl, freshSuspension_congr (fun _ => rfl) (fun _ => rfl) rfl rfl rfl⟩

/-- A flow counts a frame. -/
theorem FlowsStand.updFlow_counted {f : Flow → Flow}
    (i : Fin 255) (s : State)
    (counted : ∀ x, f x = { x with forwarded := (f x).forwarded, dropped := (f x).dropped }) :
    FlowsStand s (s.updFlow i f) := by
  refine ⟨fun j => ?_, freshSuspension_congr (fun _ => rfl) (fun _ => rfl) rfl rfl rfl⟩
  by_cases h : j = i
  · subst h
    rw [State.flow_updFlow_same]
    exact counted _
  · rw [State.flow_updFlow_ne _ _ _ h]

end

end Sys2Proof.Machine
end

section
/-! SUPPORT. The operations beside which the flows stand. -/

namespace Sys2Proof.Machine

/-! ### The queue manager, the arbiter and the agent -/

section
variable (s : State)

theorem setPaused_flowsStand (n : Slot) (b : Bool) : FlowsStand s (setPaused n b s) :=
  .of_aside (fun m => (setPaused_calm m n b s).toAside) (setPaused_changes n b s) rfl

theorem reexaminePause_flowsStand (n : Slot) : FlowsStand s (reexaminePause n s) :=
  .of_aside (fun m => (reexaminePause_calm m n s).toAside) (reexaminePause_changes n s) rfl

theorem release_flowsStand (id : Nat) : FlowsStand s (release id s) :=
  .of_aside (fun m => (release_calm m id s).toAside) (release_changes id s) rfl

theorem discardCopy_flowsStand (p : Slot) (id : Nat) : FlowsStand s (discardCopy p id s) :=
  .of_aside (fun m => (discardCopy_calm m p id s).toAside) (discardCopy_changes p id s) rfl

theorem flushAll_flowsStand (p : Slot) : FlowsStand s (flushAll p s) :=
  (FlowsStand.of_changes (updSq_changes _ _ _) rfl).trans (.forEach (fun id v => discardCopy_flowsStand v p id) _ _)

theorem flushSample_flowsStand (p : Slot) : FlowsStand s (flushSample p s) :=
  (FlowsStand.of_changes (updSq_changes _ _ _) rfl).trans (.forEach (fun id v => discardCopy_flowsStand v p id) _ _)

theorem arbitrate_flowsStand (p : Slot) : FlowsStand s (arbitrate p s) :=
  .of_aside (mv := false) (fun m => (arbitrate_calm m p s).toAside) (arbitrate_changes p s) rfl

theorem arbitrateAll_flowsStand : FlowsStand s (arbitrateAll s) := .forSlots (fun n v => arbitrate_flowsStand v n) s

theorem admitHub_flowsStand (h : HubFrame) : FlowsStand s (admitHub h s) :=
  (FlowsStand.of_changes (storeFrame_changes _ _ _ _ _) rfl).trans (arbitrate_flowsStand ..)

theorem offerHub_flowsStand (h : HubFrame) : FlowsStand s (offerHub h s) := by
  unfold offerHub
  split
  · exact admitHub_flowsStand ..
  · exact .of_changes (countDiscard_changes _ _) rfl

theorem makeResponse_flowsStand (kind : ResponseKind) (dest : Slot) (seq : Byte) (payload : List Byte) :
    FlowsStand s (makeResponse kind dest seq payload s) :=
  .of_aside (mv := false) (fun m => makeResponse_aside m kind dest seq payload s) (makeResponse_changes _ _ _ _ _) rfl

theorem answer_flowsStand (kind : ResponseKind) (r : Request) (status : Status) (results : List Byte) :
    FlowsStand s (answer kind r status results s) := by
  unfold answer
  dsimp only
  split
  · exact makeResponse_flowsStand ..
  · exact (FlowsStand.of_changes (drawn_changes s) rfl).trans (makeResponse_flowsStand ..)

theorem complete_flowsStand (record : Nat) (status : Status) (results : List Byte) :
    FlowsStand s (complete record status results s) :=
  .of_aside (mv := false) (fun m => (complete_away m record status results s).toAside) (complete_changes _ _ _ _) rfl

theorem sendResponse_flowsStand (r : Response) : FlowsStand s (sendResponse r s) :=
  .of_aside (mv := false) (fun m => sendResponse_aside m r s) (sendResponse_changes _ _) rfl

theorem joinWaiting_flowsStand (m : Maker) : FlowsStand s (joinWaiting m s) := .of_changes (joinWaiting_changes _ _) rfl

theorem withdrawMaker_flowsStand (m : Maker) : FlowsStand s (withdrawMaker m s) :=
  .of_changes (withdrawMaker_changes _ _) rfl

theorem grantAgent_flowsStand : FlowsStand s (grantAgent s) := by
  unfold grantAgent
  dsimp only
  refine (withdrawMaker_flowsStand s .agent).trans ?_
  split
  · have sent (r : Response) (f : Agent → Agent) (v : State) : FlowsStand v (sendResponse r (v.updAgent f)) :=
      (FlowsStand.of_changes (updAgent_changes _ _) rfl).trans (sendResponse_flowsStand ..)
    split
    · exact sent ..
    · exact (sent ..).trans (joinWaiting_flowsStand ..)
  · exact .refl _

theorem acceptRequest_flowsStand (r : Request) : FlowsStand s (acceptRequest r s) := by
  unfold acceptRequest
  dsimp only
  split
  · exact (FlowsStand.of_changes (updAgent_changes _ _) rfl).trans (answer_flowsStand ..)
  · split
    · exact (FlowsStand.of_changes (updAgent_changes _ _) rfl).trans (answer_flowsStand ..)
    · exact .of_changes (updAgent_changes _ _) rfl

/-! ### The alarm unit -/

theorem produce_flowsStand (bodies : List NoticeBody) : FlowsStand s (produce bodies s) :=
  .of_aside (mv := false) (fun m => (produce_calm m bodies s).toAside) (produce_changes _ _) rfl

theorem changePoint_flowsStand (id : PointId) (new : Point) : FlowsStand s (changePoint id new s) :=
  .of_aside (mv := false) (fun m => (changePoint_calm m id new s).toAside) (changePoint_changes _ _ _) rfl

theorem samplePoint_flowsStand (id : PointId) (b : Bool) : FlowsStand s (samplePoint id b s) :=
  changePoint_flowsStand ..

theorem reportCondition_flowsStand (id : PointId) (b : Bool) : FlowsStand s (reportCondition id b s) :=
  changePoint_flowsStand ..

theorem occurPoint_flowsStand (id : PointId) : FlowsStand s (occurPoint id s) := changePoint_flowsStand ..

theorem alarmTiming_flowsStand (state : TimingState) (selected : Option Source) :
    FlowsStand s (alarmTiming state selected s) :=
  .of_aside (mv := false) (fun m => (alarmTiming_calm m state selected s).toAside) (alarmTiming_changes _ _ _) rfl

theorem makeAck_flowsStand (dest : Slot) (result : MailResult) (answers : Byte) :
    FlowsStand s (makeAck dest result answers s) := by
  have sent (h : HubFrame) (cells : Nat) (f : AlarmUnit → AlarmUnit) (v : State) :
      FlowsStand v (if (v.alarm.acks.isEmpty && reserveGrants v cells) = true then offerHub h v
        else joinWaiting .alarm (v.updAlarm f)) := by
    split
    · exact offerHub_flowsStand ..
    · exact (FlowsStand.of_changes (updAlarm_changes _ _) rfl).trans (joinWaiting_flowsStand ..)
  exact ((FlowsStand.of_changes (drawn_changes s) rfl).trans (.of_changes (updAlarm_changes _ _) rfl)).trans (sent ..)

theorem takeMail_flowsStand (n : Slot) (seq : Byte) (payload : List Byte) : FlowsStand s (takeMail n seq payload s) := by
  unfold takeMail
  dsimp only
  split
  · exact .of_changes (updAlarm_changes _ _) rfl
  split
  · exact makeAck_flowsStand ..
  split
  · exact makeAck_flowsStand ..
  split
  · exact makeAck_flowsStand ..
  · exact ((FlowsStand.of_changes (updAlarm_changes _ _) rfl).trans (produce_flowsStand ..)).trans
      (makeAck_flowsStand ..)

theorem grantAlarm_flowsStand : FlowsStand s (grantAlarm s) := by
  unfold grantAlarm
  dsimp only
  refine (withdrawMaker_flowsStand s .alarm).trans ?_
  split
  · have sent (h : HubFrame) (f : AlarmUnit → AlarmUnit) (v : State) : FlowsStand v (offerHub h (v.updAlarm f)) :=
      (FlowsStand.of_changes (updAlarm_changes _ _) rfl).trans (offerHub_flowsStand ..)
    split
    · exact sent ..
    · exact (sent ..).trans (joinWaiting_flowsStand ..)
  · exact .refl _

/-! ### The delay unit -/

theorem withdrawMark_flowsStand (n : Slot) (id : Nat) : FlowsStand s (withdrawMark n id s) :=
  (FlowsStand.of_changes (countDelay_changes _ _ _) rfl).trans (release_flowsStand ..)

theorem withdrawMarks_flowsStand (n : Slot) : FlowsStand s (withdrawMarks n s) :=
  ((FlowsStand.of_changes (updSq_changes _ _ _) rfl).trans (.forEach (fun id v => withdrawMark_flowsStand v n id) _ _)).trans
    (arbitrate_flowsStand ..)

theorem countMiss_flowsStand (n : Slot) : FlowsStand s (countMiss n s) := by
  have counted : FlowsStand s (countDelay n (fun c => { c with misses := count32 c.misses }) s) :=
    .of_changes (countDelay_changes _ _ _) rfl
  unfold countMiss
  dsimp only
  split
  · refine counted.trans ?_
    split
    · exact ((FlowsStand.of_changes (updDelay_changes _ _ _) rfl).trans (.of_changes (updDelay_changes _ _ _) rfl)).trans
        (withdrawMarks_flowsStand ..)
    · exact .of_changes (updDelay_changes _ _ _) rfl
  · exact counted

theorem takeReply_flowsStand (n : Slot) (seq : Byte) (payload : List Byte) (length : Nat) (t4 : Stamp) :
    FlowsStand s (takeReply n seq payload length t4 s) := by
  have stale : FlowsStand s (countDelay n (fun c => { c with stale := count32 c.stale }) s) :=
    .of_changes (countDelay_changes _ _ _) rfl
  have roundTrip (r : Int) (v : State) : FlowsStand v (takeRoundTrip n r v) := by
    unfold takeRoundTrip
    split
    · exact (FlowsStand.of_changes (countDelay_changes _ _ _) rfl).trans (.of_changes (updDelay_changes _ _ _) rfl)
    · exact (FlowsStand.of_changes (countDelay_changes _ _ _) rfl).trans (countMiss_flowsStand ..)
  unfold takeReply
  dsimp only
  split
  · split
    · exact (FlowsStand.of_changes (updDelay_changes _ _ _) rfl).trans (roundTrip ..)
    · exact stale
  · exact stale
  · exact stale

theorem probeClient_flowsStand (n : Slot) : FlowsStand s (probeClient n s) := by
  have delayed (f : SlotDelay → SlotDelay) (v : State) : FlowsStand v (v.updDelay n f) :=
    .of_changes (updDelay_changes _ _ _) rfl
  have missed : FlowsStand s (if (s.slotDelay n).outstanding.isSome = true then
      countMiss n (s.updDelay n fun d => { d with outstanding := none }) else s) := by
    split
    · exact (delayed _ s).trans (countMiss_flowsStand ..)
    · exact .refl s
  have asked (h : HubFrame) (f : SlotDelay → SlotDelay) (g : DelayCounters → DelayCounters) (v : State) : FlowsStand v
      (if timingAdmissible v h = true then admitHub h (v.updDelay n f) else countMiss n (countDelay n g v)) := by
    split
    · exact (delayed _ _).trans (admitHub_flowsStand ..)
    · exact (FlowsStand.of_changes (countDelay_changes _ _ _) rfl).trans (countMiss_flowsStand ..)
  unfold probeClient
  dsimp only
  split
  · exact (missed.trans (delayed _ _)).trans (asked ..)
  · exact .refl s

theorem markClient_flowsStand (n : Slot) : FlowsStand s (markClient n s) := by
  unfold markClient
  split
  · dsimp only
    split
    · exact ((FlowsStand.of_changes (drawn_changes s) rfl).trans (.of_changes (countDelay_changes _ _ _) rfl)).trans
        (admitHub_flowsStand ..)
    · exact .of_changes (countDelay_changes _ _ _) rfl
  · exact .refl s

theorem delayDeparture_flowsStand (n : Slot) : FlowsStand s (delayDeparture n s) := by
  unfold delayDeparture
  split
  · exact ((FlowsStand.of_changes (abandonProbe_changes n s) rfl).trans
      (.of_changes (updDelay_changes _ _ _) rfl)).trans (withdrawMarks_flowsStand ..)
  · exact .refl s

/-! ### The ports -/

theorem cutTransmission_flowsStand (p : Slot) : FlowsStand s (cutTransmission p s) := by
  have cut : FlowsStand s (s.updPort p fun q => { q with transmission := none }) := .updPort p s (by intro; rfl)
  unfold cutTransmission
  dsimp only
  split
  · exact (cut.trans (.of_changes (updSq_changes _ _ _) rfl)).trans (release_flowsStand ..)
  · exact cut
  · exact .refl s

theorem dropTests_flowsStand (p : Slot) : FlowsStand s (dropTests p s) :=
  (FlowsStand.updPort p s (by intro; rfl)).trans (withdrawMaker_flowsStand ..)

theorem discardAssembly_flowsStand (p : Slot) : FlowsStand s (discardAssembly p s) := by
  have cleared : FlowsStand s (s.updPort p fun q => { q with assembly := none }) := .updPort p s (by intro; rfl)
  unfold discardAssembly
  split
  · dsimp only
    split
    · exact cleared
    · exact cleared.trans (reexaminePause_flowsStand ..)
  · exact .refl s

theorem enterTraining_flowsStand (p : Slot) : FlowsStand s (enterTraining p s) := .updPort p s (by intro; rfl)

theorem selectWidth_flowsStand (p : Slot) : FlowsStand s (selectWidth p s) := .updPort p s (by intro; rfl)

theorem countLink_flowsStand (p : Slot) (f : LinkCounters → LinkCounters) : FlowsStand s (countLink p f s) :=
  .updPort p s (by intro; rfl)

theorem startTest_flowsStand (p : Slot) : FlowsStand s (startTest p s) := by
  unfold startTest
  dsimp only
  split
  · split
    · exact (FlowsStand.updPort p s (by intro; rfl)).trans (.of_changes (emit_changes _ _) rfl)
    · exact .refl s
  · exact .refl s

theorem buildTests_flowsStand (k : Nat) (p : Slot) : FlowsStand s (buildTests k p s) := by
  induction k generalizing s with
  | zero => exact .refl s
  | succ k ih =>
    unfold buildTests
    split
    · split
      · exact (FlowsStand.updPort (f := fun q => { q with
          testUnsent := q.testUnsent ++ [q.testNext], testNext := q.testNext + 1 }) p s (by intro; rfl)).trans (ih _)
      · exact joinWaiting_flowsStand ..
    · exact .refl s

theorem enterTesting_flowsStand (p : Slot) : FlowsStand s (enterTesting p s) :=
  ((FlowsStand.updPort p s (by intro; rfl)).trans (buildTests_flowsStand ..)).trans (startTest_flowsStand ..)

theorem grantTest_flowsStand (p : Slot) : FlowsStand s (grantTest p s) := by
  unfold grantTest
  dsimp only
  refine .trans ?_ (startTest_flowsStand ..)
  refine .trans ?_ (buildTests_flowsStand ..)
  refine (withdrawMaker_flowsStand s (.test p)).trans ?_
  split
  · exact .updPort p _ (by intro; rfl)
  · exact .refl _

theorem serveReserve_flowsStand (k : Nat) : FlowsStand s (serveReserve k s) := by
  induction k generalizing s with
  | zero => exact .refl s
  | succ k ih =>
    unfold serveReserve
    split
    · next m cells _ =>
      split
      · refine .trans ?_ (ih _)
        cases m with
        | test p => exact grantTest_flowsStand ..
        | agent => exact grantAgent_flowsStand s
        | alarm => exact grantAlarm_flowsStand s
      · exact .refl s
    · exact .refl s

/-! ### Received frames -/

theorem countDrop_flowsStand (n : Slot) (reason : DropReason) (f : FlowRef) : FlowsStand s (countDrop n reason f s) := by
  unfold countDrop
  dsimp only
  cases f with
  | none => exact .updDrops n _ s
  | default => exact ⟨fun _ => rfl, freshSuspension_congr (fun _ => rfl) (fun _ => rfl) rfl rfl rfl⟩
  | flow i => exact (FlowsStand.updDrops n _ s).trans (.updFlow_counted i _ (by intro; rfl))

theorem countForwarded_flowsStand (f : FlowRef) : FlowsStand s (countForwarded f s) := by
  unfold countForwarded
  cases f with
  | none => exact .refl _
  | default => exact ⟨fun _ => rfl, freshSuspension_congr (fun _ => rfl) (fun _ => rfl) rfl rfl rfl⟩
  | flow i => exact .updFlow_counted i _ (by intro; rfl)

theorem dropFrame_flowsStand (n : Slot) (reason : DropReason) (f : FlowRef) : FlowsStand s (dropFrame n reason f s) :=
  (countDrop_flowsStand ..).trans (discardAssembly_flowsStand ..)

theorem admitCard_flowsStand (n : Slot) (bytes : List Byte) (c : FrameClass) (ports : List Slot) (f : FlowRef) :
    FlowsStand s (admitCard n bytes c ports f s) := by
  have counted : FlowsStand s (forEach ports (fun p t => countVerdict (cardVerdict s p c (cellsOf bytes.length)) p t) s) :=
    .forEach (fun p v => .of_changes (countVerdict_changes _ _ _) rfl) ports s
  unfold admitCard
  dsimp only
  refine counted.trans ?_
  split
  · refine .trans (.trans ?_ (countForwarded_flowsStand ..)) (.forEach (fun p v => arbitrate_flowsStand v p) _ _)
    have stored (admitted : List Slot) (v : State) :
        FlowsStand v (storeFrame (.card n bytes) c (cellsOf bytes.length) admitted (clearAssembly n v)) :=
      (FlowsStand.updPort n v (by intro; rfl)).trans (.of_changes (storeFrame_changes _ _ _ _ _) rfl)
    split
    · exact (stored ..).trans (reexaminePause_flowsStand ..)
    · exact stored ..
  · split
    · exact (countForwarded_flowsStand ..).trans (discardAssembly_flowsStand ..)
    · exact (FlowsStand.of_changes (markExhaustion_changes _) rfl).trans (dropFrame_flowsStand ..)

theorem forwardData_flowsStand (n : Slot) (bytes : List Byte) : FlowsStand s (forwardData n bytes s) := by
  have onFlow (i : Fin 255) (f : Flow) (r : FlowRecord) : FlowsStand s (forwardOnFlow n bytes i f r s) := by
    unfold forwardOnFlow
    split
    · exact dropFrame_flowsStand ..
    split
    · exact dropFrame_flowsStand ..
    split
    · exact dropFrame_flowsStand ..
    split
    · exact dropFrame_flowsStand ..
    · exact admitCard_flowsStand ..
  unfold forwardData
  split
  · split
    · split
      · exact admitCard_flowsStand ..
      · exact dropFrame_flowsStand ..
    · exact dropFrame_flowsStand ..
  · split
    · exact onFlow ..
    · exact dropFrame_flowsStand ..

end

end Sys2Proof.Machine
end

section
/-! SUPPORT. The invariant of flows through the changes of what the suspension sets are formed from: the calendar and the
widths, the timing state, the slots. -/

namespace Sys2Proof.Machine

/-! ### The change of the suspension sets -/

@[simp] theorem Flow.settle_fields (f : Flow) : f.settle.fields = f.fields := by
  unfold Flow.settle
  split <;> rfl

@[simp] theorem Flow.settle_suspension (f : Flow) : f.settle.suspension = f.suspension := by
  unfold Flow.settle
  split <;> rfl

/-- Settling makes no flow FREE and no FREE flow another. -/
@[simp] theorem Flow.settle_free (f : Flow) : f.settle.state = .free ↔ f.state = .free := by
  obtain ⟨state, fields, suspension, forwarded, dropped⟩ := f
  unfold Flow.settle Flow.enabled
  cases state <;> cases suspension.isEmpty <;> simp

@[simp] theorem Flow.settle_settle (f : Flow) : f.settle.settle = f.settle := by
  unfold Flow.settle Flow.enabled
  cases h : f.state <;> cases x : f.suspension.isEmpty <;> simp [h, x]

/-- A FREE flow has no state to settle. -/
theorem Flow.settle_of_free {f : Flow} (h : f.state = .free) : f.settle = f := by
  simp [Flow.settle, Flow.enabled, h]

theorem Flow.resuspend_of_some {f : Flow} {r : FlowRecord} (h : f.fields = some r)
    (g : FlowRecord → Suspension → Suspension) :
    f.resuspend g = Flow.settle { f with suspension := g r f.suspension } := by
  simp only [Flow.resuspend, h]

theorem Flow.resuspend_of_none {f : Flow} (h : f.fields = none) (g : FlowRecord → Suspension → Suspension) :
    f.resuspend g = f := by
  simp only [Flow.resuspend, h]

@[simp] theorem Flow.resuspend_fields (f : Flow) (g : FlowRecord → Suspension → Suspension) :
    (f.resuspend g).fields = f.fields := by
  cases h : f.fields with
  | none => rw [Flow.resuspend_of_none h, h]
  | some r => rw [Flow.resuspend_of_some h, Flow.settle_fields]; exact h

@[simp] theorem Flow.resuspend_free (f : Flow) (g : FlowRecord → Suspension → Suspension) :
    (f.resuspend g).state = .free ↔ f.state = .free := by
  cases h : f.fields with
  | none => rw [Flow.resuspend_of_none h]
  | some r => rw [Flow.resuspend_of_some h, Flow.settle_free]

section
variable {s t : State}

theorem resuspendFlows_flow (g : FlowRecord → Suspension → Suspension) (s : State) (i : Fin 255) :
    (resuspendFlows g s).flow i = (s.flow i).resuspend g := by
  unfold resuspendFlows State.flow
  rw [show (reexamineFlows _).fwd = _ from (reexamineFlows_changes _).same .fwd rfl]
  exact Table.read_mapAll _ _ i

/-- What the suspension sets are formed from does not follow them. -/
theorem resuspendFlows_fresh (g : FlowRecord → Suspension → Suspension) (s : State) (r : FlowRecord) :
    freshSuspension (resuspendFlows g s) r = freshSuspension s r :=
  ((reportCondition_flowsStand _ _ _).fresh r).trans
    (freshSuspension_congr (fun _ => rfl) (fun _ => rfl) rfl rfl rfl r)

/-- A change that gives every written flow the set formed anew brings the invariant about. -/
theorem resuspendFlows_flowInv {g : FlowRecord → Suspension → Suspension}
    (written : ∀ i, (s.flow i).fields = none ↔ (s.flow i).state = .free)
    (fresh : ∀ i r, (s.flow i).fields = some r → g r (s.flow i).suspension = freshSuspension s r) :
    (resuspendFlows g s).FlowInv := by
  rw [flowInv_iff]
  intro i
  rw [resuspendFlows_flow]
  refine ⟨by rw [Flow.resuspend_fields, Flow.resuspend_free]; exact written i, fun r hr => ?_, ?_⟩
  · rw [Flow.resuspend_fields] at hr
    rw [resuspendFlows_fresh, Flow.resuspend_of_some hr, Flow.settle_suspension]
    exact fresh i r hr
  · cases h : (s.flow i).fields with
    | none => rw [Flow.resuspend_of_none h]; exact Flow.settle_of_free ((written i).1 h)
    | some r => rw [Flow.resuspend_of_some h, Flow.settle_settle]

/-! ### The evaluation of FIT -/

/-- The invariant of flows but for what FIT and the states say: every reason of a written flow stands as its condition,
FIT of a SAMPLE flow apart. -/
def State.FlowInvButFit (s : State) : Prop :=
  ∀ i, ((s.flow i).fields = none ↔ (s.flow i).state = .free) ∧
    ∀ r, (s.flow i).fields = some r →
      ∃ b, (s.flow i).suspension = { freshSuspension s r with fit := r.cls == .sample && b }

/-- FIT evaluated for every written SAMPLE flow makes up what was left of the invariant (R25, R78). -/
theorem evaluateFit_flowInv (inv : s.FlowInvButFit) : (evaluateFit s).FlowInv := by
  refine resuspendFlows_flowInv (fun i => (inv i).1) fun i r hr => ?_
  obtain ⟨b, set⟩ := (inv i).2 r hr
  rw [set]
  cases sample : r.cls == .sample
  · have other : r.cls ≠ .sample := by simpa using sample
    simp [freshSuspension, other]
  · have same : r.cls = .sample := by simpa using sample
    simp [freshSuspension, same]

/-- Where only what FIT reads moved, the rest of the invariant stands. -/
theorem State.FlowInv.butFit (inv : s.FlowInv) (flow : ∀ i, t.flow i = s.flow i)
    (active : ∀ n, t.isActive n = s.isActive n) (timing : t.trk.timing = s.trk.timing) : t.FlowInvButFit := by
  rw [flowInv_iff] at inv
  intro i
  obtain ⟨written, set, -⟩ := inv i
  rw [flow]
  refine ⟨written, fun r hr => ⟨!fits s s.cal.active r, ?_⟩⟩
  rw [set r hr]
  unfold freshSuspension
  simp only [active, timing]

/-- Where the flows stood, so did the invariant but for FIT. -/
theorem FlowsStand.butFit (h : FlowsStand s t) (inv : s.FlowInvButFit) : t.FlowInvButFit := fun i => by
  rw [h.flow]
  refine ⟨(inv i).1, fun r hr => ?_⟩
  rw [h.fresh]
  exact (inv i).2 r hr

theorem setReportedWidth_flowInv (p : Slot) (w : Option Width) (inv : s.FlowInv) : (setReportedWidth p w s).FlowInv := by
  unfold setReportedWidth
  split
  · exact inv
  · refine evaluateFit_flowInv ((FlowsStand.updSlot p _ (by rfl)).butFit ?_)
    exact inv.butFit (fun _ => rfl) (fun _ => rfl) rfl

/-- The banks change places, the queues of ports without windows are emptied, and FIT is evaluated (R70). -/
theorem swapBanks_flowInv (inv : s.FlowInv) : (swapBanks s).FlowInv := by
  unfold swapBanks
  split
  · refine (complete_flowsStand ..).flowInv (evaluateFit_flowInv (FlowsStand.butFit (.forSlots (fun p v => ?_) _)
      (inv.butFit (t := s.updCal _) (fun _ => rfl) (fun _ => rfl) rfl)))
    split
    · exact flushSample_flowsStand v p
    · exact .refl v
  · exact inv

theorem phaseStep_flowInv (before after : Stamp) (inv : s.FlowInv) : (phaseStep before after s).FlowInv := by
  have abandoned : (abandonProbes s).FlowInv := (FlowsStand.of_changes (abandonProbes_changes s) rfl).flowInv inv
  unfold phaseStep
  dsimp only
  refine (occurPoint_flowsStand ..).flowInv ?_
  have decided : (arbitrateAll (if stepSwaps s before after = true then swapBanks (abandonProbes s)
      else abandonProbes s)).FlowInv := by
    refine (arbitrateAll_flowsStand _).flowInv ?_
    split
    · exact swapBanks_flowInv abandoned
    · exact abandoned
  split
  · exact (FlowsStand.of_changes (updMon_changes _ _) rfl).flowInv decided
  · exact decided

/-! ### The timing state -/

/-- TIMING follows the entry to FREERUN and its end (R24). -/
theorem flowsTimingChange_flowInv {new : TimingState} (inv : s.FlowInv) (flow : ∀ i, t.flow i = s.flow i)
    (fresh : ∀ r, freshSuspension t r = { freshSuspension s r with timing := r.needsLock && new == .freerun }) :
    (flowsTimingChange s.trk.timing new t).FlowInv := by
  rw [flowInv_iff] at inv
  unfold flowsTimingChange
  split
  · refine resuspendFlows_flowInv (fun i => by rw [flow]; exact (inv i).1) fun i r hr => ?_
    rw [flow] at hr ⊢
    rw [(inv i).2.1 r hr, fresh]
    cases lock : r.needsLock <;> simp [freshSuspension, lock]
  · next other =>
    rw [not_or] at other
    rw [flowInv_iff]
    intro i
    obtain ⟨written, set, settled⟩ := inv i
    rw [flow]
    refine ⟨written, fun r hr => ?_, settled⟩
    have before : (s.trk.timing == .freerun) = false := by simpa using other.2
    have after : (new == .freerun) = false := by simpa using other.1
    rw [fresh, set r hr]
    simp [freshSuspension, before, after]

theorem enterTiming_flowInv (new : TimingState) (inv : s.FlowInv) : (enterTiming new s).FlowInv := by
  unfold enterTiming
  dsimp only
  refine (alarmTiming_flowsStand ..).flowInv ?_
  refine (FlowsStand.of_changes (with_delay_changes _ _) rfl).flowInv ?_
  split
  · exact flowsTimingChange_flowInv inv (fun _ => rfl) fun _ => rfl
  · exact flowsTimingChange_flowInv inv (fun _ => rfl) fun _ => rfl

theorem examineSelection_flowInv (inv : s.FlowInv) : (examineSelection s).FlowInv := by
  have selected (x : Option Source) : (s.updTrk fun k => { k with selected := x }).FlowInv :=
    (FlowsStand.updTrk s (by rfl)).flowInv inv
  unfold examineSelection
  dsimp only
  split
  · exact inv
  · split
    case h_1 | h_7 | h_8 => exact selected _
    case h_2 | h_3 | h_4 => exact enterTiming_flowInv _ (selected _)
    all_goals
      split <;> exact enterTiming_flowInv _ (selected _)

theorem setSource_flowsStand (src : Source) (r : SourceRecord) (s : State) : FlowsStand s (setSource src r s) :=
  (FlowsStand.updSource src _ s).trans (reportCondition_flowsStand ..)

theorem countSource_flowsStand (src : Source) (f : SourceCounters → SourceCounters) (s : State) :
    FlowsStand s (countSource src f s) := by
  cases src <;> exact .updTrk s (by rfl)

theorem failSource_flowInv (src : Source) (inv : s.FlowInv) : (failSource src s).FlowInv :=
  examineSelection_flowInv (((countSource_flowsStand ..).trans (setSource_flowsStand ..)).flowInv inv)

theorem reworkProvider_flowsStand (src : Source) (s : State) : FlowsStand s (reworkProvider src s) := by
  unfold reworkProvider
  dsimp only
  split
  · exact .refl s
  · split <;> exact setSource_flowsStand ..

theorem reworkProviders_flowInv (inv : s.FlowInv) : (reworkProviders s).FlowInv :=
  examineSelection_flowInv (((reworkProvider_flowsStand ..).trans (reworkProvider_flowsStand ..)).flowInv inv)

theorem setFreq_flowsStand (f : Int) (s : State) : FlowsStand s (s.setFreq f) := .of_changes (setFreq_changes f s) rfl

theorem stepTime_flowInv (e : Int) (inv : s.FlowInv) : (stepTime e s).FlowInv := by
  unfold stepTime
  refine phaseStep_flowInv _ _ ((FlowsStand.updTrk _ (by rfl)).flowInv ?_)
  exact (FlowsStand.of_changes (with_time_changes s _) rfl).flowInv inv

theorem lockAccounting_flowInv (e : Int) (inv : s.FlowInv) : (lockAccounting e s).FlowInv := by
  have moved (c : Prop) [Decidable c] (new : TimingState) {v : State} (h : v.FlowInv) :
      (if c then enterTiming new v else v).FlowInv := by
    split
    · exact enterTiming_flowInv new h
    · exact h
  unfold lockAccounting
  dsimp only
  split
  · exact moved _ _ ((FlowsStand.updTrk s (by rfl)).flowInv inv)
  · exact moved _ _ ((FlowsStand.updTrk s (by rfl)).flowInv inv)
  · exact inv
  · exact inv

theorem applyEvent_flowInv (e : Int) (inv : s.FlowInv) : (applyEvent e s).FlowInv := by
  unfold applyEvent
  split
  · exact stepTime_flowInv e inv
  · exact lockAccounting_flowInv e (((FlowsStand.updTrk s (by rfl)).trans (setFreq_flowsStand ..)).flowInv inv)

theorem jumpEvent_flowInv (src : Source) (inv : s.FlowInv) : (jumpEvent src s).FlowInv := by
  have counted (f : SourceRecord → SourceRecord) :
      ((countSource src (fun c => { c with jumps := count32 c.jumps }) s).updSource src f).FlowInv :=
    ((countSource_flowsStand ..).trans (.updSource src _ _)).flowInv inv
  unfold jumpEvent
  dsimp only
  split
  · exact failSource_flowInv src (counted _)
  · exact counted _

theorem goodEvent_flowInv (src : Source) (e : Int) (inv : s.FlowInv) : (goodEvent src e s).FlowInv := by
  have counted (f : SourceRecord → SourceRecord) :
      ((countSource src (fun c => { c with good := count32 c.good }) s).updSource src f).FlowInv :=
    ((countSource_flowsStand ..).trans (.updSource src _ _)).flowInv inv
  unfold goodEvent
  dsimp only
  split
  · split
    · exact examineSelection_flowInv ((setSource_flowsStand ..).flowInv (counted _))
    · exact counted _
  · split
    · exact applyEvent_flowInv e (counted _)
    · exact counted _

theorem takeEvent_flowInv (src : Source) (error : Option Int) (inv : s.FlowInv) : (takeEvent src error s).FlowInv := by
  have arrived (f : SourceRecord → SourceRecord) : (s.updSource src f).FlowInv :=
    (FlowsStand.updSource src f s).flowInv inv
  unfold takeEvent
  dsimp only
  split
  · exact inv
  · exact arrived _
  all_goals
    split
    · split
      · exact jumpEvent_flowInv src (arrived _)
      · exact goodEvent_flowInv src _ (arrived _)
    all_goals exact ((countSource_flowsStand ..).trans (.updSource src _ _)).flowInv (arrived _)

theorem takeRefTime_flowInv (n : Slot) (payload : List Byte) (length : Nat) (arrival : Stamp) (inv : s.FlowInv) :
    (takeRefTime n payload length arrival s).FlowInv := by
  have discarded : (s.updTrk fun k =>
      { k with counters := { k.counters with discarded := count32 k.counters.discarded } }).FlowInv :=
    (FlowsStand.updTrk s (by rfl)).flowInv inv
  unfold takeRefTime
  dsimp only
  split
  · exact discarded
  · split
    · split
      · exact (FlowsStand.updSource .P _ s).flowInv inv
      · exact discarded
    · split
      · exact takeEvent_flowInv .N _ inv
      · exact discarded
    · exact discarded

/-! ### The slots -/

/-- SOURCE_DOWN and DEST_DOWN follow an entry to ACTIVE and its end, and then FIT (R23, R78). `u` is the state as the
slot's record has changed, and `t` the state in which the forwarding unit hears of it. -/
theorem flowsSlotReport_flowInv {n : Slot} {f : SlotRecord → SlotRecord} {new : SlotState} (inv : s.FlowInv)
    (state : (f (s.slot n)).state = new) (stand : FlowsStand (s.updSlot n f) t) :
    (flowsSlotReport n (s.slot n).state new t).FlowInv := by
  have active (m : Slot) : (s.updSlot n f).isActive m = if m = n then new == .active else s.isActive m := by
    unfold State.isActive
    split
    · next h => rw [h, State.slot_updSlot_same, state]
    · next h => rw [State.slot_updSlot_ne _ _ _ h]
  unfold flowsSlotReport
  split
  · refine evaluateFit_flowInv fun i => ?_
    obtain ⟨written, set, -⟩ := (flowInv_iff s).1 inv i
    unfold flowsSlotChange
    rw [resuspendFlows_flow, Flow.resuspend_fields, Flow.resuspend_free, stand.flow]
    refine ⟨written, fun r hr => ⟨!fits s s.cal.active r, ?_⟩⟩
    rw [resuspendFlows_fresh, stand.fresh, Flow.resuspend_of_some hr, Flow.settle_suspension]
    have set : (s.flow i).suspension = freshSuspension s r := set r hr
    simp only [State.flow_updSlot, set]
    unfold freshSuspension
    simp only [active, Suspension.mk.injEq]
    refine ⟨?_, ?_, rfl, trivial⟩
    · split <;> simp
    · cases r.dest with
      | slot m => by_cases h : m = n <;> simp [h]
      | group g => simp
  · next same =>
    have moved : FlowsStand s (s.updSlot n f) := by
      refine ⟨fun _ => rfl, freshSuspension_congr (fun m => ?_) (fun _ => rfl) rfl rfl rfl⟩
      rw [active]
      split
      · next h =>
        rw [h]
        unfold State.isActive
        rw [Bool.not_eq_true, bne_eq_false_iff_eq] at same
        exact same.symm
      · rfl
    exact (moved.trans stand).flowInv inv

theorem agentSlotChange_flowsStand (n : Slot) (old new : SlotState) (s : State) :
    FlowsStand s (agentSlotChange n old new s) := .of_changes (agentSlotChange_changes n old new s) rfl

theorem alarmSlotChange_flowsStand (n : Slot) (old new : SlotState) (reason : Option FaultReason) (s : State) :
    FlowsStand s (alarmSlotChange n old new reason s) :=
  .of_aside (mv := false) (fun m => (alarmSlotChange_calm m n old new reason s).toAside)
    (alarmSlotChange_changes n old new reason s) rfl

theorem sidebandReport_flowsStand (n : Slot) (old new : SlotState) (s : State) :
    FlowsStand s (sidebandReport n old new s) := by
  have alone {v w : State} (h : OnlyChanges [.side] v w) : FlowsStand v w := .of_changes h rfl
  have answered (e : SidebandEntry) (v : State) : FlowsStand v (answerGone e v) := by
    cases e with
    | identify => exact .refl v
    | raw => exact complete_flowsStand ..
  have changed (v : State) : FlowsStand v (sidebandSlotChange n old new v) := by
    unfold sidebandSlotChange
    dsimp only
    have identified : FlowsStand v (if new = .identifying then joinSideband (.identify n 1) v
        else if old = .identifying ∧ (new = .inserted ∨ new = .empty) then removeEntries (SidebandEntry.identifies n) v
        else v) := by
      split
      · exact alone (joinSideband_changes _ _)
      · split
        · exact alone (removeEntries_changes _ _)
        · exact .refl v
    split
    · exact (identified.trans (alone (removeEntries_changes _ _))).trans (.forEach answered _ _)
    · exact identified
  unfold sidebandReport
  dsimp only
  refine .trans ?_ (changed _)
  split
  · exact alone (sidebandDeparture_changes _ _)
  · exact .refl s

theorem queueSlotChange_flowsStand (n : Slot) (old new : SlotState) (s : State) :
    FlowsStand s (queueSlotChange n old new s) := by
  have queued (f : SlotQueues → SlotQueues) (v : State) : FlowsStand v (v.updSq n f) :=
    .of_changes (updSq_changes n f v) rfl
  have left : FlowsStand s (if (old.isUp && !new.isUp) = true then
      (setPaused n false (flushAll n s)).updSq n fun q => { q with hold := .none, holdTimer := none } else s) := by
    split
    · exact ((flushAll_flowsStand ..).trans (setPaused_flowsStand ..)).trans (queued _ _)
    · exact .refl s
  unfold queueSlotChange
  dsimp only
  split
  · exact left.trans (queued _ _)
  · exact left

theorem delaySlotChange_flowsStand (n : Slot) (old new : SlotState) (s : State) :
    FlowsStand s (delaySlotChange n old new s) := by
  unfold delaySlotChange
  split
  · exact .of_changes (delayArrival_changes n s) rfl
  · split
    · exact delayDeparture_flowsStand s n
    · exact .refl s

theorem trackerSlotChange_flowInv (old new : SlotState) (inv : s.FlowInv) : (trackerSlotChange old new s).FlowInv := by
  unfold trackerSlotChange
  split
  · exact reworkProviders_flowInv inv
  · exact inv

/-- A slot state change keeps the invariant: the flows stand until the forwarding unit hears of it, and after (R135). -/
theorem changeSlot_flowInv (n : Slot) (new : SlotState) (reason : Option FaultReason) (inv : s.FlowInv) :
    (changeSlot n new reason s).FlowInv := by
  unfold changeSlot
  dsimp only
  refine trackerSlotChange_flowInv _ _ ?_
  refine ((delaySlotChange_flowsStand ..).trans
    (.of_changes (monitorSlotChange_changes _ _ _) rfl)).flowInv ?_
  refine (queueSlotChange_flowsStand ..).flowInv ?_
  exact flowsSlotReport_flowInv inv rfl (((agentSlotChange_flowsStand ..).trans (alarmSlotChange_flowsStand ..)).trans
    (sidebandReport_flowsStand ..))

end

end Sys2Proof.Machine
end

section
/-! SUPPORT. The invariant of flows through the operations of the slot controller and of the ports. -/

namespace Sys2Proof.Machine

section
variable {s : State}

/-! ### The port's two commands and the power of a slot -/

theorem stopPort_flowInv (p : Slot) (link : LinkState) (inv : s.FlowInv) : (stopPort p link s).FlowInv := by
  unfold stopPort
  dsimp only
  refine setReportedWidth_flowInv p none ((FlowsStand.updPort p _ (by intro; rfl)).flowInv ?_)
  refine (((cutTransmission_flowsStand ..).trans (dropTests_flowsStand ..)).trans
    (discardAssembly_flowsStand ..)).flowInv ?_
  exact (FlowsStand.updPort p s (by intro; rfl)).flowInv inv

theorem takeDown_flowInv (p : Slot) (inv : s.FlowInv) : (takeDown p s).FlowInv := stopPort_flowInv p .down inv

theorem bringUp_flowInv (p : Slot) (inv : s.FlowInv) : (bringUp p s).FlowInv :=
  (enterTraining_flowsStand ..).flowInv ((FlowsStand.updPort p _ (by intro; rfl)).flowInv (stopPort_flowInv p .training inv))

theorem leavePower_flowInv (n : Slot) (inv : s.FlowInv) : (leavePower n s).FlowInv := by
  have released (v : State) : FlowsStand v (releasePower n v) := (FlowsStand.updSlot n v (by rfl)).trans (.with_slots rfl)
  unfold leavePower
  split
  case h_1 => exact (released _).flowInv inv
  case h_2 | h_3 | h_4 | h_5 => exact (released _).flowInv (takeDown_flowInv n inv)
  all_goals exact inv

theorem leaveWaiting_flowsStand (n : Slot) (s : State) : FlowsStand s (leaveWaiting n s) := .with_slots rfl

theorem countSlot_flowsStand (n : Slot) (f : SlotCounters → SlotCounters) (s : State) :
    FlowsStand s (countSlot n f s) := .updSlot n s (by rfl)

theorem reportWaiting_flowsStand (s : State) : FlowsStand s (reportWaiting s) := reportCondition_flowsStand ..

/-! ### Entries to the slot states -/

theorem enterFaulted_flowInv (n : Slot) (reason : FaultReason) (kind : Option SidebandOutcome) (inv : s.FlowInv) :
    (enterFaulted n reason kind s).FlowInv :=
  changeSlot_flowInv n .faulted _ ((FlowsStand.updSlot n _ (by rfl)).flowInv (leavePower_flowInv n inv))

theorem enterLinking_flowInv (n : Slot) (inv : s.FlowInv) : (enterLinking n s).FlowInv :=
  changeSlot_flowInv n .linking none (bringUp_flowInv n ((FlowsStand.updSlot n s (by rfl)).flowInv inv))

theorem grantPower_flowInv (n : Slot) (inv : s.FlowInv) : (grantPower n s).FlowInv := by
  have further (v : State) (h : v.FlowInv) : (if (v.slot n).lines.fastFault = true then enterFaulted n .overcurrent none v
      else if (v.slot n).lines.powerGood = true then enterLinking n v else v).FlowInv := by
    split
    · exact enterFaulted_flowInv n _ _ h
    · split
      · exact enterLinking_flowInv n h
      · exact h
  unfold grantPower
  refine further _ ((reportWaiting_flowsStand _).flowInv (changeSlot_flowInv n .powering none ?_))
  refine (FlowsStand.updSlot n _ (by rfl)).flowInv ?_
  exact ((leaveWaiting_flowsStand n s).trans (.with_slots rfl)).flowInv inv

theorem examineWaiting_flowInv (k : Nat) (inv : s.FlowInv) : (examineWaiting k s).FlowInv := by
  induction k generalizing s with
  | zero => exact inv
  | succ k ih =>
    unfold examineWaiting
    split
    · exact inv
    · split
      · exact ih (grantPower_flowInv _ inv)
      · exact inv

theorem servePower_flowInv (inv : s.FlowInv) : (servePower s).FlowInv :=
  examineWaiting_flowInv _ (((reportCondition_flowsStand ..).trans (reportWaiting_flowsStand _)).flowInv inv)

theorem faultSlot_flowInv (n : Slot) (reason : FaultReason) (kind : Option SidebandOutcome) (inv : s.FlowInv) :
    (faultSlot n reason kind s).FlowInv := by
  unfold faultSlot
  dsimp only
  split
  · exact servePower_flowInv (enterFaulted_flowInv n reason kind inv)
  · exact enterFaulted_flowInv n reason kind inv

theorem enterIdentifying_flowInv (n : Slot) (inv : s.FlowInv) : (enterIdentifying n s).FlowInv :=
  changeSlot_flowInv n .identifying none ((FlowsStand.updSlot n s (by rfl)).flowInv inv)

theorem enterInserted_flowInv (n : Slot) (inv : s.FlowInv) : (enterInserted n s).FlowInv :=
  changeSlot_flowInv n .inserted none ((FlowsStand.updSlot n s (by rfl)).flowInv inv)

theorem enterWaiting_flowInv (n : Slot) (inv : s.FlowInv) : (enterWaiting n s).FlowInv :=
  servePower_flowInv ((FlowsStand.with_slots rfl).flowInv (changeSlot_flowInv n .waitingPower none inv))

theorem takeIdentity_flowInv (n : Slot) (o : IdentityOutcome) (inv : s.FlowInv) : (takeIdentity n o s).FlowInv := by
  unfold takeIdentity
  split
  · cases o with
    | valid i =>
      have set (v : State) (h : v.FlowInv) : (setCurrentThresholds n i v).FlowInv :=
        (FlowsStand.of_changes (setCurrentThresholds_changes n i v) rfl).flowInv h
      dsimp only
      split
      · exact faultSlot_flowInv n _ _ (set _ ((FlowsStand.updSlot n s (by rfl)).flowInv inv))
      · exact enterWaiting_flowInv n (set _ ((FlowsStand.updSlot n s (by rfl)).flowInv inv))
    | failed kind => exact faultSlot_flowInv n _ _ inv
  · exact inv

/-! ### Drains -/

theorem endDrain_flowInv (n : Slot) (inv : s.FlowInv) : (endDrain n s).FlowInv :=
  servePower_flowInv (changeSlot_flowInv n .quiesced none ((FlowsStand.updSlot n _ (by rfl)).flowInv (leavePower_flowInv n inv)))

theorem checkDrain_flowInv (n : Slot) (inv : s.FlowInv) : (checkDrain n s).FlowInv := by
  unfold checkDrain
  split
  · exact endDrain_flowInv n ((countSlot_flowsStand ..).flowInv inv)
  · exact inv

/-- An operation on each slot keeps the invariant where it keeps it on one. -/
theorem forSlots_flowInv {f : Slot → State → State} (keeps : ∀ n v, State.FlowInv v → (f n v).FlowInv)
    (inv : s.FlowInv) : (forSlots f s).FlowInv := by
  have each (xs : List Slot) (v : State) (h : v.FlowInv) : (xs.foldl (fun t n => f n t) v).FlowInv := by
    induction xs generalizing v with
    | nil => exact h
    | cons x xs ih => exact ih _ (keeps x v h)
  exact each allSlots s inv

theorem checkDrains_flowInv (inv : s.FlowInv) : (checkDrains s).FlowInv :=
  forSlots_flowInv (fun n _ h => checkDrain_flowInv n h) inv

theorem timeOutDrain_flowInv (n : Slot) (inv : s.FlowInv) : (timeOutDrain n s).FlowInv :=
  endDrain_flowInv n (((flushAll_flowsStand ..).trans (countSlot_flowsStand ..)).flowInv inv)

theorem enterDraining_flowInv (n : Slot) (inv : s.FlowInv) : (enterDraining n s).FlowInv :=
  checkDrain_flowInv n (changeSlot_flowInv n .draining none ((FlowsStand.updSlot n s (by rfl)).flowInv inv))

/-! ### Latch, presence and link -/

theorem backToInserted_flowInv (n : Slot) (inv : s.FlowInv) : (backToInserted n s).FlowInv := by
  unfold backToInserted
  split
  case h_1 => exact servePower_flowInv (enterInserted_flowInv n ((leaveWaiting_flowsStand n s).flowInv inv))
  case h_2 | h_3 => exact servePower_flowInv (enterInserted_flowInv n (leavePower_flowInv n inv))
  all_goals exact enterInserted_flowInv n inv

theorem toEmpty_flowInv (n : Slot) (inv : s.FlowInv) : (toEmpty n s).FlowInv := by
  have left : (leavePower n (leaveWaiting n s)).FlowInv := leavePower_flowInv n ((leaveWaiting_flowsStand n s).flowInv inv)
  have gone (v : State) (h : v.FlowInv) (f : SlotRecord → SlotRecord)
      (same : ∀ r, (f r).state = r.state) : ((changeSlot n .empty none v).updSlot n f).FlowInv :=
    (FlowsStand.updSlot n _ (same _)).flowInv (changeSlot_flowInv n .empty none h)
  have served (c : Bool) (v : State) (h : v.FlowInv) : (if c = true then servePower v else v).FlowInv := by
    split
    · exact servePower_flowInv h
    · exact h
  unfold toEmpty
  refine served _ _ (gone _ ?_ _ fun _ => rfl)
  split
  · exact ((occurPoint_flowsStand ..).trans (countSlot_flowsStand ..)).flowInv left
  · exact left

theorem linkUp_flowInv (n : Slot) (inv : s.FlowInv) : (linkUp n s).FlowInv := by
  unfold linkUp
  split
  · exact changeSlot_flowInv n _ none ((FlowsStand.updSlot n s (by rfl)).flowInv inv)
  · exact inv

theorem linkDown_flowInv (n : Slot) (inv : s.FlowInv) : (linkDown n s).FlowInv := by
  unfold linkDown
  split
  · exact faultSlot_flowInv n _ _ inv
  · exact inv

theorem updateBudget_flowInv (inv : s.FlowInv) : (updateBudget s).FlowInv := by
  have forced (b : Budget) : (if b = s.slots.inForce then s
      else servePower { s with slots := { s.slots with inForce := b } }).FlowInv := by
    split
    · exact inv
    · exact servePower_flowInv ((FlowsStand.with_slots rfl).flowInv inv)
  exact forced _

theorem criticalEntered_flowInv (id : PointId) (old : PointState) (inv : s.FlowInv) :
    (criticalEntered id old s).FlowInv := by
  unfold criticalEntered
  split
  · split
    · exact faultSlot_flowInv _ _ _ inv
    · exact inv
  · exact inv

/-! ### A port's bring-up -/

theorem giveUp_flowInv (p : Slot) (inv : s.FlowInv) : (giveUp p s).FlowInv :=
  linkDown_flowInv p (setReportedWidth_flowInv p none ((FlowsStand.updPort p s (by intro; rfl)).flowInv inv))

/-- The state as an attempt that failed has been counted and its remains cleared away, whatever the link (R5). -/
def State.attemptCleared (p : Slot) (s : State) : State :=
  let counted := countLink p (fun c => { c with failedAttempts := count32 c.failedAttempts }) s
  let cut := match (counted.port p).transmission with
    | some (.test _ _) => counted.updPort p fun q => { q with transmission := none }
    | some (.frame _ _) | none => counted
  discardAssembly p ((dropTests p cut).updPort p fun q => { q with trainingDeadline := none, testProgress := 0 })

theorem attemptCleared_flowsStand (p : Slot) (s : State) : FlowsStand s (s.attemptCleared p) := by
  have cut (v : State) : FlowsStand v (match (v.port p).transmission with
      | some (.test _ _) => v.updPort p fun q => { q with transmission := none }
      | some (.frame _ _) | none => v) := by
    split
    · exact .updPort p v (by intro; rfl)
    · exact .refl v
    · exact .refl v
  refine .trans ?_ (discardAssembly_flowsStand ..)
  refine .trans ?_ (.updPort p _ (by intro; rfl))
  exact ((countLink_flowsStand ..).trans (cut _)).trans (dropTests_flowsStand ..)

/-- The port trains again at its next attempt. -/
def State.attemptsNext (p : Slot) (s : State) : State :=
  enterTraining p (s.updPort p fun q => { q with attempt := q.attempt + 1 })

theorem attemptsNext_flowsStand (p : Slot) (s : State) : FlowsStand s (s.attemptsNext p) :=
  (FlowsStand.updPort p s (by intro; rfl)).trans (enterTraining_flowsStand ..)

theorem failAttempt_zero (p : Slot) (s : State) : failAttempt 0 p s =
    if ((s.attemptCleared p).port p).attempt < 3 then (s.attemptCleared p).attemptsNext p
    else giveUp p (s.attemptCleared p) := rfl

theorem failAttempt_succ (k : Nat) (p : Slot) (s : State) : failAttempt (k + 1) p s =
    if ((s.attemptCleared p).port p).attempt < 3 then
      if trainingTarget ((s.attemptCleared p).attemptsNext p) p = 0 then
        failAttempt k p ((s.attemptCleared p).attemptsNext p)
      else (s.attemptCleared p).attemptsNext p
    else giveUp p (s.attemptCleared p) := rfl

theorem failAttempt_flowInv (k : Nat) (p : Slot) (inv : s.FlowInv) : (failAttempt k p s).FlowInv := by
  have cleared {v : State} (h : v.FlowInv) : (v.attemptCleared p).FlowInv := (attemptCleared_flowsStand p v).flowInv h
  have again {v : State} (h : v.FlowInv) : (v.attemptsNext p).FlowInv := (attemptsNext_flowsStand p v).flowInv h
  induction k generalizing s with
  | zero =>
    rw [failAttempt_zero]
    split
    · exact again (cleared inv)
    · exact giveUp_flowInv p (cleared inv)
  | succ k ih =>
    rw [failAttempt_succ]
    split
    · split
      · exact ih (again (cleared inv))
      · exact again (cleared inv)
    · exact giveUp_flowInv p (cleared inv)

theorem attemptFails_flowInv (p : Slot) (inv : s.FlowInv) : (attemptFails p s).FlowInv := failAttempt_flowInv 3 p inv

theorem endTraining_flowInv (p : Slot) (inv : s.FlowInv) : (endTraining p s).FlowInv := by
  have ended : (s.updPort p fun q => { q with trainingDeadline := none }).FlowInv := (FlowsStand.updPort p s (by intro; rfl)).flowInv inv
  unfold endTraining
  dsimp only
  split
  · exact attemptFails_flowInv p ended
  · exact ((selectWidth_flowsStand ..).trans (enterTesting_flowsStand ..)).flowInv ended

theorem beginTraining_flowInv (p : Slot) (inv : s.FlowInv) : (beginTraining p s).FlowInv := by
  have entered : (enterTraining p s).FlowInv := (enterTraining_flowsStand ..).flowInv inv
  unfold beginTraining
  dsimp only
  split
  · exact endTraining_flowInv p entered
  · exact entered

theorem enterUp_flowInv (p : Slot) (inv : s.FlowInv) : (enterUp p s).FlowInv := by
  unfold enterUp
  refine (arbitrate_flowsStand ..).flowInv (linkUp_flowInv p ((FlowsStand.of_changes (emit_changes _ _) rfl).flowInv ?_))
  exact setReportedWidth_flowInv p _ ((FlowsStand.updPort p s (by intro; rfl)).flowInv inv)

theorem judgeReturn_flowInv (p : Slot) (truncated : Bool) (bytes : List Byte) (inv : s.FlowInv) :
    (judgeReturn p truncated bytes s).FlowInv := by
  have rose : (s.updPort p fun q => { q with testProgress := q.testProgress + 1 }).FlowInv :=
    (FlowsStand.updPort p s (by intro; rfl)).flowInv inv
  unfold judgeReturn
  dsimp only
  split
  · split
    · exact enterUp_flowInv p rose
    · exact rose
  · exact attemptFails_flowInv p inv

theorem retrain_flowInv (p : Slot) (inv : s.FlowInv) : (retrain p s).FlowInv := by
  unfold retrain
  refine beginTraining_flowInv p (((cutTransmission_flowsStand ..).trans (discardAssembly_flowsStand ..)).flowInv ?_)
  exact ((countLink_flowsStand ..).trans (.updPort p _ (by intro; rfl))).flowInv inv

theorem failLane_flowInv (p : Slot) (l : Lane) (inv : s.FlowInv) : (failLane p l s).FlowInv := by
  have failed (f : Port → Port) (g : LinkCounters → LinkCounters)
      (width : ∀ q, (f q).reportedWidth = q.reportedWidth) : (countLink p g (s.updPort p f)).FlowInv :=
    ((FlowsStand.updPort p s width).trans (countLink_flowsStand ..)).flowInv inv
  have lost : (countLink p (fun c => { c with laneFailures := count32 c.laneFailures })
      (s.updPort p fun r => { r with laneGood := r.laneGood.write l false })).FlowInv := failed _ _ fun _ => rfl
  have training : ((countLink p (fun c => { c with laneFailures := count32 c.laneFailures })
      (s.updPort p fun r => { r with laneGood := r.laneGood.write l false })).updPort p fun r =>
        { r with trained := r.trained.filter (· != l) }).FlowInv := (FlowsStand.updPort p _ (by intro; rfl)).flowInv lost
  unfold failLane
  dsimp only
  split
  · exact inv
  · split
    · exact inv
    · split
      · exact endTraining_flowInv p training
      · exact training
    · split
      · exact attemptFails_flowInv p lost
      · exact lost
    · split
      · exact retrain_flowInv p lost
      · exact lost

/-! ### Received frames -/

theorem dispatchByKind_flowInv (n : Slot) (bytes : List Byte) (arrival : Stamp) (inv : s.FlowInv) :
    (dispatchByKind n bytes arrival s).FlowInv := by
  have dispatched {block : State → State} (keeps : ∀ v : State, v.FlowInv → (block v).FlowInv) :
      (dispatchFrame n block s).FlowInv :=
    keeps _ (((FlowsStand.updDrops n _ s).trans (discardAssembly_flowsStand ..)).flowInv inv)
  unfold dispatchByKind
  split
  · exact dispatched fun v h => (acceptRequest_flowsStand ..).flowInv h
  · exact dispatched fun v h => (takeReply_flowsStand ..).flowInv h
  · exact dispatched fun v h => takeRefTime_flowInv _ _ _ _ h
  · exact dispatched fun v h => (takeMail_flowsStand ..).flowInv h
  · exact dispatched fun v h => h
  all_goals exact (dropFrame_flowsStand ..).flowInv inv

theorem forwardFrame_flowInv (n : Slot) (bytes : List Byte) (arrival : Stamp) (inv : s.FlowInv) :
    (forwardFrame n bytes arrival s).FlowInv := by
  unfold forwardFrame
  dsimp only
  split
  · exact (dropFrame_flowsStand ..).flowInv inv
  split
  · exact dispatchByKind_flowInv n bytes arrival inv
  split
  · exact (forwardData_flowsStand ..).flowInv inv
  · exact (dropFrame_flowsStand ..).flowInv inv

theorem receiveFrame_flowInv (p : Slot) (bytes : List Byte) (a : Assembly) (inv : s.FlowInv) :
    (receiveFrame p bytes a s).FlowInv := by
  have counted : (countLink p (fun c => { c with framesReceived := count32 c.framesReceived }) s).FlowInv :=
    (countLink_flowsStand ..).flowInv inv
  have erred (c : Prop) [Decidable c] (v : State) (h : v.FlowInv) : (if c then countError p v else v).FlowInv := by
    split
    · exact (FlowsStand.updPort p v (by intro; rfl)).flowInv h
    · exact h
  have judged (c : Prop) [Decidable c] (v : State) (h : v.FlowInv) :
      (if c then judgeReturn p a.truncated bytes v else v).FlowInv := by
    split
    · exact judgeReturn_flowInv p _ _ h
    · exact h
  have taken := judged ((s.port p).link = .testing) _ (erred (portTest s p a.truncated bytes = some .badCheck) _ counted)
  unfold receiveFrame
  dsimp only
  split
  · exact (dropFrame_flowsStand ..).flowInv taken
  · exact forwardFrame_flowInv p bytes _ taken

theorem receptionEnd_flowInv (p : Slot) (lanes : List (List Byte)) (inv : s.FlowInv) :
    (receptionEnd p lanes s).FlowInv := by
  unfold receptionEnd
  dsimp only
  split
  · split
    · exact receiveFrame_flowInv p _ _ inv
    · exact inv
  · exact inv

end

end Sys2Proof.Machine
end

section
/-! Every step keeps the invariant of flows. -/

namespace Sys2Proof.Machine

section
variable {s : State}

/-! ### Events -/

theorem begin_flowsStand (s : State) : FlowsStand s s.begin := .of_changes (begin_changes s) rfl

/-- A FREE flow without fields meets any state. -/
theorem Flow.free_meets (fresh : FlowRecord → Suspension) : Flow.free.Meets fresh := by
  refine ⟨iff_of_true rfl rfl, fun r hr => ?_, rfl⟩
  cases hr

theorem powerOn_flowInv (s : State) (lines : PerSlot SlotLines) (inputs : Table 4 Bool) :
    State.FlowInv { State.atPowerOn lines inputs with pending := s.pending, free := s.free } := by
  rw [flowInv_iff]
  intro i
  have free : (State.atPowerOn lines inputs).flow i = Flow.free := Table.read_fill Flow.free i
  rw [show State.flow { State.atPowerOn lines inputs with pending := s.pending, free := s.free } i = Flow.free from free]
  exact Flow.free_meets _

theorem laneTrained_flowInv (p : Slot) (l : Lane) (inv : s.FlowInv) : (laneTrained p l s).FlowInv := by
  have joined : (s.updPort p fun r => { r with trained := r.trained ++ [l] }).FlowInv :=
    (FlowsStand.updPort p s (by intro; rfl)).flowInv inv
  unfold laneTrained
  dsimp only
  split
  · split
    · exact endTraining_flowInv p joined
    · exact joined
  · exact inv

theorem trainingExpiry_flowInv (p : Slot) (inv : s.FlowInv) : (trainingExpiry p s).FlowInv := by
  unfold trainingExpiry
  split
  · exact endTraining_flowInv p inv
  · exact inv

theorem testExpiry_flowInv (p : Slot) (inv : s.FlowInv) : (testExpiry p s).FlowInv := by
  unfold testExpiry
  split
  · exact attemptFails_flowInv p inv
  · exact inv

theorem cellRequest_flowsStand (p : Slot) (s : State) : FlowsStand s (cellRequest p s) := by
  unfold cellRequest
  dsimp only
  split
  · exact .refl s
  · split
    · exact (FlowsStand.updPort p s (by intro; rfl)).trans (reexaminePause_flowsStand ..)
    · exact (FlowsStand.updPort p s (by intro; rfl)).trans (.of_changes (markExhaustion_changes _) rfl)

theorem transmissionEnd_flowsStand (p : Slot) (s : State) : FlowsStand s (transmissionEnd p s) := by
  unfold transmissionEnd
  dsimp only
  split
  · exact (((FlowsStand.updPort p s (by intro; rfl)).trans (.of_changes (updSq_changes _ _ _) rfl)).trans (release_flowsStand ..)).trans
      (arbitrate_flowsStand ..)
  · exact ((FlowsStand.updPort p s (by intro; rfl)).trans (startTest_flowsStand ..)).trans (arbitrate_flowsStand ..)
  · exact .refl s

theorem holdOn_flowsStand (p : Slot) (s : State) : FlowsStand s (holdOn p s) := by
  unfold holdOn
  split
  · exact (FlowsStand.updPort p s (by intro; rfl)).trans (.of_changes (updSq_changes _ _ _) rfl)
  · exact .refl s

theorem holdOff_flowsStand (p : Slot) (s : State) : FlowsStand s (holdOff p s) := by
  unfold holdOff
  split
  · exact ((FlowsStand.updPort p s (by intro; rfl)).trans (.of_changes (updSq_changes _ _ _) rfl)).trans (arbitrate_flowsStand ..)
  · exact .refl s

theorem damagedSymbol_flowsStand (p : Slot) (s : State) : FlowsStand s (damagedSymbol p s) := by
  unfold damagedSymbol
  split
  · exact .refl s
  · exact .updPort p s (by intro; rfl)

theorem holdExpiry_flowInv (p : Slot) (inv : s.FlowInv) : (holdExpiry p s).FlowInv := by
  have stalled (f : SlotQueues → SlotQueues) : (checkDrain p (((flushAll p s).updSq p f).updPort p fun q =>
      { q with stallSeen := true })).FlowInv :=
    checkDrain_flowInv p ((((flushAll_flowsStand ..).trans (.of_changes (updSq_changes _ _ _) rfl)).trans
      (.updPort p _ (by intro; rfl))).flowInv inv)
  unfold holdExpiry
  dsimp only
  split
  · split
    · exact faultSlot_flowInv p _ _ (stalled _)
    · exact stalled _
  · exact inv

theorem localSecond_flowsStand (s : State) :
    FlowsStand s (bufferSecond (forSlots timingSecond (forSlots portSecond s))) := by
  have port (n : Slot) (v : State) : FlowsStand v (portSecond n v) := (samplePoint_flowsStand ..).trans (.updPort n _ (by intro; rfl))
  have timing (n : Slot) (v : State) : FlowsStand v (timingSecond n v) := samplePoint_flowsStand ..
  refine ((FlowsStand.forSlots port s).trans (.forSlots timing _)).trans ?_
  exact (samplePoint_flowsStand ..).trans (.of_changes (with_qm_changes _ _) rfl)

theorem pulseEdge_flowInv (inv : s.FlowInv) : (pulseEdge s).FlowInv := by
  unfold pulseEdge
  split
  · exact inv
  · exact takeEvent_flowInv .P _ ((FlowsStand.updSource .P _ s).flowInv inv)

theorem silenceTimeout_flowInv (src : Source) (inv : s.FlowInv) : (silenceTimeout src s).FlowInv := by
  unfold silenceTimeout
  split
  · exact failSource_flowInv src inv
  · exact inv

theorem holdoffExpiry_flowInv (src : Source) (inv : s.FlowInv) : (holdoffExpiry src s).FlowInv := by
  unfold holdoffExpiry
  split
  · exact examineSelection_flowInv ((setSource_flowsStand ..).flowInv inv)
  · exact inv

theorem holdoverEnd_flowInv (inv : s.FlowInv) : (holdoverEnd s).FlowInv := by
  unfold holdoverEnd
  split
  · exact enterTiming_flowInv _ inv
  · exact inv

theorem rawPresence_flowsStand (n : Slot) (present : Bool) (s : State) : FlowsStand s (rawPresence n present s) := by
  unfold rawPresence
  split
  · exact .refl s
  · exact .updSlot n s (by rfl)

theorem rawLatch_flowsStand (n : Slot) (closed : Bool) (s : State) : FlowsStand s (rawLatch n closed s) := by
  unfold rawLatch
  split
  · exact .refl s
  · exact .updSlot n s (by rfl)

theorem seatCard_flowInv (n : Slot) (inv : s.FlowInv) : (seatCard n s).FlowInv := by
  have seated : (enterInserted n (countSlot n (fun c => { c with insertions := count32 c.insertions }) s)).FlowInv :=
    enterInserted_flowInv n ((countSlot_flowsStand ..).flowInv inv)
  unfold seatCard
  dsimp only
  split
  · split
    · exact enterIdentifying_flowInv n seated
    · exact seated
  · exact inv

theorem presenceDebounced_flowInv (n : Slot) (inv : s.FlowInv) : (presenceDebounced n s).FlowInv := by
  have taken (f : SlotRecord → SlotRecord) (same : ∀ r, (f r).state = r.state) : (s.updSlot n f).FlowInv :=
    (FlowsStand.updSlot n s (same _)).flowInv inv
  unfold presenceDebounced
  dsimp only
  split
  · split
    · exact seatCard_flowInv n (taken _ fun _ => rfl)
    · split
      · exact taken _ fun _ => rfl
      · exact toEmpty_flowInv n (taken _ fun _ => rfl)
  · exact inv

theorem latchDebounced_flowInv (n : Slot) (inv : s.FlowInv) : (latchDebounced n s).FlowInv := by
  have closed {v : State} (h : v.FlowInv) : (latchClosed n v).FlowInv := by
    unfold latchClosed
    split
    case h_1 | h_2 | h_3 => exact enterIdentifying_flowInv n h
    all_goals exact h
  have opened {v : State} (h : v.FlowInv) : (latchOpened n v).FlowInv := by
    unfold latchOpened
    split
    case h_1 | h_2 => exact enterDraining_flowInv n h
    case h_3 | h_4 | h_5 | h_6 => exact backToInserted_flowInv n h
    all_goals exact h
  have taken (f : SlotRecord → SlotRecord) (same : ∀ r, (f r).state = r.state) : (s.updSlot n f).FlowInv :=
    (FlowsStand.updSlot n s (same _)).flowInv inv
  unfold latchDebounced
  dsimp only
  split
  · split
    · exact closed (taken _ fun _ => rfl)
    · exact opened (taken _ fun _ => rfl)
  · exact inv

theorem powerGood_flowInv (n : Slot) (inv : s.FlowInv) : (powerGood n s).FlowInv := by
  have taken : (s.updSlot n fun r => { r with lines := { r.lines with powerGood := true } }).FlowInv :=
    (FlowsStand.updSlot n s (by rfl)).flowInv inv
  unfold powerGood
  dsimp only
  split
  · exact enterLinking_flowInv n taken
  · exact taken

theorem powerLost_flowInv (n : Slot) (inv : s.FlowInv) : (powerLost n s).FlowInv := by
  have taken : (s.updSlot n fun r => { r with lines := { r.lines with powerGood := false } }).FlowInv :=
    (FlowsStand.updSlot n s (by rfl)).flowInv inv
  unfold powerLost
  dsimp only
  split
  · exact faultSlot_flowInv n _ _ taken
  · exact taken

theorem fastFault_flowInv (n : Slot) (active : Bool) (inv : s.FlowInv) : (fastFault n active s).FlowInv := by
  have taken : (s.updSlot n fun r => { r with lines := { r.lines with fastFault := active } }).FlowInv :=
    (FlowsStand.updSlot n s (by rfl)).flowInv inv
  unfold fastFault
  dsimp only
  split
  · exact faultSlot_flowInv n _ _ taken
  · exact taken

theorem softStartExpiry_flowInv (n : Slot) (inv : s.FlowInv) : (softStartExpiry n s).FlowInv := by
  unfold softStartExpiry
  split
  · exact faultSlot_flowInv n _ _ inv
  · exact inv

theorem drainExpiry_flowInv (n : Slot) (inv : s.FlowInv) : (drainExpiry n s).FlowInv := by
  unfold drainExpiry
  split
  · exact timeOutDrain_flowInv n inv
  · exact inv

/-! ### The sideband and the converter -/

theorem settleEntry_flowsStand (outcome : SidebandOutcome) (map : AckMap) (bytes : List Byte) (s : State) :
    FlowsStand s (settleEntry outcome map bytes s).1 := by
  have side (f : Sideband → Sideband) (v : State) : FlowsStand v (v.updSide f) := .of_changes (updSide_changes f v) rfl
  have counted (n : Slot) (f : SidebandCounters → SidebandCounters) (v : State) : FlowsStand v (countSideband n f v) :=
    side _ v
  have recorded (n : Slot) (o : SidebandOutcome) (v : State) : FlowsStand v (recordAttempt n o map v) := side _ v
  have ended (n : Slot) (f : Sideband → Sideband) (g : SidebandCounters → SidebandCounters) :
      FlowsStand s (countSideband n g ((endTransaction s).updSide f)) :=
    ((FlowsStand.of_changes (endTransaction_changes s) rfl).trans (side f _)).trans (counted ..)
  have failure (n : Slot) (attempt : Nat) (kind : SidebandOutcome) (v : State) :
      FlowsStand v (settleFailure n attempt kind v).1 := by
    unfold settleFailure
    split
    · dsimp only
      exact (counted ..).trans (side ..)
    · exact counted ..
  unfold settleEntry
  split
  · exact .refl s
  · exact (ended ..).trans (complete_flowsStand ..)
  · dsimp only
    split
    · split
      · exact (ended ..).trans (recorded ..)
      · exact ((ended ..).trans (recorded ..)).trans (failure ..)
    · exact ((ended ..).trans (recorded ..)).trans (failure ..)

theorem startTransaction_flowsStand (s : State) : FlowsStand s (startTransaction s) :=
  .of_changes (startTransaction_changes s) rfl

theorem afterSettling_flowInv (r : State × Option (Slot × IdentityOutcome)) (inv : r.1.FlowInv) :
    (afterSettling r).FlowInv := by
  unfold afterSettling
  refine (startTransaction_flowsStand _).flowInv ?_
  split
  · exact takeIdentity_flowInv _ _ inv
  · exact inv

theorem transactionEnd_flowInv (e : SidebandEnd) (inv : s.FlowInv) : (transactionEnd e s).FlowInv := by
  unfold transactionEnd
  split
  · split
    · exact afterSettling_flowInv _ ((settleEntry_flowsStand ..).flowInv inv)
    · exact inv
  · exact inv

theorem transactionHeld_flowInv (phase : SidebandPhase) (inv : s.FlowInv) : (transactionHeld phase s).FlowInv := by
  unfold transactionHeld
  split
  · split
    · split
      · exact ((FlowsStand.of_changes (endTransaction_changes s) rfl).trans (startTransaction_flowsStand _)).flowInv inv
      · exact afterSettling_flowInv _ ((settleEntry_flowsStand ..).flowInv inv)
    · exact inv
  · exact inv

theorem convert_flowInv (c : Channel) (r : Nat) (inv : s.FlowInv) : (convert c r s).FlowInv := by
  have reported {v : State} (id : PointId) (old : PointState) (h : v.FlowInv) : (criticalReports id old v).FlowInv := by
    unfold criticalReports
    refine criticalEntered_flowInv id old ?_
    split
    · exact updateBudget_flowInv h
    · exact h
  unfold convert
  refine reported _ _ ((FlowsStand.of_changes (updMon_changes _ _) rfl).flowInv ?_)
  refine ((samplePoint_flowsStand ..).trans (samplePoint_flowsStand ..)).flowInv ?_
  exact (FlowsStand.of_changes (updChannel_changes c _ s) rfl).flowInv inv

theorem conversionComplete_flowInv (result : BitVec 10) (inv : s.FlowInv) : (conversionComplete result s).FlowInv := by
  unfold conversionComplete
  split
  · exact convert_flowInv _ _ inv
  · exact inv

theorem rawInput_flowsStand (i : Fin 4) (isOpen : Bool) (s : State) : FlowsStand s (rawInput i isOpen s) := by
  unfold rawInput
  split
  · exact .refl s
  · exact .of_changes (updInput_changes i _ s) rfl

theorem inputDebounced_flowsStand (i : Fin 4) (s : State) : FlowsStand s (inputDebounced i s) := by
  unfold inputDebounced
  dsimp only
  split
  · exact (FlowsStand.of_changes (updInput_changes i _ s) rfl).trans (reportCondition_flowsStand ..)
  · exact .refl s

/-! ### HUB_RESET and the counters -/

theorem clearBlockCounters_flowsStand (s : State) : FlowsStand s (clearBlockCounters s) := by
  refine ⟨fun i => ?_, freshSuspension_congr (fun n => ?_) (fun p => ?_) rfl rfl rfl⟩
  · rw [show (clearBlockCounters s).flow i = { s.flow i with forwarded := 0, dropped := 0 } from Table.read_mapAll _ _ i]
  · unfold State.isActive
    rw [show (clearBlockCounters s).slot n = { s.slot n with counters := .zero } from Table.read_mapAll _ _ n]
  · rw [show (clearBlockCounters s).port p = { s.port p with counters := ⟨0, 0, 0, 0⟩ } from Table.read_mapAll _ _ p]

theorem restartBringUp_flowInv (p : Slot) (inv : s.FlowInv) : (restartBringUp p s).FlowInv := by
  have again : ((dropTests p s).updPort p fun q => { q with attempt := 1, trainingDeadline := none }).FlowInv :=
    ((dropTests_flowsStand ..).trans (.updPort p _ (by intro; rfl))).flowInv inv
  unfold restartBringUp
  split
  case h_1 | h_2 => exact beginTraining_flowInv p again
  all_goals exact inv

theorem resetTraffic_flowInv (inv : s.FlowInv) : (resetTraffic s).FlowInv := by
  have queues (p : Slot) (v : State) : FlowsStand v (resetQueues p v) :=
    (flushAll_flowsStand ..).trans (.of_changes (updSq_changes _ _ _) rfl)
  have port (p : Slot) (v : State) : FlowsStand v (resetPort p v) := (discardAssembly_flowsStand ..).trans (.updPort p _ (by intro; rfl))
  unfold resetTraffic
  refine forSlots_flowInv (fun p _ h => restartBringUp_flowInv p h) ?_
  refine (FlowsStand.forSlots (fun n v => setPaused_flowsStand v n false) _).flowInv ?_
  refine (FlowsStand.of_changes (with_qm_changes _ _) rfl).flowInv ?_
  exact ((FlowsStand.forSlots queues s).trans (.forSlots port _)).flowInv inv

theorem resetBlocks_flowInv (inv : s.FlowInv) : (resetBlocks s).FlowInv := by
  have calendar (v : State) : FlowsStand v (resetCalendar v) := .updCal v (by rfl)
  unfold resetBlocks
  refine checkDrains_flowInv ((clearBlockCounters_flowsStand _).flowInv ?_)
  refine (FlowsStand.of_changes (resetAlarms_changes _) rfl).flowInv ?_
  refine (FlowsStand.of_changes (resetSideband_changes _) rfl).flowInv ?_
  refine (FlowsStand.of_changes (abandonProbes_changes _) rfl).flowInv ?_
  exact (calendar _).flowInv (resetTraffic_flowInv ((FlowsStand.of_changes (updAgent_changes _ s) rfl).flowInv inv))

theorem resetAgent_flowsStand (s : State) : FlowsStand s (resetAgent s) := by
  have agent (f : Agent → Agent) (v : State) : FlowsStand v (v.updAgent f) := .of_changes (updAgent_changes f v) rfl
  unfold resetAgent
  refine .trans ?_ (agent _ _)
  refine .trans ?_ (.forEach (fun r v => answer_flowsStand ..) _ _)
  refine .trans ?_ (agent _ _)
  exact .forEach (fun r v => complete_flowsStand ..) _ _

/-! ### Requests on flows and groups -/

/-- A flow that is written over keeps the invariant where what it is written with meets it. -/
theorem updFlow_flowInv {i : Fin 255} {g : Flow → Flow} (inv : s.FlowInv) (meets : (g (s.flow i)).Meets (freshSuspension s)) :
    (s.updFlow i g).FlowInv := by
  have fresh (r : FlowRecord) : freshSuspension (s.updFlow i g) r = freshSuspension s r :=
    freshSuspension_congr (fun _ => rfl) (fun _ => rfl) rfl rfl rfl r
  rw [flowInv_iff] at inv ⊢
  intro j
  rw [show freshSuspension (s.updFlow i g) = freshSuspension s from funext fresh]
  by_cases h : j = i
  · subst h
    rw [State.flow_updFlow_same]
    exact meets
  · rw [State.flow_updFlow_ne _ _ _ h]
    exact inv j

/-- The evaluation of FIT in a state that meets the invariant. -/
theorem State.FlowInv.evaluateFit (inv : s.FlowInv) : (evaluateFit s).FlowInv :=
  evaluateFit_flowInv (inv.butFit (fun _ => rfl) (fun _ => rfl) rfl)

theorem putFlow_flowInv (i : Fin 255) (r : FlowRecord) (inv : s.FlowInv) : (putFlow i r s).1.FlowInv := by
  have written : (s.updFlow i fun _ => ⟨.disabled, some r, freshSuspension s r, 0, 0⟩).FlowInv := by
    refine updFlow_flowInv inv ⟨by simp, fun q hq => ?_, rfl⟩
    cases hq
    rfl
  unfold putFlow
  dsimp only [okWith]
  split
  · exact written.evaluateFit
  · exact written

theorem enableFlow_flowInv (i : Fin 255) (inv : s.FlowInv) : (enableFlow i s).1.FlowInv := by
  have enabled {v : State} (h : v.FlowInv) (state : (v.flow i).state = .disabled) : (v.updFlow i Flow.enable).FlowInv := by
    obtain ⟨written, set, -⟩ := (flowInv_iff v).1 h i
    refine updFlow_flowInv h ⟨?_, set, ?_⟩
    · rw [state] at written
      unfold Flow.enable
      cases (v.flow i).suspension.isEmpty <;> simpa using written
    · unfold Flow.enable Flow.settle Flow.enabled
      cases (v.flow i).suspension.isEmpty <;> simp
  unfold enableFlow
  split
  · exact inv
  · next state =>
    dsimp only [okWith]
    refine (reportCondition_flowsStand ..).flowInv ?_
    split
    · refine enabled inv.evaluateFit ?_
      unfold evaluateFit
      rw [resuspendFlows_flow]
      unfold Flow.resuspend Flow.settle Flow.enabled
      cases (s.flow i).fields <;> simp [state]
    · exact enabled inv state
  · exact inv
  · exact inv

theorem disableFlow_flowInv (i : Fin 255) (inv : s.FlowInv) : (disableFlow i s).1.FlowInv := by
  have disabled (enabled : (s.flow i).state ≠ .free) :
      (reexamineFlows (s.updFlow i fun f => { f with state := .disabled })).FlowInv := by
    obtain ⟨written, set, -⟩ := (flowInv_iff s).1 inv i
    refine (reportCondition_flowsStand ..).flowInv (updFlow_flowInv inv ⟨?_, set, rfl⟩)
    simpa using (not_congr written).2 enabled
  unfold disableFlow
  split
  · exact inv
  · exact inv
  · next state => exact disabled (by simp [state])
  · next state => exact disabled (by simp [state])

theorem deleteFlow_flowInv (i : Fin 255) (inv : s.FlowInv) : (deleteFlow i s).1.FlowInv := by
  unfold deleteFlow
  split
  · exact updFlow_flowInv inv (Flow.free_meets _)
  · exact inv

/-- A group that no written SAMPLE flow names is read by no FIT. -/
theorem fits_of_unnamed {t : State} {g : Fin 16} (groups : ∀ h, h ≠ g → t.groupMembers h = s.groupMembers h)
    (active : ∀ n, t.isActive n = s.isActive n) (width : ∀ p, t.port p = s.port p) (cal : t.cal = s.cal)
    {r : FlowRecord} (other : r.dest ≠ .group g) : fits t t.cal.active r = fits s s.cal.active r := by
  have ports : t.destPorts r = s.destPorts r := by
    unfold State.destPorts
    cases dest : r.dest with
    | slot n => simp only [active]
    | group h =>
      have named : h ≠ g := fun e => other (dest.trans (by rw [e]))
      simp only [active, groups h named]
  unfold fits misfit fitsPort
  simp only [ports, width, cal]

theorem writeGroup_flowInv (g : Fin 16) (ns : List Slot) (inv : s.FlowInv) : (writeGroup g ns s).1.FlowInv := by
  let t : State := { s with fwd := { s.fwd with groups := s.fwd.groups.write g (Table.build fun n => ns.contains n) } }
  have state : (writeGroup g ns s).1 = if sampleFlowNames t g then evaluateFit t else t := rfl
  rw [state]
  split
  · exact evaluateFit_flowInv (inv.butFit (fun _ => rfl) (fun _ => rfl) rfl)
  · next none =>
    rw [flowInv_iff] at inv ⊢
    intro i
    obtain ⟨written, set, settled⟩ := inv i
    refine ⟨written, fun r hr => (set r hr).trans ?_, settled⟩
    have unnamed : r.cls = .sample → r.dest ≠ .group g := fun sample dest => by
      refine none (List.any_eq_true.2 ⟨s.flow i, ?_, ?_⟩)
      · exact Vector.mem_toList_iff.2 (Vector.getElem_mem i.isLt)
      · simp [show (s.flow i).fields = some r from hr, sample, dest]
    have fit : (r.cls == .sample && !fits t t.cal.active r) = (r.cls == .sample && !fits s s.cal.active r) := by
      by_cases sample : r.cls = .sample
      · have others (h : Fin 16) (other : h ≠ g) : t.groupMembers h = s.groupMembers h := by
          unfold State.groupMembers
          rw [show t.fwd.groups.read h = s.fwd.groups.read h from Table.read_write_ne _ _ other]
        rw [fits_of_unnamed others (fun _ => rfl) (fun _ => rfl) rfl (unnamed sample)]
      · rw [show (r.cls == .sample) = false by simpa using sample]
        rfl
    exact congrArg (fun b => { freshSuspension s r with fit := b }) fit.symm

/-! ### Requests on other blocks -/

theorem portReset_flowInv (n : Slot) (inv : s.FlowInv) : (portReset n s).1.FlowInv := by
  have linked : (enterLinking n s).FlowInv := enterLinking_flowInv n inv
  unfold portReset
  split
  · dsimp only [okWith]
    exact linked
  · exact inv

theorem slotAdmit_flowInv (n : Slot) (inv : s.FlowInv) : (slotAdmit n s).1.FlowInv := by
  have admitted : (s.updSlot n fun r => { r with admitted := true }).FlowInv := (FlowsStand.updSlot n s (by rfl)).flowInv inv
  unfold slotAdmit
  dsimp only [okWith]
  split
  case h_1 => exact changeSlot_flowInv n .active none admitted
  case h_2 | h_3 | h_4 | h_5 => exact admitted
  all_goals exact inv

theorem slotDrain_flowInv (n : Slot) (inv : s.FlowInv) : (slotDrain n s).1.FlowInv := by
  unfold slotDrain
  split
  case h_1 | h_2 => exact enterDraining_flowInv n inv
  all_goals exact inv

theorem slotRetry_flowInv (n : Slot) (inv : s.FlowInv) : (slotRetry n s).1.FlowInv := by
  unfold slotRetry
  split
  · exact enterIdentifying_flowInv n inv
  · exact inv

theorem rawRead_flowInv (r : Request) (offset length : Byte) (n : Slot) (inv : s.FlowInv) :
    (rawRead r offset length n s).1.FlowInv := by
  unfold rawRead
  split
  · exact inv
  split
  · exact inv
  split
  · exact inv
  · exact ((FlowsStand.of_changes (addInFlight_changes .rawRead r s) rfl).trans
      (.of_changes (joinSideband_changes _ _) rfl)).flowInv inv

theorem setBudget_flowInv (mains battery : BitVec 16) (inv : s.FlowInv) : (setBudget mains battery s).1.FlowInv :=
  servePower_flowInv ((FlowsStand.with_slots rfl).flowInv inv)

theorem setQuota_flowInv (quota y x : BitVec 16) (n : Slot) (inv : s.FlowInv) : (setQuota quota y x n s).1.FlowInv :=
  (reexaminePause_flowsStand ..).flowInv ((FlowsStand.of_changes (updQueueConfig_changes n _ s) rfl).flowInv inv)

theorem setCycle_flowInv (cycle : BitVec 32) (inv : s.FlowInv) : (setCycle cycle s).1.FlowInv := by
  unfold setCycle
  split
  · exact inv
  · exact (FlowsStand.updCal s (by rfl)).flowInv inv

theorem putWindows_flowInv (windows : List RawWindow) (p : Slot) (inv : s.FlowInv) :
    (putWindows windows p s).1.FlowInv := by
  unfold putWindows
  split
  · exact inv
  · exact (FlowsStand.updCal s (by rfl)).flowInv inv

theorem commitCalendar_flowInv (r : Request) (inv : s.FlowInv) : (commitCalendar r s).1.FlowInv := by
  unfold commitCalendar
  split
  · exact inv
  · split
    case h_4 => exact ((FlowsStand.of_changes (addInFlight_changes .commit r s) rfl).trans (.updCal _ (by rfl))).flowInv inv
    all_goals exact inv

theorem applySource_flowInv (c : SourceConfig) (inv : s.FlowInv) : (applySource c s).FlowInv := by
  have set : (s.updTrk fun k => { k with source := c }).FlowInv := (FlowsStand.updTrk s (by rfl)).flowInv inv
  have provided : (if c.nSlot = s.trk.source.nSlot then s.updTrk fun k => { k with source := c }
      else reworkProvider .N (s.updTrk fun k => { k with source := c })).FlowInv := by
    split
    · exact set
    · exact (reworkProvider_flowsStand ..).flowInv set
  have rated (c : Prop) [Decidable c] {v : State} (h : v.FlowInv) : (if c then failSource .N v else v).FlowInv := by
    split
    · exact failSource_flowInv .N h
    · exact h
  exact examineSelection_flowInv (rated _ provided)

theorem setSourceValues_flowInv (order revertive nSlot nRate : Byte) (comp : BitVec 16) (jumpLimit : BitVec 32)
    (inv : s.FlowInv) : (setSourceValues order revertive nSlot nRate comp jumpLimit s).1.FlowInv := by
  unfold setSourceValues withValue
  split
  · split
    · dsimp only
      split
      · exact inv
      · exact applySource_flowInv _ inv
    · exact inv
  · exact inv

theorem applyServo_flowInv (c : ServoConfig) (inv : s.FlowInv) : (applyServo c s).FlowInv := by
  have set : (s.updTrk fun k => { k with servo := c, integral := clampFreq c.fLimit k.integral }).FlowInv :=
    (FlowsStand.updTrk s (by rfl)).flowInv inv
  have ended (v : State) (h : v.FlowInv) : (if holdoverOver v = true then enterTiming .freerun v else v).FlowInv := by
    split
    · exact enterTiming_flowInv _ h
    · exact h
  unfold applyServo
  refine ended _ ?_
  split
  · exact set
  · exact (setFreq_flowsStand ..).flowInv set

theorem monitorStart_flowInv (mode trigger single : Byte) (scan : BitVec 16) (inv : s.FlowInv) :
    (monitorStart mode trigger single scan s).1.FlowInv := by
  have mon (f : Monitor → Monitor) : (s.updMon f).FlowInv := (FlowsStand.of_changes (updMon_changes f s) rfl).flowInv inv
  unfold monitorStart
  split
  · exact mon _
  · split
    · split
      · exact inv
      · split
        · exact mon _
        · exact inv
    · exact inv

theorem setPoint_flowInv (id : PointId) (v : PointValues) (inv : s.FlowInv) : (setPoint id v s).1.FlowInv := by
  have extra {u : State} (k : Nat) (h : u.FlowInv) : (applyExtra id k u).FlowInv := by
    unfold applyExtra
    split
    · exact (FlowsStand.updPort _ u (by intro; rfl)).flowInv h
    · exact ((FlowsStand.of_changes (updInput_changes _ _ u) rfl).trans (reportCondition_flowsStand ..)).flowInv h
    · exact h
  have budget {u : State} (h : u.FlowInv) : (if id = rectifierPoint then updateBudget u else u).FlowInv := by
    split
    · exact updateBudget_flowInv h
    · exact h
  refine budget (extra _ ((changePoint_flowsStand ..).flowInv ?_))
  exact ((FlowsStand.of_changes (updAlarm_changes _ s) rfl).trans (.of_changes (setRelays_changes _) rfl)).flowInv inv

theorem ackPoint_flowInv (id : PointId) (inv : s.FlowInv) : (ackPoint id s).1.FlowInv := by
  unfold ackPoint
  dsimp only [okWith]
  split
  · exact updateBudget_flowInv ((changePoint_flowsStand ..).flowInv inv)
  · exact (changePoint_flowsStand ..).flowInv inv

theorem alarmWait_flowInv (r : Request) (inv : s.FlowInv) : (alarmWait r s).1.FlowInv := by
  have alarm (f : AlarmUnit → AlarmUnit) (v : State) : FlowsStand v (v.updAlarm f) := .of_changes (updAlarm_changes f v) rfl
  unfold alarmWait
  dsimp only
  split
  · exact (alarm _ s).flowInv inv
  · split
    · exact ((FlowsStand.of_changes (addInFlight_changes .wait r s) rfl).trans (alarm _ _)).flowInv inv
    · exact inv

/-! ### Requests as they are taken -/

/-- What an effect that keeps the invariant answers with a state does. -/
theorem request_flowInv {i : Instr} {effect : Request → State → Effect} {t : State} (inv : s.FlowInv)
    (keeps : ∀ r (v : State), v.FlowInv → (effect r v).1.FlowInv) (taken : request i effect s = .next t) : t.FlowInv := by
  have taking : FlowsStand s s.taking := ⟨fun _ => rfl, freshSuspension_congr (fun _ => rfl) (fun _ => rfl) rfl rfl rfl⟩
  by_cases takes : ∃ r, Takes s i r
  · obtain ⟨r, takes⟩ := takes
    rw [request_takes takes] at taken
    have kept : (effect r s.taking).1.FlowInv := keeps r _ (taking.flowInv inv)
    cases taken
    split
    · exact (answer_flowsStand ..).flowInv kept
    · exact kept
  · rw [request_waits (not_exists.1 takes)] at taken
    cases taken
    exact (begin_flowsStand s).flowInv inv

section
variable {f : Slot → State → Effect} {b : Byte}

theorem withSlot_flowInv (keeps : ∀ n (v : State), v.FlowInv → (f n v).1.FlowInv) (inv : s.FlowInv) :
    (withSlot b f s).1.FlowInv := by
  unfold withSlot
  split
  · exact keeps _ _ inv
  · exact inv

theorem withValue_flowInv {α : Type} {o : Option α} {g : α → State → Effect}
    (keeps : ∀ a (v : State), v.FlowInv → (g a v).1.FlowInv) (inv : s.FlowInv) : (withValue o g s).1.FlowInv := by
  unfold withValue
  split
  · exact keeps _ _ inv
  · exact inv

theorem withFlow_flowInv {g : Fin 255 → State → Effect} (keeps : ∀ i (v : State), v.FlowInv → (g i v).1.FlowInv)
    (inv : s.FlowInv) : (withFlow b g s).1.FlowInv := by
  unfold withFlow
  split
  · exact keeps _ _ inv
  · exact inv

theorem withGroup_flowInv {g : Fin 16 → State → Effect} (keeps : ∀ i (v : State), v.FlowInv → (g i v).1.FlowInv)
    (inv : s.FlowInv) : (withGroup b g s).1.FlowInv := by
  unfold withGroup
  split
  · exact keeps _ _ inv
  · exact inv

theorem withPoint_flowInv {g : PointId → State → Effect} (keeps : ∀ i (v : State), v.FlowInv → (g i v).1.FlowInv)
    (inv : s.FlowInv) : (withPoint b g s).1.FlowInv := by
  unfold withPoint
  split
  · exact keeps _ _ inv
  · exact inv

end

end

end Sys2Proof.Machine
end

section
/-! Every command and every step keeps the invariant of flows. -/

namespace Sys2Proof.Machine

/-- What a command that answers a state leaves is that state. -/
theorem flowInv_of_next {u t : State} (inv : u.FlowInv) (next : (.next u : Result) = .next t) : t.FlowInv := by
  cases next
  exact inv

/-- Every command keeps the invariant of flows. -/
theorem exec_flowInv (i : Instr) (s t : State) (inv : s.FlowInv) (next : exec i s = .next t) : t.FlowInv := by
  have begun : s.begin.FlowInv := (begin_flowsStand s).flowInv inv
  cases i
  case powerOn => exact flowInv_of_next (powerOn_flowInv s _ _) next
  case laneTrained p l => exact flowInv_of_next (laneTrained_flowInv p l begun) next
  case trainingDeadlineExpiry p => exact flowInv_of_next (checkDrains_flowInv (trainingExpiry_flowInv p begun)) next
  case testDeadlineExpiry p => exact flowInv_of_next (checkDrains_flowInv (testExpiry_flowInv p begun)) next
  case laneFailure p l => exact flowInv_of_next (checkDrains_flowInv (failLane_flowInv p l begun)) next
  case cellRequest p => exact flowInv_of_next ((cellRequest_flowsStand p _).flowInv begun) next
  case frameReceptionEnd p lanes =>
    exact flowInv_of_next (checkDrains_flowInv (receptionEnd_flowInv p lanes begun)) next
  case transmissionEnd p =>
    exact flowInv_of_next (checkDrains_flowInv ((transmissionEnd_flowsStand p _).flowInv begun)) next
  case holdOn p => exact flowInv_of_next ((holdOn_flowsStand p _).flowInv begun) next
  case holdOff p => exact flowInv_of_next ((holdOff_flowsStand p _).flowInv begun) next
  case damagedSymbol p => exact flowInv_of_next ((damagedSymbol_flowsStand p _).flowInv begun) next
  case holdTimerExpiry p => exact flowInv_of_next (holdExpiry_flowInv p begun) next
  case reserveWaitingGrant => exact flowInv_of_next ((serveReserve_flowsStand _ _).flowInv begun) next
  case localSecond =>
    exact flowInv_of_next ((((localSecond_flowsStand _).trans (.of_changes (updMon_changes _ _) rfl)).trans
      (.of_changes (updAgent_changes _ _) rfl)).flowInv begun) next
  case calendarSwap =>
    have swapped : (if s.begin.cal.arming.isSome then checkDrains (arbitrateAll (swapBanks s.begin))
        else s.begin).FlowInv := by
      split
      · exact checkDrains_flowInv ((arbitrateAll_flowsStand _).flowInv (swapBanks_flowInv begun))
      · exact begun
    exact flowInv_of_next swapped next
  case windowOpen p => exact flowInv_of_next ((arbitrate_flowsStand _ p).flowInv begun) next
  case windowEnd p => exact flowInv_of_next ((arbitrate_flowsStand _ p).flowInv begun) next
  case hubSecond => exact flowInv_of_next ((FlowsStand.of_changes (updMon_changes _ _) rfl).flowInv begun) next
  case timingPulseEdge => exact flowInv_of_next (checkDrains_flowInv (pulseEdge_flowInv begun)) next
  case silenceTimeout src => exact flowInv_of_next (silenceTimeout_flowInv src begun) next
  case holdoffExpiry src => exact flowInv_of_next (holdoffExpiry_flowInv src begun) next
  case holdoverLimitReached => exact flowInv_of_next (holdoverEnd_flowInv begun) next
  case probeTick =>
    exact flowInv_of_next (((FlowsStand.of_changes (with_delay_changes _ _) rfl).trans
      (.forSlots (fun n v => probeClient_flowsStand v n) _)).flowInv begun) next
  case markTick =>
    exact flowInv_of_next (((FlowsStand.of_changes (with_delay_changes _ _) rfl).trans
      (.forSlots (fun n v => markClient_flowsStand v n) _)).flowInv begun) next
  case rawPresenceChange n present => exact flowInv_of_next ((rawPresence_flowsStand n present _).flowInv begun) next
  case presenceDebounced n => exact flowInv_of_next (presenceDebounced_flowInv n begun) next
  case rawLatchChange n closed => exact flowInv_of_next ((rawLatch_flowsStand n closed _).flowInv begun) next
  case latchDebounced n => exact flowInv_of_next (latchDebounced_flowInv n begun) next
  case powerGoodTrue n => exact flowInv_of_next (powerGood_flowInv n begun) next
  case powerGoodLost n => exact flowInv_of_next (powerLost_flowInv n begun) next
  case fastFault n active => exact flowInv_of_next (fastFault_flowInv n active begun) next
  case softStartExpiry n => exact flowInv_of_next (softStartExpiry_flowInv n begun) next
  case drainTimeout n => exact flowInv_of_next (drainExpiry_flowInv n begun) next
  case sidebandTransactionEnd e => exact flowInv_of_next (transactionEnd_flowInv e begun) next
  case holdTimeout phase => exact flowInv_of_next (transactionHeld_flowInv phase begun) next
  case conversionComplete result => exact flowInv_of_next (conversionComplete_flowInv result begun) next
  case rawExtInputChange x isOpen => exact flowInv_of_next ((rawInput_flowsStand x isOpen _).flowInv begun) next
  case extInputDebounced x => exact flowInv_of_next ((inputDebounced_flowsStand x _).flowInv begun) next
  case supplyLoss =>
    exact flowInv_of_next (((FlowsStand.of_changes (updAlarm_changes _ _) rfl).trans
      (.of_changes (setRelays_changes _) rfl)).flowInv begun) next
  case hubReset =>
    refine request_flowInv inv (fun _ v h => ?_) next
    have blocks : (resetBlocks v).FlowInv := resetBlocks_flowInv h
    dsimp only [okWith]
    exact (resetAgent_flowsStand (resetBlocks v)).flowInv blocks
  case sidebandRead slot offset length =>
    exact request_flowInv inv (fun r _ h => withSlot_flowInv (fun n _ => rawRead_flowInv r offset length n) h) next
  case slotAdmit => exact request_flowInv inv (fun _ _ h => withSlot_flowInv (fun n _ => slotAdmit_flowInv n) h) next
  case slotDrain => exact request_flowInv inv (fun _ _ h => withSlot_flowInv (fun n _ => slotDrain_flowInv n) h) next
  case slotRetry => exact request_flowInv inv (fun _ _ h => withSlot_flowInv (fun n _ => slotRetry_flowInv n) h) next
  case portReset => exact request_flowInv inv (fun _ _ h => withSlot_flowInv (fun n _ => portReset_flowInv n) h) next
  case setAdmission =>
    exact request_flowInv inv (fun _ _ h => withValue_flowInv
      (fun manual v k => (FlowsStand.with_slots (s := v) rfl).flowInv k) h) next
  case setBudget mains battery => exact request_flowInv inv (fun _ _ h => setBudget_flowInv mains battery h) next
  case writeFlow =>
    refine request_flowInv inv (fun _ _ h => withFlow_flowInv (fun f v k => ?_) h) next
    unfold writeFlow
    split
    · exact k
    · exact withValue_flowInv (fun r _ => putFlow_flowInv f r) k
  case enableFlow => exact request_flowInv inv (fun _ _ h => withFlow_flowInv (fun f _ => enableFlow_flowInv f) h) next
  case disableFlow => exact request_flowInv inv (fun _ _ h => withFlow_flowInv (fun f _ => disableFlow_flowInv f) h) next
  case deleteFlow => exact request_flowInv inv (fun _ _ h => withFlow_flowInv (fun f _ => deleteFlow_flowInv f) h) next
  case readFlow flow =>
    refine request_flowInv inv (fun _ _ h => ?_) next
    unfold readFlow
    split <;> exact h
  case writeGroup group members =>
    exact request_flowInv inv (fun _ v h => withGroup_flowInv (fun g _ => withValue_flowInv fun ns _ =>
      writeGroup_flowInv g ns) ((FlowsStand.of_changes (drawn_changes v) rfl).flowInv h)) next
  case readGroup => exact request_flowInv inv (fun _ _ h => withGroup_flowInv (fun _ _ k => k) h) next
  case setQuota slot quota y x =>
    exact request_flowInv inv (fun _ _ h => withSlot_flowInv (fun n _ => setQuota_flowInv quota y x n) h) next
  case setSampleLimit =>
    exact request_flowInv inv (fun _ _ h => withSlot_flowInv
      (fun n v k => ((FlowsStand.of_changes (updQueueConfig_changes n _ v) rfl).flowInv k)) h) next
  case setHold =>
    exact request_flowInv inv (fun _ _ h => withSlot_flowInv
      (fun n v k => ((FlowsStand.of_changes (updQueueConfig_changes n _ v) rfl).flowInv k)) h) next
  case clearCounters =>
    exact request_flowInv inv (fun _ v h => ((clearBlockCounters_flowsStand v).trans
      (.of_changes (updAgent_changes _ _) rfl)).flowInv h) next
  case setCycle cycle => exact request_flowInv inv (fun _ _ h => setCycle_flowInv cycle h) next
  case writeWindows port windows =>
    refine request_flowInv inv (fun _ _ h => ?_) next
    unfold writeWindows
    split
    · exact h
    · exact withSlot_flowInv (fun p _ => putWindows_flowInv windows p) h
  case readWindows =>
    exact request_flowInv inv (fun _ _ h => withSlot_flowInv (fun _ _ => withValue_flowInv fun _ _ k => k) h) next
  case commitCalendar => exact request_flowInv inv (fun r _ h => commitCalendar_flowInv r h) next
  case setSource =>
    exact request_flowInv inv (fun _ _ h => setSourceValues_flowInv _ _ _ _ _ _ h) next
  case setServo => exact request_flowInv inv (fun _ _ h => applyServo_flowInv _ h) next
  case setProbe =>
    exact request_flowInv inv (fun _ v h => (FlowsStand.of_changes (with_delay_changes v _) rfl).flowInv h) next
  case setAsymmetry =>
    exact request_flowInv inv (fun _ _ h => withSlot_flowInv
      (fun n v k => ((FlowsStand.of_changes (updDelay_changes n _ v) rfl).flowInv k)) h) next
  case setThresholds =>
    refine request_flowInv inv (fun _ _ h => ?_) next
    split
    · next c _ =>
      exact withValue_flowInv (fun _ v k => (FlowsStand.of_changes (updChannel_changes c _ v) rfl).flowInv k) h
    · exact h
  case monitorStart => exact request_flowInv inv (fun _ _ h => monitorStart_flowInv _ _ _ _ h) next
  case monitorStop =>
    exact request_flowInv inv (fun _ v h => (FlowsStand.of_changes (updMon_changes _ v) rfl).flowInv h) next
  case setAlarmPoint =>
    exact request_flowInv inv (fun _ _ h => withPoint_flowInv (fun id _ => withValue_flowInv fun v _ =>
      setPoint_flowInv id v) h) next
  case readAlarms point =>
    refine request_flowInv inv (fun _ _ h => ?_) next
    unfold readAlarms
    split
    · exact h
    · exact withPoint_flowInv (fun _ _ k => k) h
  case ackAlarm => exact request_flowInv inv (fun _ _ h => withPoint_flowInv (fun id _ => ackPoint_flowInv id) h) next
  case alarmWait => exact request_flowInv inv (fun r _ h => alarmWait_flowInv r h) next
  case readMail =>
    exact request_flowInv inv (fun _ _ h => withSlot_flowInv
      (fun _ v k => (FlowsStand.of_changes (updAlarm_changes _ v) rfl).flowInv k) h) next
  case readSlot | readIdentity | readCounters | readDelay =>
    exact request_flowInv inv (fun _ _ h => withSlot_flowInv (fun _ _ k => k) h) next
  case unknownRequest | readHub | readTiming | readMonitor => exact request_flowInv inv (fun _ _ h => h) next

/-- Settles O10: the flows stand beside what nothing of them reads, and the other operations evaluate the sets anew. -/
theorem stepKeepsFlowInv : Obligations.StepKeepsFlowInv := by
  intro s t inv next
  exact step_keeps (Inv := State.FlowInv)
    (fun v q h => (FlowsStand.of_changes (with_pending_changes v q) rfl).flowInv h) exec_flowInv
    (fun v h => (FlowsStand.of_changes v.tick_changes rfl).flowInv h) inv next

end Sys2Proof.Machine
end

section
/-! The request that a MGMT frame brings. -/

namespace Sys2Proof.Machine

/-! ### A dispatched frame and what its block does -/

/-- The freeing of a frame's cells is seen in the ports, the queue manager and its settings alone. -/
theorem FrameFreed.of_same {p : Slot} {errors : Nat} {s u v : State} (h : FrameFreed p errors s u)
    (ports : v.ports = u.ports) (qm : v.qm = u.qm) (qcfg : v.qcfg = u.qcfg) : FrameFreed p errors s v := by
  obtain ⟨own, others, pause, queues⟩ := h
  have port (q : Slot) : v.port q = u.port q := by unfold State.port; rw [ports]
  have sq (q : Slot) : v.sq q = u.sq q := by unfold State.sq; rw [qm]
  have config : v.queueConfig p = u.queueConfig p := by unfold State.queueConfig; rw [qcfg]
  have held : v.heldCells p = u.heldCells p := by unfold State.heldCells; rw [port, qm]
  refine ⟨by rw [port]; exact own, fun q hq => by rw [port]; exact others q hq, ?_, by rw [qm, sq]; exact queues⟩
  unfold PauseFreed PauseFollows at pause ⊢
  rw [sq, port, config, held]
  exact pause

/-- The state as a whole frame for the hub has been counted and its cells freed, before the block takes it (R30). -/
def State.dispatched (p : Slot) (s : State) : State := dispatchFrame p id (s.counted p (s.port p).errorCount)

theorem dispatched_freed (p : Slot) (s : State) : FrameFreed p (s.port p).errorCount s (s.dispatched p) ∧
    (s.dispatched p).fwd = { s.fwd with drops := s.dropsAfterDispatch p } ∧
    OnlyChanges [.ports, .fwd, .qm, .out] s (s.dispatched p) := counted_dispatched p _ s

/-- A whole frame addressed to the hub from a slot that is ready goes to the block of its kind (R29, R30). -/
theorem receptionEnd_dispatches {s : State} {p : Slot} {lanes : List (List Byte)} (arrives : Arrives s p lanes)
    (ready : (s.slot p).state ≠ .linking) (hub : frameDest (frameOfLanes lanes) = 0) :
    exec (.frameReceptionEnd p lanes) s = .next (checkDrains
      (dispatchByKind p (frameOfLanes lanes) s.hubNow (s.counted p (s.port p).errorCount))) := by
  have handed := arrives.receptionEnd
  rw [forwardFrame_ready arrives.1 _ _ (.inr ready), if_pos hub] at handed
  exact congrArg (fun t => Host.Outcome.next (checkDrains t)) handed

/-! ### The judging of a request -/

/-- A request is permitted from an ACTIVE controller slot that holds a CONTROL card (R178, R182). -/
theorem permitted_iff (s : State) (p : Slot) : (s.holdsController p && s.isActive p) = true ↔
    p.val < 2 ∧ (s.slot p).state = .active ∧ ∃ i, (s.slot p).identity = some i ∧ i.kind = .control := by
  unfold State.holdsController State.isActive isControllerSlot
  cases (s.slot p).identity with
  | none => simp
  | some i =>
    simp only [Option.any_some, Bool.and_eq_true, decide_eq_true_eq, beq_iff_eq, Option.some.injEq, exists_eq_left']
    exact and_assoc.trans (and_congr_right' and_comm)

/-- The request is refused: it counts as refused. -/
def State.refusing (s : State) : State :=
  s.updAgent fun a => { a with counters := { a.counters with refused := count32 a.counters.refused } }

section
variable {r : Request} {s : State}

theorem acceptRequest_not_permitted (h : (s.holdsController r.requester && s.isActive r.requester) = false) :
    acceptRequest r s = answer .refusal r .notPermitted [] s.refusing := by
  unfold acceptRequest
  simp only [h]
  rfl

theorem acceptRequest_full (h : (s.holdsController r.requester && s.isActive r.requester) = true)
    (full : Config.maxRequests ≤ s.agent.queue.length) :
    acceptRequest r s = answer .refusal r .queueFull [] s.refusing := by
  unfold acceptRequest
  simp only [h, if_pos full]
  rfl

theorem acceptRequest_queued (h : (s.holdsController r.requester && s.isActive r.requester) = true)
    (free : s.agent.queue.length < Config.maxRequests) :
    acceptRequest r s = s.updAgent fun a =>
      { a with queue := a.queue ++ [r], counters := { a.counters with accepted := count32 a.counters.accepted } } := by
  unfold acceptRequest
  simp only [h, if_neg (Nat.not_le.2 free)]
  rfl

/-- A refusal beside eight that wait is not made, and counts as unsent (R181, R185). -/
theorem makeResponse_unsent (dest : Slot) (seq : Byte) (payload : List Byte) (full : Config.maxRefusals ≤ s.refusals) :
    makeResponse .refusal dest seq payload s =
      s.updAgent fun a => { a with counters := { a.counters with unsent := count32 a.counters.unsent } } := by
  have some : s.agent.responses.isEmpty = false := by
    cases h : s.agent.responses with
    | nil => simp [State.refusals, h, Config.maxRefusals] at full
    | cons => rfl
  unfold makeResponse
  simp [some, full]

/-- So is the answer of a refused request, whatever its payload. -/
theorem answer_unsent (status : Status) (full : Config.maxRefusals ≤ s.refusals) :
    (answer .refusal r status [] s).agent =
        { s.agent with counters := { s.agent.counters with unsent := count32 s.agent.counters.unsent } } ∧
      OnlyChanges [.agent, .free] s (answer .refusal r status [] s) := by
  unfold answer
  dsimp only
  split
  · rw [makeResponse_unsent _ _ _ full]
    exact ⟨rfl, (updAgent_changes _ s).weaken rfl⟩
  · rw [makeResponse_unsent (s := s.drawn) _ _ _ full]
    exact ⟨rfl, ((drawn_changes s).weaken rfl).seq ((updAgent_changes _ _).weaken rfl)⟩

end

/-- Settles O20: the frame is dispatched, and the agent queues or refuses the request. -/
theorem mgmtFrameQueuedOrRefused : Obligations.MgmtFrameQueuedOrRefused := by
  intro p lanes s arrives bytes ready hub kind permitted r refused
  obtain ⟨freed, fwd, only⟩ := dispatched_freed p s
  have agent : (s.dispatched p).agent = s.agent := only.same .agent rfl
  have slots : (s.dispatched p).slots = s.slots := only.same .slots rfl
  have allowed : ((s.dispatched p).holdsController r.requester && (s.dispatched p).isActive r.requester) = true ↔
      permitted := by
    rw [permitted_iff]
    unfold State.slot
    rw [slots]
    exact .rfl
  have ends : exec (.frameReceptionEnd p lanes) s = .next (checkDrains (acceptRequest r (s.dispatched p))) := by
    rw [receptionEnd_dispatches arrives ready hub]
    unfold dispatchByKind
    rw [show frameKindOf (frameOfLanes lanes) = some .mgmt from kind]
    rfl
  have taken (f : Agent → Agent) : FrameFreed p (s.port p).errorCount s ((s.dispatched p).updAgent f) ∧
      ((s.dispatched p).updAgent f).fwd = { s.fwd with drops := s.dropsAfterDispatch p } ∧
      OnlyChanges [.ports, .fwd, .qm, .agent, .out] s ((s.dispatched p).updAgent f) :=
    ⟨freed.of_same rfl rfl rfl, fwd, (updAgent_changes f _).after (only.weaken rfl) rfl⟩
  have refusing : refused (s.dispatched p).refusing := ⟨by unfold State.refusing; rw [State.updAgent_agent, agent]; rfl, taken _⟩
  have deny : ¬ permitted → acceptRequest r (s.dispatched p) =
      answer .refusal r .notPermitted [] (s.dispatched p).refusing := fun no =>
    acceptRequest_not_permitted (Bool.eq_false_iff.2 fun yes => no (allowed.1 yes))
  have full : permitted → 8 ≤ s.agent.queue.length → acceptRequest r (s.dispatched p) =
      answer .refusal r .queueFull [] (s.dispatched p).refusing := fun yes many =>
    acceptRequest_full (allowed.2 yes) (agent ▸ many)
  refine ⟨fun yes free => ⟨_, ends, ?_⟩, fun no => ⟨_, deny no ▸ ends, refusing⟩,
    fun yes many => ⟨_, full yes many ▸ ends, refusing⟩, fun no eight => ⟨_, ends, ?_⟩⟩
  · rw [acceptRequest_queued (allowed.2 yes) (agent ▸ free)]
    exact ⟨by rw [State.updAgent_agent, agent]; rfl, taken _⟩
  · have waiting : Config.maxRefusals ≤ (s.dispatched p).refusing.refusals := by
      unfold State.refusing State.refusals
      rw [State.updAgent_agent, agent]
      exact eight
    obtain ⟨status, refuses⟩ : ∃ status, acceptRequest r (s.dispatched p) =
        answer .refusal r status [] (s.dispatched p).refusing := by
      by_cases yes : permitted
      · exact ⟨_, full yes (no.resolve_left (not_not.2 yes))⟩
      · exact ⟨_, deny yes⟩
    obtain ⟨counted, alone⟩ := answer_unsent (r := r) status waiting
    obtain ⟨refusedAgent, refusedFreed, refusedFwd, refusedOnly⟩ := refusing
    rw [refuses]
    refine ⟨by rw [counted, refusedAgent]; rfl, refusedFreed.of_same (alone.same .ports rfl) (alone.same .qm rfl)
      (alone.same .qcfg rfl), Eq.trans (alone.same .fwd rfl) refusedFwd, alone.after (refusedOnly.weaken rfl) rfl⟩

end Sys2Proof.Machine
end

section
/-! SUPPORT. The admission of a card's frame: the copies judged, stored, or freed (R34, R45, R47, R49). -/

namespace Sys2Proof.Machine

/-! ### Updates of several ports' queues -/

section
variable {s : State}

/-- The queues of some ports change, each by its own function, and exhaustion is marked where one of them calls for it. -/
theorem forEach_updSq_mark (f : Slot → SlotQueues → SlotQueues) (g : Slot → Bool) {ports : List Slot}
    (nodup : ports.Nodup) (s : State) :
    forEach ports (fun p u => { u with qm := { u.qm with
        slot := u.qm.slot.update p (f p), exhaustion := u.qm.exhaustion || g p } }) s =
      { s with qm := { s.qm with
        slot := Vector.ofFn fun q => if q ∈ ports then f q (s.sq q) else s.sq q
        exhaustion := s.qm.exhaustion || ports.any g } } := by
  induction ports generalizing s with
  | nil =>
    have same : (Vector.ofFn fun q => s.sq q) = s.qm.slot := Table.ext_read fun q => by
      simp [Table.read, State.sq]
    simp only [forEach, List.foldl_nil, List.not_mem_nil, if_false, same, List.any_nil, Bool.or_false]
  | cons p ports ih =>
    obtain ⟨apart, nodup⟩ := List.nodup_cons.1 nodup
    refine (ih nodup _).trans ?_
    have slot : (Vector.ofFn fun q => if q ∈ ports then f q ((s.qm.slot.update p (f p)).read q)
        else (s.qm.slot.update p (f p)).read q) =
        Vector.ofFn fun q => if q ∈ p :: ports then f q (s.sq q) else s.sq q := by
      refine congrArg Vector.ofFn (funext fun q => ?_)
      by_cases hq : q = p
      · subst hq
        simp [apart, State.sq]
      · simp only [List.mem_cons, hq, false_or, Table.read_update_ne _ _ hq]
        rfl
    simp only [State.sq] at slot ⊢
    rw [slot, List.any_cons, Bool.or_assoc]

theorem forEach_updSq (f : Slot → SlotQueues → SlotQueues) {ports : List Slot} (nodup : ports.Nodup) (s : State) :
    forEach ports (fun p u => u.updSq p (f p)) s =
      { s with qm := { s.qm with slot := Vector.ofFn fun q => if q ∈ ports then f q (s.sq q) else s.sq q } } := by
  have marks := forEach_updSq_mark f (fun _ => false) nodup s
  simp only [Bool.or_false, List.any_eq_false.2 fun _ _ => Bool.false_ne_true] at marks
  exact marks

/-- A queue's record in a table that a function gives. -/
theorem read_ofFn (f : Slot → SlotQueues) (q : Slot) : Table.read (Vector.ofFn f) q = f q := by
  simp [Table.read]

/-- A frame stored for several ports stands at the tail of the queue of its class at each of them (R47, R48). -/
theorem storeFrame_eq (body : FrameBody) (c : FrameClass) (cells : Nat) {ports : List Slot} (nodup : ports.Nodup)
    (s : State) :
    storeFrame body c cells ports s = { s with qm := { s.qm with
      frames := s.qm.frames ++ [⟨s.qm.nextFrame, body, c, cells, ports.length⟩], nextFrame := s.qm.nextFrame + 1
      slot := Vector.ofFn fun q => if q ∈ ports then { s.sq q with
        queues := (s.sq q).queues.setClass c ((s.sq q).queues.ofClass c ++ [s.qm.nextFrame]) } else s.sq q } } :=
  forEach_updSq (fun _ q => { q with queues := q.queues.setClass c (q.queues.ofClass c ++ [s.qm.nextFrame]) }) nodup _

/-! ### The verdicts -/

theorem cardVerdict_eq (s : State) (d : Slot) (c : FrameClass) (cells : Nat) : cardVerdict s d c cells =
    if s.discardsCopy d then .discarded else if s.admitsCopy c cells d then .admitted else .refused := by
  unfold cardVerdict State.admitsCopy State.discardsCopy State.isUp
  cases (s.slot d).state.isUp
  · simp
  · by_cases stalled : (s.sq d).hold = .stalled
    · simp [stalled]
    · have going : ((s.sq d).hold == .stalled) = false := by simpa using stalled
      by_cases sample : c = .sample
      · subst sample
        by_cases below : s.sampleOccupancy d + cells ≤ (s.queueConfig d).sampleLimit
        · simp [stalled, going, below, Nat.not_lt.2 below]
        · simp [stalled, going, below, Nat.not_le.1 below]
      · have other : (c != .sample) = true := by simpa using sample
        simp [stalled, going, sample, other]

/-- A copy that is admitted is not discarded. -/
theorem discards_of_admits {d : Slot} {c : FrameClass} {cells : Nat} (h : s.admitsCopy c cells d = true) :
    s.discardsCopy d = false := by
  unfold State.admitsCopy at h
  simpa using (Bool.and_eq_true_iff.1 h).1

theorem verdict_admitted (s : State) (d : Slot) (c : FrameClass) (cells : Nat) :
    (cardVerdict s d c cells == .admitted) = s.admitsCopy c cells d := by
  rw [cardVerdict_eq]
  cases admits : s.admitsCopy c cells d
  · cases s.discardsCopy d <;> rfl
  · rw [discards_of_admits admits]
    rfl

theorem verdict_discarded (s : State) (d : Slot) (c : FrameClass) (cells : Nat) :
    (cardVerdict s d c cells == .discarded) = s.discardsCopy d := by
  rw [cardVerdict_eq]
  cases s.discardsCopy d <;> cases s.admitsCopy c cells d <;> rfl

/-- Two operations that agree wherever something holds that the one keeps agree when repeated. -/
theorem forEach_congr {α : Type} {f g : α → State → State} {P : State → Prop} (same : ∀ a t, P t → f a t = g a t)
    (keeps : ∀ a t, P t → P (g a t)) (xs : List α) (h : P s) : forEach xs f s = forEach xs g s := by
  unfold forEach
  induction xs generalizing s with
  | nil => rfl
  | cons x xs ih =>
    rw [List.foldl_cons, List.foldl_cons, same x s h]
    exact ih (keeps x s h)

/-- The record of a port's queues once its copy has been judged (R49, R60). -/
def State.queuesJudged (s : State) (c : FrameClass) (cells : Nat) (d : Slot) (q : SlotQueues) : SlotQueues :=
  { q with egress :=
    if s.discardsCopy d then { q.egress with
      discards := oneMore q.egress.discards
      stallDiscards := if (s.slot d).state.isUp then oneMore q.egress.stallDiscards else q.egress.stallDiscards }
    else if !s.discardsCopy d && !s.admitsCopy c cells d then
      { q.egress with sampleRefusals := oneMore q.egress.sampleRefusals }
    else q.egress }

/-- One verdict is counted at its port (R49, R60, R61). -/
theorem countVerdict_eq (c : FrameClass) (cells : Nat) (d : Slot) {t : State} (slots : t.slots = s.slots)
    (hold : (t.sq d).hold = (s.sq d).hold) :
    countVerdict (cardVerdict s d c cells) d t = { t with qm := { t.qm with
      slot := t.qm.slot.update d (s.queuesJudged c cells d)
      exhaustion := t.qm.exhaustion || (!s.discardsCopy d && !s.admitsCopy c cells d) } } := by
  have up : t.isUp d = (s.slot d).state.isUp := by
    unfold State.isUp State.slot
    rw [slots]
  rw [cardVerdict_eq]
  unfold countVerdict State.queuesJudged
  cases discards : s.discardsCopy d
  · cases s.admitsCopy c cells d
    · simp [countRefusal, markExhaustion, State.updSq, count32, oneMore]
    · have kept : t.qm.slot.update d (fun q => q) = t.qm.slot := Table.write_read _ _
      simp [kept]
  · have stalled : (t.isUp d && (t.sq d).hold == .stalled) = (s.slot d).state.isUp := by
      unfold State.discardsCopy at discards
      rw [up, hold]
      cases h : (s.slot d).state.isUp
      · rfl
      · simpa [h] using discards
    simp only [countDiscard, stalled, State.updSq, Bool.not_true, Bool.false_and, Bool.or_false, if_true]
    rfl

/-- The verdicts of a frame's copies, each counted at its port (R49, R60, R61). -/
theorem countVerdicts_eq (c : FrameClass) (cells : Nat) {ports : List Slot} (nodup : ports.Nodup) (s : State) :
    forEach ports (fun d t => countVerdict (cardVerdict s d c cells) d t) s = s.copiesJudged c cells ports := by
  have counted := forEach_congr (s := s) (P := fun t => t.slots = s.slots ∧ ∀ d, (t.sq d).hold = (s.sq d).hold)
    (f := fun d t => countVerdict (cardVerdict s d c cells) d t)
    (fun d t h => countVerdict_eq c cells d h.1 (h.2 d)) (fun d t h => ⟨h.1, fun q => ?_⟩) ports ⟨rfl, fun _ => rfl⟩
  · exact counted.trans (forEach_updSq_mark _ _ nodup s)
  · rw [← h.2 q]
    unfold State.sq
    by_cases hq : q = d
    · subst hq
      rw [Table.read_update_same]
      rfl
    · rw [Table.read_update_ne _ _ hq]

/-! ### The frame is stored, freed or dropped -/

/-- What a forwarded frame counts in (R34). -/
def FlowRef.countedIn (f : FlowRef) (u : Forwarding) : Forwarding :=
  match f with
  | .none => u
  | .default => { u with defaultForwarded := oneMore u.defaultForwarded }
  | .flow i => { u with flows := u.flows.update i fun x => { x with forwarded := oneMore x.forwarded } }

theorem countForwarded_eq (f : FlowRef) (s : State) : countForwarded f s = { s with fwd := f.countedIn s.fwd } := by
  cases f <;> rfl

/-- The frame leaves its assembly once it is counted at its port (R10, R45). -/
theorem clearAssembly_counted (p : Slot) (errors : Nat) (s : State) : clearAssembly p (s.counted p errors) =
    { s with ports := s.ports.write p (portAfterFrame (s.port p) errors), out := [] } := by
  have port : ((s.counted p errors).ports.update p fun q => { q with assembly := none }) =
      s.ports.write p (portAfterFrame (s.port p) errors) := Table.ext_read fun q => by
    by_cases h : q = p
    · subst h
      rw [Table.read_update_same, Table.read_write_same]
      exact congrArg (fun q : Port => { q with assembly := none }) (counted_port q errors s)
    · rw [Table.read_update_ne _ _ h, Table.read_write_ne _ _ h]
      exact counted_port_ne errors s h
  exact congrArg (fun ports => { s with ports := ports, out := [] }) port

/-- The state as the frame of a slot has left its assembly for the queues of some ports (R45, R47, R48). -/
def State.storedFor (p : Slot) (bytes : List Byte) (c : FrameClass) (ports : List Slot) (s : State) : State :=
  { s with
    ports := s.ports.write p (portAfterFrame (s.port p) (s.port p).errorCount), out := []
    qm := { s.qm with
      frames := s.qm.frames ++ [⟨s.qm.nextFrame, .card p bytes, c, (bytes.length + 63) / 64, ports.length⟩]
      nextFrame := s.qm.nextFrame + 1
      slot := Vector.ofFn fun q => if q ∈ ports then { s.sq q with
        queues := (s.sq q).queues.setClass c ((s.sq q).queues.ofClass c ++ [s.qm.nextFrame]) } else s.sq q } }

theorem storedFor_eq (p : Slot) (bytes : List Byte) (c : FrameClass) {ports : List Slot} (nodup : ports.Nodup)
    (s : State) :
    storeFrame (.card p bytes) c (cellsOf bytes.length) ports (clearAssembly p (s.counted p (s.port p).errorCount)) =
      s.storedFor p bytes c ports := by
  rw [clearAssembly_counted, storeFrame_eq _ _ _ nodup]
  rfl

/-- A frame stored for the ports that admit it has left its assembly, and stands in their queues; only a SAMPLE frame
leaves the held cells, and has the pause of its slot examined (R45, R47, R48, R51). -/
theorem storedFor_stored (p : Slot) (bytes : List Byte) (c : FrameClass) (ports : List Slot) (f : FlowRef) (s : State) :
    let u := countForwarded f
      (if c = .sample then reexaminePause p (s.storedFor p bytes c ports) else s.storedFor p bytes c ports)
    Stored p bytes c ports s u ∧ u.fwd = f.countedIn s.fwd := by
  intro u
  let stored := s.storedFor p bytes c ports
  let w := if c = .sample then reexaminePause p stored else stored
  have u_eq : u = { w with fwd := f.countedIn w.fwd } := countForwarded_eq f w
  have only : OnlyChanges [.ports, .qm, .out] stored w := by
    unfold w
    split
    · exact (reexaminePause_changes p stored).weaken rfl
    · exact .refl _
  have moved : PausesMove stored w := by
    unfold w
    split
    · exact reexaminePause_moves p stored
    · exact .refl _
  have frames : w.qm.frames = stored.qm.frames := by
    unfold w
    split
    · exact reexaminePause_frames p stored
    · rfl
  have sq (q : Slot) : stored.sq q = if q ∈ ports then { s.sq q with
      queues := (s.sq q).queues.setClass c ((s.sq q).queues.ofClass c ++ [s.qm.nextFrame]) } else s.sq q :=
    read_ofFn _ q
  have paused (q : Slot) : (stored.sq q).paused = (s.sq q).paused := by
    rw [sq]
    split <;> rfl
  have own : stored.port p = portAfterFrame (s.port p) (s.port p).errorCount := Table.read_write_same _ _ _
  have other {q : Slot} (hq : q ≠ p) : stored.port q = s.port q := Table.read_write_ne _ _ hq
  have apart {q : Slot} (hq : q ≠ p) : w.port q = stored.port q ∧ w.sq q = stored.sq q := by
    unfold w
    split
    · refine ⟨?_, reexaminePause_sq_ne stored hq⟩
      rw [reexaminePause_eq, setPaused_eq]
      exact Table.read_write_ne _ _ hq
    · exact ⟨rfl, rfl⟩
  have pause : if c = .sample then PauseFollows p s w
      else (w.sq p).paused = (s.sq p).paused ∧ (w.port p).pauseAsserted = (s.port p).pauseAsserted := by
    unfold w
    split
    · exact reexaminePause_follows (paused p)
    · exact ⟨paused p, by rw [own]; rfl⟩
  have fwd : w.fwd = s.fwd := only.same .fwd rfl
  rw [u_eq]
  refine ⟨⟨frames, moved.nextFrame, moved.waiting, moved.exhaustion, fun q => ?_, fun q hq => ?_, ?_, pause, ?_⟩, ?_⟩
  · have := moved.sq q
    rw [sq] at this
    refine this.trans ?_
    split <;> rfl
  · exact ⟨(apart hq).1.trans (other hq), (congrArg SlotQueues.paused (apart hq).2).trans (paused q)⟩
  · exact (moved.port p).trans (by rw [own]; rfl)
  · have stands : OnlyChanges [.ports, .fwd, .qm, .out] s stored := fun q => by
      cases q <;> simp [Part.Same, stored, State.storedFor]
    exact (with_fwd_changes w _).after (only.after stands rfl) rfl
  · rw [fwd]

/-- A card's counted frame is offered at some ports: with the copies judged, it is stored for the ports that admit it,
freed where one discards it, and dropped where all refuse (R34, R45, R47, R49). -/
theorem admitCard_counted (p : Slot) (bytes : List Byte) (c : FrameClass) {ports : List Slot} (nodup : ports.Nodup)
    (f : FlowRef) (s : State) :
    let judged := s.copiesJudged c (cellsOf bytes.length) ports
    let admitting := ports.filter (s.admitsCopy c (cellsOf bytes.length))
    let errors := (s.port p).errorCount
    admitCard p bytes c ports f (s.counted p errors) =
      if admitting ≠ [] then
        let stored := judged.storedFor p bytes c admitting
        forEach admitting arbitrate (countForwarded f (if c = .sample then reexaminePause p stored else stored))
      else if ports.any s.discardsCopy then
        discardAssembly p { judged.counted p errors with fwd := f.countedIn s.fwd }
      else dropFrame p .noBuffer f (markExhaustion (judged.counted p errors)) := by
  intro judged admitting errors
  have admits : (ports.filter fun d => cardVerdict (s.counted p errors) d c (cellsOf bytes.length) == .admitted) =
      admitting :=
    congrArg (ports.filter ·) (funext fun d => verdict_admitted (s.counted p errors) d c (cellsOf bytes.length))
  have discards : (ports.any fun d => cardVerdict (s.counted p errors) d c (cellsOf bytes.length) == .discarded) =
      ports.any s.discardsCopy :=
    congrArg ports.any (funext fun d => verdict_discarded (s.counted p errors) d c (cellsOf bytes.length))
  have verdicts : forEach ports
      (fun d t => countVerdict (cardVerdict (s.counted p errors) d c (cellsOf bytes.length)) d t) (s.counted p errors) =
      judged.counted p errors := countVerdicts_eq c _ nodup _
  have stored := storedFor_eq p bytes c (nodup.filter (s.admitsCopy c (cellsOf bytes.length))) judged
  unfold admitCard
  dsimp only
  rw [verdicts, admits, discards]
  by_cases some : admitting = []
  · rw [if_neg (c := (!admitting.isEmpty) = true) (by simp [some]), if_neg (c := admitting ≠ []) (by simp [some]),
      countForwarded_eq]
    rfl
  · rw [if_pos (c := (!admitting.isEmpty) = true) (by simp [some]), if_pos (c := admitting ≠ []) some]
    exact congrArg (fun t => forEach admitting arbitrate
      (countForwarded f (if c = .sample then reexaminePause p t else t))) stored

end

end Sys2Proof.Machine
end

section
/-! Frames of the default path and of flows are stored or dropped (O21, O22). -/

namespace Sys2Proof.Machine

/-! ### Drops -/

section
variable (p : Slot) (reason : DropReason) (errors : Nat) (i : Fin 255) (s : State)

theorem dropFrame_unmatched : Dropped p reason errors s (dropFrame p reason .none (s.counted p errors)) :=
  counted_freed p errors s { s.fwd with drops := s.dropsAfter p reason }

theorem dropFrame_default :
    let u := dropFrame p reason .default (s.counted p errors)
    FrameFreed p errors s u ∧ u.fwd = { s.fwd with
      drops := s.dropsAfter p reason, defaultDropped := oneMore s.fwd.defaultDropped } ∧
      OnlyChanges [.ports, .fwd, .qm, .out] s u :=
  counted_freed p errors s { s.fwd with
    drops := s.dropsAfter p reason, defaultDropped := oneMore s.fwd.defaultDropped }

theorem dropFrame_onFlow :
    DroppedOnFlow p reason i s (dropFrame p reason (.flow i) (s.counted p (s.port p).errorCount)) :=
  counted_freed p _ s { s.fwd with
    drops := s.dropsAfter p reason
    flows := s.fwd.flows.write i { s.flow i with dropped := oneMore (s.flow i).dropped } }

end

/-! ### The copies judged -/

section
variable {s : State} {c : FrameClass} {cells : Nat} {ports : List Slot}

theorem copiesJudged_changes : OnlyChanges [.qm] s (s.copiesJudged c cells ports) := fun q => by
  cases q <;> simp [Part.Same, State.copiesJudged]

theorem copiesJudged_sq (q : Slot) : (s.copiesJudged c cells ports).sq q =
    if q ∈ ports then s.queuesJudged c cells q (s.sq q) else s.sq q := read_ofFn _ q

/-- Copies that are all admitted count nothing. -/
theorem copiesJudged_of_admitted (admitted : ∀ d ∈ ports, s.admitsCopy c cells d = true) :
    s.copiesJudged c cells ports = s := by
  have none : (ports.any fun d => !s.discardsCopy d && !s.admitsCopy c cells d) = false :=
    List.any_eq_false.2 fun d h => by simp [admitted d h]
  have slot : (s.copiesJudged c cells ports).qm.slot = s.qm.slot := Table.ext_read fun q => by
    refine (copiesJudged_sq q).trans ?_
    split
    · next h => simp [State.queuesJudged, discards_of_admits (admitted q h), admitted q h, State.sq]
    · rfl
  have exhaustion : (s.copiesJudged c cells ports).qm.exhaustion = s.qm.exhaustion := by
    simp [State.copiesJudged, none]
  calc s.copiesJudged c cells ports
      = { s with qm := { s.qm with
            slot := (s.copiesJudged c cells ports).qm.slot
            exhaustion := (s.copiesJudged c cells ports).qm.exhaustion } } := rfl
    _ = s := by rw [slot, exhaustion]

/-- Where a port neither admits nor discards its copy, exhaustion is marked seen (R49, R61). -/
theorem copiesJudged_exhaustion (some : ports ≠ []) (none : ports.filter (s.admitsCopy c cells) = [])
    (refuses : ∀ d ∈ ports, s.discardsCopy d = false) : (s.copiesJudged c cells ports).qm.exhaustion = true := by
  obtain ⟨d, member⟩ := List.exists_mem_of_ne_nil ports some
  have admits : s.admitsCopy c cells d = false := by simpa using List.filter_eq_nil_iff.1 none d member
  have refused : (ports.any fun d => !s.discardsCopy d && !s.admitsCopy c cells d) = true :=
    List.any_eq_true.2 ⟨d, member, by simp [refuses d member, admits]⟩
  simp [State.copiesJudged, refused]

theorem markExhaustion_of_seen {p : Slot} {errors : Nat} (seen : s.qm.exhaustion = true) :
    markExhaustion (s.counted p errors) = s.counted p errors := by
  unfold markExhaustion State.counted
  rw [← seen]

end

/-- A frame freed leaves the queues of each port but for a pause. -/
theorem FrameFreed.sq {p : Slot} {errors : Nat} {s u : State} (freed : FrameFreed p errors s u) (q : Slot) :
    u.sq q = { s.sq q with paused := (u.sq q).paused } := by
  obtain ⟨-, -, -, qm⟩ := freed
  have slot : u.sq q = (s.qm.slot.write p { s.sq p with paused := (u.sq p).paused }).read q :=
    congrArg (fun m => m.slot.read q) qm
  rw [slot, Table.read_write]
  split
  · next h => subst h; rfl
  · rfl

/-- A frame that held cells is freed with the pause of its slot examined (R51). -/
theorem FrameFreed.pauseFollows {p : Slot} {errors : Nat} {s u : State} (freed : FrameFreed p errors s u)
    (cells : (s.port p).assemblyCells ≠ 0) : PauseFollows p s u := by
  obtain ⟨-, -, pause, -⟩ := freed
  unfold PauseFreed at pause
  rwa [if_neg cells] at pause

/-! ### A DATA frame to a slot -/

section
variable {s : State} {p : Slot} {lanes : List (List Byte)}

/-- A whole DATA frame addressed to a slot goes to the default path or to its flow (R28, R31, R32). -/
theorem receptionEnd_data (arrives : Arrives s p lanes) (ready : (s.slot p).state ≠ .linking)
    (data : frameKindOf (frameOfLanes lanes) = some .data) (dest : frameDest (frameOfLanes lanes) ≠ 0) :
    exec (.frameReceptionEnd p lanes) s =
      .next (checkDrains (forwardData p (frameOfLanes lanes) (s.counted p (s.port p).errorCount))) := by
  obtain ⟨up, -⟩ := id arrives
  have taken : receptionEnd p lanes s.begin =
      forwardData p (frameOfLanes lanes) (s.counted p (s.port p).errorCount) := by
    rw [arrives.receptionEnd, forwardFrame_ready up _ _ (.inr ready), if_neg dest, if_pos data]
  exact congrArg (fun t => Host.Outcome.next (checkDrains t)) taken

/-- The assembly of a whole frame holds cells. -/
theorem Arrives.holdsCells (arrives : Arrives s p lanes) : (s.port p).assemblyCells ≠ 0 := by
  obtain ⟨-, -, assembly, -, long, -⟩ := arrives
  rw [Port.assemblyCells, assembly]
  show ((frameOfLanes lanes).length + 63) / 64 ≠ 0
  omega

end

/-! ### The default path -/

section
variable {s : State} {p d : Slot} {bytes : List Byte}

theorem forwardData_default (flow : frameFlow bytes = 0) (dest : frameDest bytes = d.val + 1) (t : State) :
    forwardData p bytes t = if defaultAllows t p d then admitCard p bytes .control [d] .default t
      else dropFrame p .noPath .default t := by
  have none : flowOfByte (frameByte bytes 4) = .none := dif_neg (by unfold frameFlow at flow; omega)
  have slot : slotOfNat (frameDest bytes) = some d := by
    unfold slotOfNat
    rw [dif_pos (by omega)]
    exact congrArg some (Fin.ext (by simp [dest]))
  unfold forwardData
  rw [none, slot]

/-- A frame of flow 0 that names no slot, or one that the default path does not allow, is dropped (R31). -/
theorem forwardData_noPath (flow : frameFlow bytes = 0) {t : State}
    (forbids : ∀ d : Slot, frameDest bytes = d.val + 1 → defaultAllows t p d = false) :
    forwardData p bytes t = dropFrame p .noPath .default t := by
  by_cases named : 1 ≤ frameDest bytes ∧ frameDest bytes ≤ 12
  · have dest : frameDest bytes = (⟨frameDest bytes - 1, by omega⟩ : Slot).val + 1 := by simp; omega
    rw [forwardData_default flow dest, forbids _ dest, if_neg Bool.false_ne_true]
  · have none : flowOfByte (frameByte bytes 4) = .none := dif_neg (by unfold frameFlow at flow; omega)
    have slot : slotOfNat (frameDest bytes) = .none := dif_neg named
    unfold forwardData
    rw [none, slot]

theorem defaultAllows_iff : defaultAllows s p d = true ↔ d ≠ p ∧ (p.val < 2 ∨ d.val < 2) ∧
    ((s.slot p).state = .standby ∨ (s.slot p).state = .active) ∧
    ((s.slot d).state = .standby ∨ (s.slot d).state = .active) := by
  simp [defaultAllows, isControllerSlot, and_assoc]

/-- A slot that the default path reaches is up. -/
theorem discardsCopy_of_reached (reached : (s.slot d).state = .standby ∨ (s.slot d).state = .active) :
    s.discardsCopy d = ((s.sq d).hold == .stalled) := by
  unfold State.discardsCopy
  obtain h | h := reached <;> rw [h] <;> rfl

end

/-- Settles O21: the copy list of the default path is the destination alone, whose verdict is the frame's. -/
theorem defaultPathForwards : Obligations.DefaultPathForwards := by
  intro p lanes s arrives bytes ready data flow dest reaches
  have taken := receptionEnd_data arrives ready data dest
  refine ⟨fun d named other controller reached reachedD => ?_, fun forbids => ?_⟩
  · have allows : defaultAllows (s.counted p (s.port p).errorCount) p d = true :=
      (defaultAllows_iff (s := s)).2 ⟨other, controller, reached, reachedD⟩
    have judges := discardsCopy_of_reached reachedD
    rw [forwardData_default flow named, if_pos allows, admitCard_counted p bytes .control (List.nodup_singleton d)] at taken
    refine ⟨fun going => ?_, fun stalled => ?_⟩
    · have admits : s.admitsCopy .control (cellsOf bytes.length) d = true := by
        simp [State.admitsCopy, judges, going]
      have ports : [d].filter (s.admitsCopy .control (cellsOf bytes.length)) = [d] := by simp [admits]
      have same : s.copiesJudged .control (cellsOf bytes.length) [d] = s :=
        copiesJudged_of_admitted fun e h => by rw [List.mem_singleton.1 h]; exact admits
      rw [ports, if_pos (List.cons_ne_nil _ _), same] at taken
      exact ⟨_, taken, storedFor_stored p bytes .control [d] .default s⟩
    · have discards : s.discardsCopy d = true := by rw [judges, stalled]; rfl
      have ports : [d].filter (s.admitsCopy .control (cellsOf bytes.length)) = [] := by
        simp [State.admitsCopy, discards]
      rw [ports, if_neg (not_not_intro rfl), if_pos (by simp [discards])] at taken
      obtain ⟨freed, fwd, only⟩ := counted_freed p (s.port p).errorCount
        (s.copiesJudged .control (cellsOf bytes.length) [d]) (FlowRef.default.countedIn s.fwd)
      have frames : (s.copiesJudged .control (cellsOf bytes.length) [d]).qm.frames = s.qm.frames := rfl
      have judged (q : Slot) := copiesJudged_sq (s := s) (c := .control) (cells := cellsOf bytes.length) (ports := [d]) q
      have pause := freed.pauseFollows arrives.holdsCells
      have sq := freed.sq
      obtain ⟨port, -, -, qm⟩ := freed
      refine ⟨_, taken, fwd, ?_, fun q => ?_, ?_, ?_, port, only.after (copiesJudged_changes.weaken rfl) rfl⟩
      · rw [sq d, judged d, if_pos (List.mem_singleton.2 rfl)]
        have up : (s.slot d).state.isUp = true := by
          obtain h | h := reachedD <;> rw [h] <;> rfl
        simp [State.queuesJudged, discards, up]
      · rw [sq q, judged q]
        split <;> rfl
      · rw [qm]
        exact frames
      · have paused : ((s.copiesJudged .control (cellsOf bytes.length) [d]).sq p).paused = (s.sq p).paused := by
          rw [judged p]
          split <;> rfl
        unfold PauseFollows at pause ⊢
        rw [paused] at pause
        exact pause
  · have dropped : forwardData p bytes (s.counted p (s.port p).errorCount) = _ :=
      forwardData_noPath flow fun d named => by
        rw [Bool.eq_false_iff]
        intro allows
        obtain ⟨other, controller, reached, reachedD⟩ := (defaultAllows_iff (s := s)).1 allows
        obtain same | apart | unreached | unreached := forbids d named
        · exact other same
        · omega
        · exact unreached reached
        · exact unreached reachedD
    rw [dropped] at taken
    exact ⟨_, taken, dropFrame_default p .noPath _ s⟩

/-! ### Flows -/

section
variable {s : State} {p : Slot} {bytes : List Byte} {f : Fin 255} {r : FlowRecord}

theorem flowOfByte_of_frameFlow (flow : frameFlow bytes = f.val + 1) : flowOfByte (frameByte bytes 4) = some f := by
  have number : (frameByte bytes 4).toNat = f.val + 1 := flow
  unfold flowOfByte
  rw [dif_pos (by omega)]
  exact congrArg some (Fin.ext (by simp [number]))

theorem forwardData_written (flow : frameFlow bytes = f.val + 1) {t : State} (written : (t.flow f).fields = some r) :
    forwardData p bytes t = forwardOnFlow p bytes f (t.flow f) r t := by
  unfold forwardData
  simp only [flowOfByte_of_frameFlow flow, written]

theorem forwardData_unknown (flow : frameFlow bytes = f.val + 1) {t : State} (free : (t.flow f).fields = none) :
    forwardData p bytes t = dropFrame p .unknownFlow .none t := by
  unfold forwardData
  simp only [flowOfByte_of_frameFlow flow, free]

theorem copyList_eq (s : State) (p : Slot) (r : FlowRecord) : copyList s p r = match r.dest with
    | .slot d => [d]
    | .group g => allSlots.filter fun m => (s.fwd.groups.read g).read m && (s.slot m).state == .active && m != p := by
  unfold copyList State.groupMembers
  cases r.dest
  · rfl
  · simp only [List.filter_filter]
    refine congrArg (allSlots.filter ·) (funext fun m => ?_)
    rw [Bool.and_comm, Bool.and_assoc]
    rfl

theorem copyList_nodup (s : State) (p : Slot) (r : FlowRecord) : (copyList s p r).Nodup := by
  rw [copyList_eq]
  cases r.dest
  · exact List.nodup_singleton _
  · exact (show allSlots.Nodup by decide).filter _

theorem destDownAlone_iff (x : Suspension) : x.destDownAlone = true ↔ x = ⟨false, true, false, false⟩ := by
  obtain ⟨sourceDown, destDown, timing, fit⟩ := x
  simp [Suspension.destDownAlone]
  tauto

theorem notLiveReason_eq (x : Flow) : notLiveReason x =
    if x.state = .suspended ∧ x.suspension = ⟨false, true, false, false⟩ then .noPath else .flowNotLive := by
  unfold notLiveReason
  simp only [destDownAlone_iff]

end

/-- Settles O22: the checks of a flow in their order, and then the verdicts of its copies. -/
theorem flowFrameForwardedOrDropped : Obligations.FlowFrameForwardedOrDropped := by
  intro p lanes s f arrives bytes ready data flow dest drops cells ports
  have taken := receptionEnd_data arrives ready data dest
  have same : (s.counted p (s.port p).errorCount).flow f = s.flow f := rfl
  refine ⟨fun free => ?_, fun r written => ?_⟩
  · rw [forwardData_unknown flow (same ▸ free)] at taken
    exact ⟨_, taken, dropFrame_unmatched p .unknownFlow _ s⟩
  · rw [forwardData_written flow (same ▸ written), same] at taken
    dsimp only [forwardOnFlow] at taken
    have copies : copyList (s.counted p (s.port p).errorCount) p r = ports r := copyList_eq s p r
    rw [copies] at taken
    refine ⟨fun source => ?_, fun source live => ?_, fun source live long => ?_, fun source live short empty => ?_,
      fun source live short some => ?_⟩
    · rw [if_pos source] at taken
      exact ⟨_, taken, dropFrame_onFlow p .wrongSource f s⟩
    · rw [if_neg (not_not_intro source), if_pos live] at taken
      refine ⟨_, taken, ?_⟩
      rw [← notLiveReason_eq]
      exact dropFrame_onFlow p _ f s
    · rw [if_neg (not_not_intro source), if_neg (not_not_intro live), if_pos long] at taken
      exact ⟨_, taken, dropFrame_onFlow p .tooLong f s⟩
    · rw [if_neg (not_not_intro source), if_neg (not_not_intro live), if_neg (Nat.not_lt.2 short), empty] at taken
      exact ⟨_, taken, dropFrame_onFlow p .noPath f s⟩
    · rw [if_neg (not_not_intro source), if_neg (not_not_intro live), if_neg (Nat.not_lt.2 short)] at taken
      have nodup : (ports r).Nodup := copies ▸ copyList_nodup _ p r
      have offered : exec (.frameReceptionEnd p lanes) s = .next (checkDrains
          (admitCard p bytes r.cls (ports r) (.flow f) (s.counted p (s.port p).errorCount))) := by
        obtain ⟨d, ds, ports_eq⟩ := List.exists_cons_of_ne_nil some
        rw [ports_eq] at taken ⊢
        exact taken
      have counted : cellsOf bytes.length = cells := rfl
      rw [admitCard_counted p bytes r.cls nodup, counted] at offered
      dsimp only
      refine ⟨fun admitting => ?_, fun none ⟨d, member, discards⟩ => ?_, fun none refuses => ?_⟩
      · rw [if_pos admitting] at offered
        exact ⟨_, offered, storedFor_stored p bytes r.cls _ (.flow f) _⟩
      · rw [if_neg (not_not_intro none), if_pos (List.any_eq_true.2 ⟨d, member, discards⟩)] at offered
        obtain ⟨freed, fwd, only⟩ := counted_freed p (s.port p).errorCount
          (s.copiesJudged r.cls cells (ports r)) ((FlowRef.flow f).countedIn s.fwd)
        exact ⟨_, offered, freed, fwd, only.after (copiesJudged_changes.weaken rfl) rfl⟩
      · have goes : ¬ (ports r).any s.discardsCopy = true := by simpa using refuses
        rw [if_neg (not_not_intro none), if_neg goes, markExhaustion_of_seen (copiesJudged_exhaustion some none refuses)]
          at offered
        exact ⟨_, offered, dropFrame_onFlow p .noBuffer f (s.copiesJudged r.cls cells (ports r))⟩

end Sys2Proof.Machine
end

section
/-! What the reads of groups and windows carry, and the requests that name a flow or a group (O49). -/

namespace Sys2Proof.Machine

/-! ### Numbers, lists and flags as results carry them -/

theorem u8_eq (n : Nat) : u8 n = [BitVec.ofNat 8 n] := by
  simp [u8, beBytes]

/-- A list of items of one byte each. -/
theorem counted_u8 {α : Type} (enc : α → List Byte) (one : α → Byte) (single : ∀ x, enc x = [one x]) (xs : List α) :
    counted enc xs = BitVec.ofNat 8 xs.length :: xs.map one := by
  unfold counted
  rw [u8_eq, funext single]
  exact congrArg (_ :: ·) (List.flatMap_pure_eq_map one xs)

theorem slotByte_eq (n : Slot) : slotByte n = [BitVec.ofNat 8 (n.val + 1)] := u8_eq _

theorem counted_slots (ns : List Slot) :
    counted slotByte ns = BitVec.ofNat 8 ns.length :: ns.map fun n => BitVec.ofNat 8 (n.val + 1) :=
  counted_u8 _ _ slotByte_eq ns

/-! ### The requests that name a flow or a group -/

section
variable {b : Byte}

theorem flowOfByte_of_val {i : Fin 255} (h : i.val + 1 = b.toNat) : flowOfByte b = some i := by
  unfold flowOfByte
  rw [dif_pos (by omega)]
  exact congrArg some (Fin.ext (by simp only; omega))

theorem withFlow_of_val {i : Fin 255} (h : i.val + 1 = b.toNat) (f : Fin 255 → State → Effect) (s : State) :
    withFlow b f s = f i s := by
  unfold withFlow
  rw [flowOfByte_of_val h]

theorem withFlow_zero (f : Fin 255 → State → Effect) (s : State) : withFlow 0 f s = refusedWith .badIndex s := rfl

theorem withGroup_of_val {g : Fin 16} (h : g.val + 1 = b.toNat) (f : Fin 16 → State → Effect) (s : State) :
    withGroup b f s = f g s := by
  have named : groupOfNat b.toNat = some g := by
    unfold groupOfNat
    rw [dif_pos (by omega)]
    exact congrArg some (Fin.ext (by simp only; omega))
  unfold withGroup
  rw [named]

theorem withGroup_of_past (h : b.toNat = 0 ∨ 16 < b.toNat) (f : Fin 16 → State → Effect) (s : State) :
    withGroup b f s = refusedWith .badIndex s := by
  have none : groupOfNat b.toNat = none := dif_neg (by omega)
  unfold withGroup
  rw [none]

end

/-! ### READ_GROUP and READ_WINDOWS -/

theorem groupMembers_length (s : State) (g : Fin 16) : (s.groupMembers g).length ≤ 12 :=
  List.length_filter_le _ allSlots

theorem groupMembers_ascending (s : State) (g : Fin 16) : (s.groupMembers g).Pairwise (fun a b => a < b) :=
  (show allSlots.Pairwise (fun a b => a < b) by decide).filter _

/-- The window list of a port, item by item. -/
theorem windowBytes_eq (ws : List Window) : windowBytes ws =
    [BitVec.ofNat 8 ws.length] ++ ws.flatMap fun w => beBytes 4 w.start ++ beBytes 4 w.length := by
  unfold windowBytes counted
  rw [u8_eq]
  rfl

theorem bankResults_eq (s : State) (p : Slot) (pending : Bool) :
    let b := if pending then s.cal.pendingBank else s.cal.active
    let ws := b.windows.read p
    bankResults s p pending = beBytes 4 b.cycle ++ [BitVec.ofNat 8 ws.length] ++
      ws.flatMap (fun w => beBytes 4 w.start ++ beBytes 4 w.length) ++ [if s.cal.arming = none then 0 else 1] := by
  have armed : flag s.armed = [if s.cal.arming = none then 0 else 1] := by
    unfold flag flagByte State.armed
    cases s.cal.arming <;> rfl
  intro b ws
  unfold bankResults
  dsimp only
  rw [windowBytes_eq, armed, ← List.append_assoc]
  rfl

/-- Settles O49: the results are what stands in the state the request is taken in. -/
theorem groupAndWindowReads : Obligations.GroupAndWindowReads := by
  intro group bank port q s
  refine ⟨fun takes => ⟨fun past => ?_, fun g named => ⟨groupMembers_length s g, groupMembers_ascending s g, ?_⟩⟩,
    fun takes => ⟨fun past => ?_, fun p named => ⟨fun other => ?_, fun known => ?_⟩⟩⟩
  · exact request_refuses takes (withGroup_of_past past _ _)
  · have bytes : groupBytes s.taking g = _ := counted_slots (s.groupMembers g)
    have read := request_answers takes (effect := fun _ => withGroup group fun g t => okWith (groupBytes t g) t)
      (withGroup_of_val named _ _)
    rw [bytes] at read
    exact read
  · exact request_refuses takes (withSlot_of_past past _ _)
  · refine request_refuses takes ((withSlot_of_val named _ _).trans ?_)
    rw [flagOfByte_eq, if_neg (Nat.not_le.2 other)]
    rfl
  · have code : (bank == 1) = !decide (bank = 0) := by
      obtain h | h : bank.toNat = 0 ∨ bank.toNat = 1 := by omega
      · rw [show bank = 0 from BitVec.eq_of_toNat_eq h]; rfl
      · rw [show bank = 1 from BitVec.eq_of_toNat_eq h]; rfl
    have banks : (if (!decide (bank = 0)) = true then s.cal.pendingBank else s.cal.active) =
        if bank = 0 then s.cal.active else s.cal.pendingBank := by
      by_cases h : bank = 0 <;> simp [h]
    have results := bankResults_eq s.taking p (bank == 1)
    rw [code, show s.taking.cal = s.cal from rfl, banks] at results
    refine request_answers takes ((withSlot_of_val named _ _).trans ?_)
    rw [flagOfByte_eq, if_pos known, code, ← results]
    rfl

end Sys2Proof.Machine
end

section
/-! SUPPORT. What the evaluation of FIT leaves of each flow, and what FLOW_SUSPENDED then says. -/

namespace Sys2Proof.Machine

section
variable {s : State}

/-! ### FIT -/

theorem mem_destPorts {r : FlowRecord} {d : Slot} : d ∈ s.destPorts r ↔ (s.slot d).state = .active ∧
    (r.dest = .slot d ∨ ∃ g : Fin 16, r.dest = .group g ∧ (s.fwd.groups.read g).read d = true ∧ d ≠ r.source) := by
  have member (n : Slot) : n ∈ allSlots := by revert n; decide
  unfold State.destPorts
  cases r.dest with
  | slot n =>
    dsimp only
    by_cases active : (s.slot n).state = .active
    · rw [if_pos (by simpa [State.isActive] using active), List.mem_singleton]
      constructor
      · rintro rfl
        exact ⟨active, .inl rfl⟩
      · rintro ⟨-, same | ⟨g, other, -⟩⟩
        · exact (FlowDest.slot.inj same).symm
        · cases other
    · rw [if_neg (by simpa [State.isActive] using active)]
      constructor
      · exact fun h => absurd h List.not_mem_nil
      · rintro ⟨active', same | ⟨g, other, -⟩⟩
        · exact absurd (FlowDest.slot.inj same ▸ active') active
        · cases other
  | group g =>
    simp [State.groupMembers, State.isActive, member d]
    tauto

theorem fitsPort_iff (b : Bank) (length : Nat) (p : Slot) : fitsPort s b length p = true ↔
    b.windows.read p ≠ [] ∧ ∃ w, (s.port p).reportedWidth = some w ∧
      ∀ win ∈ b.windows.read p, wireTime length w ≤ win.length := by
  unfold fitsPort
  cases (s.port p).reportedWidth <;> simp

/-- A flow fits a bank exactly when it fits each of its destination ports (R77). -/
theorem fits_iff (b : Bank) (r : FlowRecord) : fits s b r = true ↔ s.FlowFits b r := by
  unfold fits misfit State.FlowFits
  rw [Option.isNone_iff_eq_none, List.find?_eq_none]
  simp only [Bool.not_eq_true', Bool.not_eq_false, fitsPort_iff, mem_destPorts, and_imp]

theorem isEmpty_iff (x : Suspension) : x.isEmpty = true ↔ x = ⟨false, false, false, false⟩ := by
  obtain ⟨sourceDown, destDown, timing, fit⟩ := x
  simp [Suspension.isEmpty, and_assoc]

/-! ### FLOW_SUSPENDED -/

theorem enabled_iff (f : Flow) : f.enabled = true ↔ f.state = .live ∨ f.state = .suspended := by
  simp [Flow.enabled]

theorem mem_flows {f : Flow} : f ∈ s.fwd.flows.toList ↔ ∃ i, s.flow i = f := by
  rw [Vector.mem_toList_iff, Vector.mem_iff_getElem]
  exact ⟨fun ⟨i, h, e⟩ => ⟨⟨i, h⟩, e⟩, fun ⟨i, e⟩ => ⟨i, i.isLt, e⟩⟩

theorem flowSuspended_iff (s : State) : s.flowSuspended = true ↔ ∃ g : Fin 255,
    ((s.flow g).state = .live ∨ (s.flow g).state = .suspended) ∧
      ((s.flow g).suspension.timing = true ∨ (s.flow g).suspension.fit = true) := by
  unfold State.flowSuspended
  simp only [List.any_eq_true, mem_flows, Bool.and_eq_true, Bool.or_eq_true, enabled_iff]
  constructor
  · rintro ⟨_, ⟨g, rfl⟩, holds⟩
    exact ⟨g, holds⟩
  · rintro ⟨g, holds⟩
    exact ⟨_, ⟨g, rfl⟩, holds⟩

theorem reexamineFlows_fwd (s : State) : (reexamineFlows s).fwd = s.fwd := (reexamineFlows_changes s).same .fwd rfl

/-- Once FLOW_SUSPENDED is examined its condition is what the flows say (R26, R166). -/
theorem reexamineFlows_condition (s : State) :
    ((reexamineFlows s).point flowSuspendedPoint).condition = s.flowSuspended := by
  obtain ⟨same, rises, ends⟩ := reportCondition_reported flowSuspendedPoint s.flowSuspended s
  unfold reexamineFlows
  cases before : (s.point flowSuspendedPoint).condition <;> cases now : s.flowSuspended <;>
    rw [before, now] at same rises ends <;> rw [now] at *
  · rw [same rfl]; exact before
  · rw [rises rfl rfl]; split <;> rfl
  · rw [ends rfl rfl]; split <;> rfl
  · rw [same rfl]; exact before

/-- FLOW_SUSPENDED stands examined: it holds exactly while an enabled flow carries TIMING or FIT (R26). -/
theorem reexamineFlows_examined (s : State) :
    ((reexamineFlows s).point flowSuspendedPoint).condition = true ↔ ∃ g : Fin 255,
      (((reexamineFlows s).flow g).state = .live ∨ ((reexamineFlows s).flow g).state = .suspended) ∧
        (((reexamineFlows s).flow g).suspension.timing = true ∨ ((reexamineFlows s).flow g).suspension.fit = true) := by
  unfold State.flow
  rw [reexamineFlows_condition, flowSuspended_iff, reexamineFlows_fwd]
  rfl

/-! ### The evaluation of FIT -/

/-- The set of a flow of a record with FIT as the hub's state has it (R25). -/
def State.refit (s : State) (r : FlowRecord) (x : Suspension) : Suspension :=
  { x with fit := if r.cls = .sample then !fits s s.cal.active r else x.fit }

theorem evaluateFit_flow (s : State) (i : Fin 255) : (evaluateFit s).flow i = (s.flow i).resuspend s.refit :=
  resuspendFlows_flow _ s i

theorem evaluateFit_fwd (s : State) :
    (evaluateFit s).fwd = { s.fwd with flows := s.fwd.flows.mapAll fun f => f.resuspend s.refit } :=
  reexamineFlows_fwd _

/-- A flow that is not enabled has its set changed alone. -/
theorem Flow.resuspend_of_rest {f : Flow} (rest : f.enabled = false) {r : FlowRecord} (written : f.fields = some r)
    (g : FlowRecord → Suspension → Suspension) : f.resuspend g = { f with suspension := g r f.suspension } := by
  rw [Flow.resuspend_of_some written]
  unfold Flow.settle
  exact if_neg (by simpa [Flow.enabled] using rest)

/-- A flow of another class keeps its set, and settles. -/
theorem refit_other {r : FlowRecord} (other : r.cls ≠ .sample) (x : Suspension) : s.refit r x = x := by
  unfold State.refit
  rw [if_neg other]

/-- In a state that meets the invariant the evaluation of FIT changes no flow (R22, R25). -/
theorem evaluateFit_flow_of_inv (inv : s.FlowInv) (i : Fin 255) : (evaluateFit s).flow i = s.flow i := by
  obtain ⟨-, set, settled⟩ := (flowInv_iff s).1 inv i
  rw [evaluateFit_flow]
  cases written : (s.flow i).fields with
  | none => exact Flow.resuspend_of_none written _
  | some r =>
    have fresh := set r written
    have same : s.refit r (s.flow i).suspension = (s.flow i).suspension := by
      by_cases sample : r.cls = .sample
      · have fit : (s.flow i).suspension.fit = !fits s s.cal.active r := by
          rw [fresh]
          simp [freshSuspension, sample]
        unfold State.refit
        rw [if_pos sample, ← fit]
      · exact refit_other sample _
    rw [Flow.resuspend_of_some written, same]
    exact settled

theorem Flow.settled_live (f : Flow) (enabled : f.enabled = true) :
    f.settle.state = .live ↔ f.suspension.isEmpty = true := by
  unfold Flow.settle
  rw [if_pos enabled]
  cases f.suspension.isEmpty <;> simp

/-- The evaluation of FIT (R22, R25, R78). -/
theorem evaluateFit_evaluated (s : State) : FitEvaluated s.cal.active s (evaluateFit s) := by
  intro f
  rw [evaluateFit_flow]
  refine ⟨Flow.resuspend_fields _ _, fun r written => ?_⟩
  rw [Flow.resuspend_of_some written, Flow.settle_suspension]
  refine ⟨fun other => refit_other other _, fun sample => ?_, fun enabled => ?_, fun rest => ?_⟩
  · unfold State.refit
    rw [if_pos sample, ← fits_iff, Bool.not_eq_false']
  · exact Flow.settled_live { s.flow f with suspension := s.refit r (s.flow f).suspension } enabled
  · unfold Flow.settle
    rw [if_neg (by simpa [Flow.enabled] using rest)]

end

end Sys2Proof.Machine
end

section
/-! Flows are enabled, disabled and deleted (O55). -/

namespace Sys2Proof.Machine

section
variable {s : State} {f : Fin 255}

/-! ### ENABLE_FLOW -/

/-- The state in which ENABLE_FLOW of a DISABLED flow sets its state: a SAMPLE flow first has FIT evaluated (R37). -/
def State.beforeEnable (s : State) (f : Fin 255) : State :=
  if (s.flow f).fields.any (·.cls == .sample) then evaluateFit s else s

theorem enableFlow_of_disabled (disabled : (s.flow f).state = .disabled) : enableFlow f s =
    let u := reexamineFlows ((s.beforeEnable f).updFlow f Flow.enable)
    okWith (flowStateBytes (u.flow f)) u := by
  unfold enableFlow
  rw [disabled]
  rfl

theorem enableFlow_of_enabled (enabled : (s.flow f).state = .live ∨ (s.flow f).state = .suspended) :
    enableFlow f s = okWith (flowStateBytes (s.flow f)) s := by
  unfold enableFlow
  obtain h | h := enabled <;> rw [h]

theorem enable_of_eq {x y : Flow} (same : x = y) : x.enable = { y with state := x.enable.state } := same ▸ rfl

theorem beforeEnable_sample {r : FlowRecord} (written : (s.flow f).fields = some r) (sample : r.cls = .sample) :
    s.beforeEnable f = evaluateFit s := if_pos (by simp [written, sample])

theorem beforeEnable_other {r : FlowRecord} (written : (s.flow f).fields = some r) (other : r.cls ≠ .sample) :
    s.beforeEnable f = s := if_neg (by simp [written, other])

theorem beforeEnable_unwritten (written : (s.flow f).fields = none) : s.beforeEnable f = s := if_neg (by simp [written])

theorem beforeEnable_changes : OnlyChanges flowParts s (s.beforeEnable f) := by
  unfold State.beforeEnable
  split
  · exact evaluateFit_changes s
  · exact .refl s

theorem beforeEnable_fwd : (s.beforeEnable f).fwd = { s.fwd with flows := (s.beforeEnable f).fwd.flows } := by
  unfold State.beforeEnable
  split
  · rw [evaluateFit_fwd]
  · rfl

/-- A DISABLED flow has FIT alone evaluated. -/
theorem beforeEnable_flow (disabled : (s.flow f).state = .disabled) : (s.beforeEnable f).flow f = { s.flow f with
    suspension := { (s.flow f).suspension with fit := ((s.beforeEnable f).flow f).suspension.fit } } := by
  cases written : (s.flow f).fields with
  | none => rw [beforeEnable_unwritten written]
  | some r =>
    by_cases sample : r.cls = .sample
    · rw [beforeEnable_sample written sample, evaluateFit_flow,
        Flow.resuspend_of_rest (by simp [Flow.enabled, disabled]) written]
      rfl
    · rw [beforeEnable_other written sample]

theorem beforeEnable_fit (disabled : (s.flow f).state = .disabled) {r : FlowRecord}
    (written : (s.flow f).fields = some r) : ((s.beforeEnable f).flow f).suspension.fit =
      if r.cls = .sample then !fits s s.cal.active r else (s.flow f).suspension.fit := by
  by_cases sample : r.cls = .sample
  · rw [beforeEnable_sample written sample, evaluateFit_flow,
      Flow.resuspend_of_rest (by simp [Flow.enabled, disabled]) written]
    rfl
  · rw [beforeEnable_other written sample, if_neg sample]

theorem beforeEnable_flow_of_inv (inv : s.FlowInv) (g : Fin 255) : (s.beforeEnable f).flow g = s.flow g := by
  unfold State.beforeEnable
  split
  · exact evaluateFit_flow_of_inv inv g
  · rfl

end

/-- A flow's change after which FLOW_SUSPENDED is examined leaves the other flows, and the flow as changed. -/
theorem reexamined_flow (u : State) (f : Fin 255) (h : Flow → Flow) (g : Fin 255) :
    (reexamineFlows (u.updFlow f h)).flow g = if g = f then h (u.flow f) else u.flow g := by
  unfold State.flow
  rw [reexamineFlows_fwd]
  by_cases same : g = f
  · subst same
    rw [if_pos rfl]
    exact State.flow_updFlow_same u g h
  · rw [if_neg same]
    exact State.flow_updFlow_ne u f h same

theorem reexamined_fwd (u : State) (f : Fin 255) (h : Flow → Flow) :
    (reexamineFlows (u.updFlow f h)).fwd = { u.fwd with flows := u.fwd.flows.write f (h (u.flow f)) } :=
  reexamineFlows_fwd _

theorem reexamined_changes (u : State) (f : Fin 255) (h : Flow → Flow) :
    OnlyChanges flowParts u (reexamineFlows (u.updFlow f h)) :=
  (reexamineFlows_changes _).after ((updFlow_changes f h u).weaken (qs := flowParts) rfl) rfl

/-- A request as it is taken changes the agent and the outputs alone. -/
theorem taking_changes (s : State) : OnlyChanges flowParts s s.taking := fun q => by
  cases q <;> simp [Part.Same, State.taking, flowParts]

/-- Settles O55: each state of the flow gives the request's effect, and FLOW_SUSPENDED is examined at its end. -/
theorem flowIsEnabledDisabledAndDeleted : Obligations.FlowIsEnabledDisabledAndDeleted := by
  intro flow q s requests examined
  refine ⟨fun zero i member takes => ?_, fun f named => ?_⟩
  · subst zero
    simp only [requests, List.mem_cons, List.not_mem_nil, or_false] at member
    obtain rfl | rfl | rfl := member <;> exact request_refuses takes rfl
  intro x
  refine ⟨fun free i member takes => ?_, fun takes =>
    ⟨fun enabled => ?_, fun disabled => ?_⟩, fun takes => ⟨fun enabled => ?_, fun disabled => ?_⟩, fun takes =>
    ⟨fun enabled => ?_, fun disabled => ?_⟩⟩
  · have free' : (s.taking.flow f).state = .free := free
    simp only [requests, List.mem_cons, List.not_mem_nil, or_false] at member
    obtain rfl | rfl | rfl := member
    · exact request_refuses takes ((withFlow_of_val named _ _).trans (by rw [enableFlow, free']))
    · exact request_refuses takes ((withFlow_of_val named _ _).trans (by rw [disableFlow, free']))
    · exact request_refuses takes ((withFlow_of_val named _ _).trans (by simp [deleteFlow, free']))
  · exact request_answers takes ((withFlow_of_val named _ _).trans (enableFlow_of_enabled (s := s.taking) enabled))
  · let t := reexamineFlows ((s.taking.beforeEnable f).updFlow f Flow.enable)
    have before : (s.taking.flow f).state = .disabled := disabled
    have flow : t.flow f = ((s.taking.beforeEnable f).flow f).enable := (reexamined_flow _ f _ f).trans (if_pos rfl)
    have other (g : Fin 255) (h : g ≠ f) : t.flow g = (s.taking.beforeEnable f).flow g :=
      (reexamined_flow _ f _ g).trans (if_neg h)
    have suspension : (t.flow f).suspension = ((s.taking.beforeEnable f).flow f).suspension := by rw [flow]; rfl
    refine ⟨t, request_answers takes ((withFlow_of_val named _ _).trans (enableFlow_of_disabled before)), ?_, ?_,
      fun r written => ?_, ?_, fun inv g h => ?_, fun r written class_ g h => ?_, reexamineFlows_examined _, ?_⟩
    · rw [suspension, flow]
      simp only [Flow.enable, isEmpty_iff]
    · rw [suspension, flow]
      exact enable_of_eq (beforeEnable_flow before)
    · rw [suspension]
      exact beforeEnable_fit before written
    · have fwd := beforeEnable_fwd (s := s.taking) (f := f)
      rw [show t.fwd = _ from reexamined_fwd _ f _, fwd]
      rfl
    · exact (other g h).trans (beforeEnable_flow_of_inv (s := s.taking) inv g)
    · rw [other g h, beforeEnable_other (s := s.taking) written class_]
      rfl
    · exact (reexamined_changes _ _ _).after ((beforeEnable_changes (s := s.taking)).after (taking_changes s) rfl) rfl
  · have before : (s.taking.flow f).state = .live ∨ (s.taking.flow f).state = .suspended := enabled
    have effect : disableFlow f s.taking =
        okWith [] (reexamineFlows (s.taking.updFlow f fun y => { y with state := .disabled })) := by
      unfold disableFlow
      obtain h | h := before <;> rw [h]
    refine ⟨_, request_answers takes ((withFlow_of_val named _ _).trans effect), reexamined_fwd _ f _,
      reexamineFlows_examined _, ?_⟩
    exact (reexamined_changes _ _ _).after (taking_changes s) rfl
  · exact request_answers takes ((withFlow_of_val named _ _).trans
      (by rw [disableFlow, show (s.taking.flow f).state = .disabled from disabled]))
  · refine request_refuses takes ((withFlow_of_val named _ _).trans (if_neg fun h => ?_))
    rw [show (s.taking.flow f).state = x.state from rfl] at h
    obtain e | e := enabled <;> rw [e] at h <;> cases h
  · exact request_answers takes ((withFlow_of_val named _ _).trans (if_pos disabled))

end Sys2Proof.Machine
end

section
/-! Flows and groups are written (O54). -/

namespace Sys2Proof.Machine

/-! ### The fields of WRITE_FLOW -/

theorem slotOfByte_iff {x : Byte} {n : Slot} : slotOfByte x = some n ↔ n.val + 1 = x.toNat := by
  refine ⟨fun h => ?_, slotOfByte_of_val⟩
  unfold slotOfByte slotOfNat at h
  split at h
  · cases h
    simp only
    omega
  · cases h

theorem groupOfNat_iff {k : Nat} {g : Fin 16} : groupOfNat k = some g ↔ g.val + 1 = k := by
  unfold groupOfNat
  constructor
  · intro h
    split at h
    · cases h
      simp only
      omega
    · cases h
  · rintro rfl
    rw [dif_pos (by omega)]
    rfl

/-- A kind and a number spell a destination (R36, R188). -/
def FlowDest.SpelledBy (kind number : Byte) : FlowDest → Prop
  | .slot n => kind = 0 ∧ n.val + 1 = number.toNat
  | .group g => kind = 1 ∧ g.val + 1 = number.toNat

theorem FlowDest.bytes_of_spelled {kind number : Byte} {d : FlowDest} (h : d.SpelledBy kind number) :
    d.bytes = [kind, number] := by
  have byte (k : Nat) (e : k = number.toNat) : u8 k = [number] := by rw [u8_eq, e, BitVec.ofNat_toNat, BitVec.setWidth_eq]
  cases d with
  | slot n => obtain ⟨rfl, e⟩ := h; exact congrArg ([0] ++ ·) (byte _ e)
  | group g => obtain ⟨rfl, e⟩ := h; exact congrArg ([1] ++ ·) (byte _ e)

theorem flowDestOf_iff {kind number : Byte} {d : FlowDest} :
    flowDestOf kind number = some d ↔ d.SpelledBy kind number := by
  unfold flowDestOf
  split
  · next e =>
    obtain rfl : kind = 0 := BitVec.eq_of_toNat_eq e
    cases d <;> simp [FlowDest.SpelledBy, slotOfByte_iff]
  · next e =>
    obtain rfl : kind = 1 := BitVec.eq_of_toNat_eq e
    cases d <;> simp [FlowDest.SpelledBy, groupOfNat_iff]
  · next zero one =>
    have other : kind ≠ 0 ∧ kind ≠ 1 := ⟨fun e => zero (by rw [e]; rfl), fun e => one (by rw [e]; rfl)⟩
    cases d with
    | slot n => exact ⟨nofun, fun h => absurd h.1 other.1⟩
    | group g => exact ⟨nofun, fun h => absurd h.1 other.2⟩

theorem flowClassOfByte_iff {x : Byte} {c : FrameClass} : flowClassOfByte x = some c ↔ c.code = x ∧ c ≠ .timing := by
  unfold flowClassOfByte
  split
  · next e => obtain rfl : x = 0 := BitVec.eq_of_toNat_eq e; cases c <;> simp [FrameClass.code]
  · next e => obtain rfl : x = 2 := BitVec.eq_of_toNat_eq e; cases c <;> simp [FrameClass.code]
  · next e => obtain rfl : x = 3 := BitVec.eq_of_toNat_eq e; cases c <;> simp [FrameClass.code]
  · next zero two three =>
    refine ⟨nofun, fun ⟨code, flow⟩ => ?_⟩
    subst code
    cases c
    · exact absurd rfl zero
    · exact absurd rfl flow
    · exact absurd rfl two
    · exact absurd rfl three

theorem flagOfByte_iff {x : Byte} {b : Bool} : flagOfByte x = some b ↔ x.toNat ≤ 1 ∧ b = (x == 1) := by
  rw [flagOfByte_eq]
  split
  · next low => simp [low, eq_comm]
  · next high => simp [high]

/-- The bytes of WRITE_FLOW spell a record (R36). -/
structure FlowRecord.SpelledBy (src kind number clsCode : Byte) (length : BitVec 16) (lockCode : Byte) (r : FlowRecord) :
    Prop where
  source : r.source.val + 1 = src.toNat
  dest : r.dest.SpelledBy kind number
  apart : r.dest ≠ .slot r.source
  cls : r.cls.code = clsCode ∧ r.cls ≠ .timing
  maxFrame : r.maxFrame = max 64 (min 2048 length.toNat)
  needsLock : lockCode.toNat ≤ 1 ∧ r.needsLock = (lockCode == 1)

section
variable {source kind number cls lock : Byte} {length : BitVec 16} {r : FlowRecord}

theorem flowFields_iff : flowFields source kind number cls length lock = some r ↔
    r.SpelledBy source kind number cls length lock := by
  unfold flowFields
  simp only [Option.bind_eq_bind, Option.bind_eq_some_iff, slotOfByte_iff, flowDestOf_iff, flowClassOfByte_iff,
    flagOfByte_iff]
  constructor
  · rintro ⟨n, source, d, dest, c, cls, l, lock, spelled⟩
    split at spelled
    · cases spelled
    · next apart => cases spelled; exact ⟨source, dest, apart, cls, rfl, lock⟩
  · rintro ⟨source, dest, apart, cls, maxFrame, lock⟩
    refine ⟨_, source, _, dest, _, cls, _, lock, ?_⟩
    rw [if_neg apart]
    exact congrArg (fun k => some { r with maxFrame := k }) maxFrame.symm

/-- The bytes spell a record exactly when they pass the checks of WRITE_FLOW (R36). -/
theorem spelled_iff : (∃ r : FlowRecord, r.SpelledBy source kind number cls length lock) ↔
    (1 ≤ source.toNat ∧ source.toNat ≤ 12) ∧
      ((kind = 0 ∧ (1 ≤ number.toNat ∧ number.toNat ≤ 12) ∧ number ≠ source) ∨
        (kind = 1 ∧ 1 ≤ number.toNat ∧ number.toNat ≤ 16)) ∧
      (cls = 0 ∨ cls = 2 ∨ cls = 3) ∧ lock.toNat ≤ 1 := by
  constructor
  · rintro ⟨r, source_eq, dest, apart, ⟨cls, flow⟩, -, lock⟩
    refine ⟨by omega, ?_, ?_, lock.1⟩
    · cases named : r.dest with
      | slot n =>
        rw [named] at dest apart
        obtain ⟨kind_eq, number_eq⟩ := dest
        refine .inl ⟨kind_eq, by omega, fun same => apart ?_⟩
        rw [same] at number_eq
        exact congrArg FlowDest.slot (Fin.ext (by omega))
      | group g =>
        rw [named] at dest
        obtain ⟨kind_eq, number_eq⟩ := dest
        exact .inr ⟨kind_eq, by omega⟩
    · subst cls
      cases h : r.cls
      case timing => exact absurd h flow
      all_goals decide
  · rintro ⟨named, dest, flowClass, lockFlag⟩
    obtain ⟨n, source_eq⟩ : ∃ n : Slot, n.val + 1 = source.toNat := ⟨⟨source.toNat - 1, by omega⟩, by simp only; omega⟩
    obtain ⟨d, dest_eq, apart⟩ : ∃ d : FlowDest, d.SpelledBy kind number ∧ d ≠ .slot n := by
      obtain ⟨kind_eq, named, other⟩ | ⟨kind_eq, named⟩ := dest
      · refine ⟨.slot ⟨number.toNat - 1, by omega⟩, ⟨kind_eq, by simp only; omega⟩, fun same => other ?_⟩
        have value : number.toNat - 1 = n.val := congrArg Fin.val (FlowDest.slot.inj same)
        exact BitVec.eq_of_toNat_eq (by omega)
      · exact ⟨.group ⟨number.toNat - 1, by omega⟩, ⟨kind_eq, by simp only; omega⟩, nofun⟩
    obtain ⟨c, cls_eq⟩ : ∃ c : FrameClass, c.code = cls ∧ c ≠ .timing := by
      obtain rfl | rfl | rfl := flowClass
      · exact ⟨.sample, rfl, nofun⟩
      · exact ⟨.control, rfl, nofun⟩
      · exact ⟨.bulk, rfl, nofun⟩
    exact ⟨⟨n, d, c, _, _⟩, source_eq, dest_eq, apart, cls_eq, rfl, lockFlag, rfl⟩

end

/-! ### WRITE_FLOW -/

section
variable {s : State} {i : Fin 255} {r : FlowRecord}

theorem code_eq_zero_iff {c : FrameClass} : c.code = 0 ↔ c = .sample := by
  cases c <;> decide

/-- The state as a record that passed the checks stands written (R36). -/
def State.flowPut (s : State) (i : Fin 255) (r : FlowRecord) : State :=
  let t := s.updFlow i fun _ => ⟨.disabled, some r, freshSuspension s r, 0, 0⟩
  if r.cls = .sample then evaluateFit t else t

theorem putFlow_eq : putFlow i r s = okWith (writtenBytes i r ((s.flowPut i r).flow i)) (s.flowPut i r) := rfl

/-- A written flow is DISABLED with the set formed from the hub's present state, which an evaluation of FIT leaves
(R25, R36). -/
theorem flowPut_flow : (s.flowPut i r).flow i = ⟨.disabled, some r, freshSuspension s r, 0, 0⟩ := by
  unfold State.flowPut
  have written : (s.updFlow i fun _ => ⟨.disabled, some r, freshSuspension s r, 0, 0⟩).flow i =
      ⟨.disabled, some r, freshSuspension s r, 0, 0⟩ := State.flow_updFlow_same s i _
  dsimp only
  split
  · next sample =>
    rw [evaluateFit_flow, written, Flow.resuspend_of_rest rfl rfl]
    refine congrArg (fun x => (⟨.disabled, some r, x, 0, 0⟩ : Flow)) ?_
    unfold State.refit freshSuspension
    rw [if_pos sample, show (r.cls == .sample) = true by simpa using sample]
    rfl
  · exact written

theorem writtenBytes_eq {flow source kind number cls lock : Byte} {length : BitVec 16} (named : i.val + 1 = flow.toNat)
    (spelled : r.SpelledBy source kind number cls length lock) (x : Suspension) :
    writtenBytes i r ⟨.disabled, some r, x, 0, 0⟩ = [flow, 1, source, kind, number, cls] ++
      beBytes 2 (max 64 (min 2048 length.toNat)) ++ [lock] ++ x.bytes ++ [0, 0, 0, 0, 0, 0, 0, 0] := by
  have byte {k : Nat} {b : Byte} (e : k = b.toNat) : u8 k = [b] := by rw [u8_eq, e, BitVec.ofNat_toNat, BitVec.setWidth_eq]
  obtain ⟨source_eq, dest, -, ⟨code, -⟩, maxFrame, low, needsLock⟩ := spelled
  have flag : flag r.needsLock = [lock] := by
    obtain h | h : lock.toNat = 0 ∨ lock.toNat = 1 := by omega
    · obtain rfl : lock = 0 := BitVec.eq_of_toNat_eq h
      rw [needsLock]
      rfl
    · obtain rfl : lock = 1 := BitVec.eq_of_toNat_eq h
      rw [needsLock]
      rfl
  unfold writtenBytes FlowRecord.bytes flowByte slotByte slotNumber
  rw [byte named, byte source_eq, FlowDest.bytes_of_spelled dest, code, maxFrame, flag]
  simp [FlowState.code, u16, u32, beBytes]

end

/-! ### WRITE_GROUP -/

section
variable {s : State} {g : Fin 16} {members : List Byte}

theorem slotsOf_none {x : Byte} (member : x ∈ members) (unnamed : ¬ (1 ≤ x.toNat ∧ x.toNat ≤ 12)) :
    slotsOf members = none := by
  induction members with
  | nil => cases member
  | cons b bs ih =>
    unfold slotsOf
    obtain rfl | member := List.mem_cons.1 member
    · rw [slotOfByte_of_past (by omega)]
    · rw [ih member]
      cases slotOfByte b <;> rfl

/-- A list of slot numbers names the slots whose numbers it holds (R41). -/
theorem slotsOf_some (named : ∀ x ∈ members, 1 ≤ x.toNat ∧ x.toNat ≤ 12) : ∃ ns : List Slot, slotsOf members = some ns ∧
    ∀ n : Slot, ns.contains n = members.contains (BitVec.ofNat 8 (n.val + 1)) := by
  induction members with
  | nil => exact ⟨[], rfl, fun n => rfl⟩
  | cons b bs ih =>
    obtain ⟨ns, slots, same⟩ := ih fun x h => named x (List.mem_cons_of_mem b h)
    have range := named b List.mem_cons_self
    have number : (⟨b.toNat - 1, by omega⟩ : Slot).val + 1 = b.toNat := by simp only; omega
    refine ⟨⟨b.toNat - 1, by omega⟩ :: ns, by unfold slotsOf; rw [slotOfByte_of_val number, slots], fun n => ?_⟩
    have head : (n == (⟨b.toNat - 1, by omega⟩ : Slot)) = (BitVec.ofNat 8 (n.val + 1) == b) := by
      rw [Bool.eq_iff_iff, beq_iff_eq, beq_iff_eq, Fin.ext_iff, ← BitVec.toNat_inj, BitVec.toNat_ofNat]
      simp only
      omega
    rw [List.contains_cons, List.contains_cons, same, head]

theorem sampleFlowNames_iff : sampleFlowNames s g = true ↔
    ∃ (f : Fin 255) (r : FlowRecord), (s.flow f).fields = some r ∧ r.cls = .sample ∧ r.dest = .group g := by
  unfold sampleFlowNames
  simp only [List.any_eq_true, mem_flows, Option.any_eq_true, Bool.and_eq_true, beq_iff_eq]
  constructor
  · rintro ⟨_, ⟨f, rfl⟩, r, holds⟩
    exact ⟨f, r, holds⟩
  · rintro ⟨f, r, holds⟩
    exact ⟨_, ⟨f, rfl⟩, r, holds⟩

/-- The state as a group has become the set of some slots (R41). -/
def State.groupSet (s : State) (g : Fin 16) (ns : List Slot) : State :=
  { s with fwd := { s.fwd with groups := s.fwd.groups.write g (Table.build fun n => ns.contains n) } }

/-- The state once a written group has FIT of the flows that name it evaluated (R41). -/
def State.groupWritten (s : State) (g : Fin 16) (ns : List Slot) : State :=
  if sampleFlowNames (s.groupSet g ns) g then evaluateFit (s.groupSet g ns) else s.groupSet g ns

theorem writeGroup_eq (ns : List Slot) : writeGroup g ns s = okWith (groupBytes (s.groupWritten g ns) g)
    (s.groupWritten g ns) := rfl

theorem groupWritten_fwd (ns : List Slot) : (s.groupWritten g ns).fwd = { s.fwd with
    flows := (s.groupWritten g ns).fwd.flows
    groups := s.fwd.groups.write g (Table.build fun n => ns.contains n) } := by
  unfold State.groupWritten
  split
  · rw [evaluateFit_fwd]
    rfl
  · rfl

theorem groupWritten_fwd_rest (ns : List Slot) : (s.groupWritten g ns).fwd = { s.fwd with
    flows := (s.groupWritten g ns).fwd.flows, groups := (s.groupWritten g ns).fwd.groups } := by
  rw [groupWritten_fwd]

theorem groupWritten_groups (ns : List Slot) : (s.groupWritten g ns).fwd.groups =
    s.fwd.groups.write g (Table.build fun n => ns.contains n) := by rw [groupWritten_fwd]

theorem groupWritten_members (ns : List Slot) : (s.groupWritten g ns).groupMembers g = allSlots.filter ns.contains := by
  unfold State.groupMembers
  rw [groupWritten_groups, Table.read_write_same]
  simp only [Table.read_build]

theorem groupWritten_others (ns : List Slot) {h : Fin 16} (other : h ≠ g) :
    (s.groupWritten g ns).groupMembers h = s.groupMembers h := by
  unfold State.groupMembers
  rw [groupWritten_groups, Table.read_write_ne _ _ other]

theorem groupWritten_changes (ns : List Slot) : OnlyChanges flowParts s (s.groupWritten g ns) := by
  have set : OnlyChanges flowParts s (s.groupSet g ns) := (with_fwd_changes s _).weaken rfl
  unfold State.groupWritten
  split
  · exact (evaluateFit_changes _).after set rfl
  · exact set

end

/-- Settles O54: the bytes pass exactly when they spell a record, and a group that no SAMPLE flow names moves no FIT. -/
theorem flowAndGroupAreWritten : Obligations.FlowAndGroupAreWritten := by
  intro flow source destKind dest cls maxFrame lock group members q s write slotNo goodDest good length
  have idle {i : Fin 255} (rest : (s.flow i).state = .free ∨ (s.flow i).state = .disabled) :
      ¬ (s.taking.flow i).enabled = true := by
    rw [enabled_iff, show s.taking.flow i = s.flow i from rfl]
    obtain h | h := rest <;> simp [h]
  refine ⟨fun takes => ⟨fun zero => ?_, fun i named => ⟨fun enabled => ?_, fun rest bad => ?_, fun rest pass => ?_⟩⟩,
    fun takes => ?_⟩
  · subst zero
    exact request_refuses takes rfl
  · refine request_refuses takes ((withFlow_of_val named _ _).trans (if_pos ?_))
    exact (enabled_iff _).2 enabled
  · have none : flowFields source destKind dest cls maxFrame lock = .none := by
      refine Option.eq_none_iff_forall_ne_some.2 fun r spelled => bad ?_
      exact spelled_iff.1 ⟨r, flowFields_iff.1 spelled⟩
    refine request_refuses takes ((withFlow_of_val named _ _).trans ?_)
    unfold writeFlow
    rw [if_neg (idle rest), none]
    rfl
  · obtain ⟨r, spelled⟩ := spelled_iff (length := maxFrame).2 pass
    have record := flowPut_flow (s := s.taking) (i := i) (r := r)
    have written : withFlow flow (writeFlow (flowFields source destKind dest cls maxFrame lock)) s.taking =
        okWith (writtenBytes i r ((s.taking.flowPut i r).flow i)) (s.taking.flowPut i r) := by
      rw [withFlow_of_val named]
      unfold writeFlow
      rw [if_neg (idle rest), flowFields_iff.2 spelled]
      rfl
    rw [record, writtenBytes_eq named spelled] at written
    refine ⟨s.taking.flowPut i r, ?_, ?_, fun other => ?_⟩
    · rw [record]
      exact request_answers takes written
    · rw [record]
      obtain ⟨sourceDown, destDown, timing, fit⟩ := (freshSuspension_iff s.taking r _).1 rfl
      obtain ⟨source_eq, dest_eq, -, ⟨code, -⟩, maxFrame_eq, -, needsLock⟩ := id spelled
      refine ⟨r, rfl, rfl, source_eq, FlowDest.bytes_of_spelled dest_eq, code, maxFrame_eq, needsLock, sourceDown,
        destDown, timing.trans ?_, fit.trans ?_⟩
      · rw [needsLock, beq_iff_eq]
        rfl
      · refine and_congr (by rw [← code]; exact code_eq_zero_iff.symm) ?_
        rw [← Bool.not_eq_true, fits_iff]
        rfl
    · rw [record]
      unfold State.flowPut
      rw [if_neg fun sample => other ?_]
      · rfl
      · obtain ⟨-, -, -, ⟨code, -⟩, -⟩ := spelled
        rw [← code, sample]
        rfl
  · refine ⟨fun past => ?_, fun g named => ⟨fun bad => ?_, fun good => ?_⟩⟩
    · refine (request_takes takes _).trans ?_
      dsimp only
      rw [withGroup_of_past past]
      rfl
    · obtain ⟨x, member, unnamed⟩ := bad
      refine (request_takes takes _).trans ?_
      dsimp only
      rw [withGroup_of_val named, slotsOf_none member unnamed]
      rfl
    · obtain ⟨ns, slots, same⟩ := slotsOf_some good
      let t := s.taking.drawn.groupWritten g ns
      have set : t.groupMembers g = _ := groupWritten_members ns
      rw [funext same] at set
      have bytes : groupBytes t g = _ := counted_slots (t.groupMembers g)
      rw [set] at bytes
      have unnamed : (∀ (f : Fin 255) (r : FlowRecord), (s.flow f).fields = some r → r.cls = .sample → r.dest ≠ .group g) →
          t = s.taking.drawn.groupSet g ns := fun none => if_neg fun names => by
        obtain ⟨f, r, written, sample, dest⟩ := sampleFlowNames_iff.1 names
        exact none f r written sample dest
      refine ⟨t, ?_, set, fun h other => groupWritten_others ns other, fun none => ?_, fun names => ?_,
        groupWritten_fwd_rest (s := s.taking.drawn) ns, ?_, ?_⟩
      · refine (request_takes takes _).trans ?_
        rw [withGroup_of_val named, slots, ← bytes]
        rfl
      · rw [unnamed none]
        rfl
      · have evaluated : t = evaluateFit (s.taking.drawn.groupSet g ns) := if_pos (sampleFlowNames_iff.2 names)
        rw [show t.fwd.groups = _ from groupWritten_groups ns, evaluated]
        exact evaluateFit_evaluated (s.taking.drawn.groupSet g ns)
      · exact (groupWritten_changes (s := s.taking.drawn) ns).same .free rfl
      · have taken : OnlyChanges (flowParts ++ [.free]) s s.taking := (taking_changes s).weaken rfl
        exact (groupWritten_changes _).after ((drawn_changes s.taking).after taken rfl) rfl

end Sys2Proof.Machine
end

section
/-! The reads carry their items and change nothing (O48). -/

namespace Sys2Proof.Machine

/-! ### Items -/

theorem flag_eq (b : Bool) : flag b = [if b then 1 else 0] := rfl

/-- A suspension set is the list of its reasons' codes. -/
theorem suspensionBytes_eq (x : Suspension) :
    let reasons : List Byte := (if x.sourceDown then [0] else []) ++ (if x.destDown then [1] else []) ++
      (if x.timing then [2] else []) ++ (if x.fit then [3] else [])
    x.bytes = beBytes 1 reasons.length ++ reasons := by
  obtain ⟨sourceDown, destDown, timing, fit⟩ := x
  cases sourceDown <;> cases destDown <;> cases timing <;> cases fit <;> rfl

/-- A read is answered with what it carries. -/
theorem answered_of_bytes {i : Instr} {s : State} {q : Request} {bytes results : List Byte}
    (answered : Answered i s q .ok bytes s.taking) (same : bytes = results) : Answered i s q .ok results s.taking :=
  same ▸ answered

/-- Settles O48: each read's results are its items one after another, in the state the request is taken in. -/
theorem stateReadsChangeNothing : Obligations.StateReadsChangeNothing := by
  intro slot point flow q s t c u yes may number agent kind reads refuses
  have optional_eq {α : Type} (k : Nat) (enc : α → List Byte) (o : Option α) : optional k enc o = may k (o.map enc) := by
    cases o <;> rfl
  refine ⟨fun takes => ?_, fun n named => ?_, ?_, ?_, fun past => ?_, ?_, fun past other => ?_, fun zero takes => ?_,
    fun f named => ?_⟩
  · refine answered_of_bytes (bytes := hubResults s.taking) (request_answers takes rfl) ?_
    have queue : s.taking.agent.queue.length = s.agent.queue.length - 1 := List.length_tail
    unfold hubResults AgentCounters.bytes
    rw [queue]
    simp only [u8, u16, u32, u64, List.append_assoc, u, agent]
    rfl
  · have reads_of {i : Instr} {f : State → Slot → List Byte} {results : List Byte}
        (exec_eq : exec i s = request i (fun _ => withSlot slot fun n t => okWith (f t n) t) s)
        (same : f s.taking n = results) : reads i results := fun takes =>
      answered_of_bytes (bytes := f s.taking n) (exec_eq.trans (request_answers takes (withSlot_of_val named _ _))) same
    refine ⟨reads_of rfl ?_, reads_of rfl ?_, reads_of rfl ?_, reads_of rfl ?_⟩
    · have kind_eq (i : Identity) : i.kind.index.val = i.kind.code - 1 := rfl
      have place : may 1 ((positionIn n s.slots.waitingList).map u8) =
          may 1 ((s.slots.waitingList.findIdx? (· == n)).map fun k => u 1 (k + 1)) := by
        unfold positionIn
        rw [Option.map_map]
        rfl
      have budget : s.slots.inForce.code = if s.slots.inForce = .mains then 0 else 1 := by
        cases s.slots.inForce <;> rfl
      unfold slotResults slotRecordBytes SlotCounters.bytes counted
      simp only [optional_eq, show s.taking.slots = s.slots from rfl, place, budget]
      simp only [List.append_assoc]
      rfl
    · have entry : optional 3 (fun e : Nat × Nat × Bool => u8 e.1 ++ u8 e.2.1 ++ flag e.2.2) (identifyEntry s.side n) =
          may 3 ((s.side.queue.findIdx? (SidebandEntry.identifies n)).bind fun i => match s.side.queue[i]? with
            | some (.identify _ attempt) => some (u 1 attempt ++ u 1 (i + 1) ++
              yes (i == 0 && s.side.current.any fun y => !y.aborting))
            | _ => none) := by
        rw [optional_eq]
        unfold identifyEntry
        cases s.side.queue.findIdx? (SidebandEntry.identifies n) with
        | none => rfl
        | some i =>
          simp only [Option.bind_some]
          cases s.side.queue[i]? with
          | none => rfl
          | some e => cases e <;> rfl
      unfold identityResults
      rw [show s.taking.side = s.side from rfl, entry]
      unfold Identity.bytes AckMap.bytes SidebandCounters.bytes
      simp only [optional_eq, List.append_assoc]
      rfl
    · unfold counterResults LinkCounters.bytes DropCounters.bytes EgressCounters.bytes queueLevels AgentCounters.bytes
      simp only [List.append_assoc, agent]
      rfl
    · unfold delayResults ProbeConfig.bytes DelayCounters.bytes counted
      simp only [optional_eq, List.append_assoc]
      rfl
  · intro k source both takes
    refine answered_of_bytes (bytes := timingResults s.taking) (request_answers takes rfl) ?_
    have source_eq (r : SourceRecord) : sourceBytes s.taking r = source r := by
      have holdoff : optional 1 u8 (holdoffSeconds s.taking r) = may 1 (if r.state = .failed then r.holdoffStart.map
          fun y => u 1 (min 10 ((s.time.localTicks - y) / 125000000)) else none) := by
        rw [optional_eq]
        unfold holdoffSeconds
        split
        · rw [Option.map_map]
          rfl
        · rfl
      unfold sourceBytes
      rw [holdoff]
      simp only [optional_eq]
      rfl
    have quality : u8 k.timing.quality =
        u 1 (match k.timing with | .locked => 1 | .holdover => 2 | .acquiring => 3 | .freerun => 4) := by
      cases k.timing <;> rfl
    have selected : selectedCode k.selected = match k.selected with | none => 0 | some .P => 1 | some .N => 2 := by
      obtain _ | _ | _ := k.selected <;> rfl
    have holdover : s.taking.holdoverTimer = match k.holdoverStart with
        | some y => (s.time.localTicks - y) / 125000000
        | none => k.holdoverLast := by
      unfold State.holdoverTimer
      rw [show s.taking.trk = k from rfl]
      cases k.holdoverStart <;> rfl
    have nSlot : (k.source.nSlot.map slotNumber).getD 0 = match k.source.nSlot with | some y => y.val + 1 | none => 0 := by
      cases k.source.nSlot <;> rfl
    unfold timingResults SourceConfig.bytes ServoConfig.bytes TrackerCounters.bytes Stamp.bytes
    simp only [show s.taking.trk = k from rfl, source_eq, quality, selected, holdover, nSlot, both, List.append_assoc]
    rfl
  · intro m takes
    refine answered_of_bytes (bytes := readMonitorResults m) (request_answers takes rfl) ?_
    have converting : optional 1 (fun c : Channel => u8 c.val) m.converting =
        may 1 ((if m.state = .scanning then m.pass.head? else none).map fun y => u 1 y.val) := optional_eq ..
    have channel (y : Channel) : monitorChannelBytes m y = (m.channel.read y).bytes ++
        (if h : y.val < 12 then yes (m.powered.read ⟨y.val, h⟩) else ([] : List Byte)) := by
      unfold monitorChannelBytes channelSlot
      by_cases h : y.val < 12
      · rw [dif_pos h, dif_pos h]
        rfl
      · rw [dif_neg h, dif_neg h]
    unfold readMonitorResults
    rw [converting, funext channel]
    unfold ChannelRecord.bytes
    simp only [optional_eq, List.append_assoc]
    rfl
  · exact ⟨fun takes => request_refuses takes (withSlot_of_past past _ _),
      fun takes => request_refuses takes (withSlot_of_past past _ _),
      fun takes => request_refuses takes (withSlot_of_past past _ _),
      fun takes => request_refuses takes (withSlot_of_past past _ _)⟩
  · intro a unit
    have unit_eq : alarmResults s.taking = unit := by
      unfold alarmResults unit
      simp only [List.append_assoc]
      rfl
    refine ⟨fun list => ?_, fun id named => ?_⟩
    · subst list
      intro takes
      refine answered_of_bytes (bytes := alarmResults s.taking ++ counted (listedBytes s.taking) a.active)
        (request_answers takes rfl) ?_
      rw [unit_eq]
      unfold listedBytes counted
      simp only [List.append_assoc]
      rfl
    · intro p takes
      have within := id.isLt
      have reads : readAlarms point s.taking = okWith (alarmResults s.taking ++ pointBytes s.taking id) s.taking := by
        unfold readAlarms withPoint pointOfByte
        have single : point ≠ 0xFF := fun e => by rw [e] at named; simp at named; omega
        have index : (⟨point.toNat, by omega⟩ : PointId) = id := Fin.ext named.symm
        rw [if_neg single, dif_pos (by omega), index]
      refine answered_of_bytes (bytes := alarmResults s.taking ++ pointBytes s.taking id)
        (request_answers takes reads) ?_
      rw [unit_eq]
      unfold pointBytes
      simp only [optional_eq, List.append_assoc]
      rfl
  · intro takes
    refine request_refuses takes ?_
    unfold readAlarms withPoint pointOfByte
    rw [if_neg other, dif_neg (by omega)]
  · subst zero
    exact answered_of_bytes (bytes := u32 s.fwd.defaultForwarded ++ u32 s.fwd.defaultDropped)
      (request_answers takes rfl) rfl
  · intro x reasons takes
    have reads : readFlow flow s.taking = okWith (flowBytes x) s.taking := by
      unfold readFlow
      rw [flowOfByte_of_val named]
      rfl
    refine answered_of_bytes (bytes := flowBytes x) (request_answers takes reads) ?_
    have suspension : x.suspension.bytes = u 1 reasons.length ++ reasons :=
      suspensionBytes_eq x.suspension
    have fields (r : FlowRecord) : r.bytes = number r.source ++
        (match r.dest with | .slot n => 0 :: number n | .group g => 1 :: u 1 (g.val + 1)) ++
        [r.cls.code] ++ u 2 r.maxFrame ++ yes r.needsLock := by
      unfold FlowRecord.bytes
      cases r.dest <;> rfl
    unfold flowBytes
    rw [suspension, optional_eq, funext fields]
    simp only [List.append_assoc]
    rfl

end Sys2Proof.Machine
end

section
/-! SUPPORT. What the timing states, the selection and the source states leave: the tracker, hub time, the quality class
and the alarm points (R86 to R91). -/

namespace Sys2Proof.Machine

/-! ### The delay unit beside what reaches its slots -/

/-- Between two states the delay unit moved in its slots' records alone. -/
structure SlotDelaysMove (s t : State) : Prop where
  delay : t.delay = { s.delay with slot := t.delay.slot }

section
variable {s t u : State}

theorem SlotDelaysMove.refl (s : State) : SlotDelaysMove s s := ⟨rfl⟩

theorem SlotDelaysMove.trans (h : SlotDelaysMove s t) (k : SlotDelaysMove t u) : SlotDelaysMove s u :=
  ⟨by rw [k.delay, h.delay]⟩

theorem SlotDelaysMove.of_same (same : t.delay = s.delay) : SlotDelaysMove s t :=
  ⟨by rw [same]⟩

theorem SlotDelaysMove.of_changes {ps : List Part} (only : OnlyChanges ps s t) (apart : ps.contains .delay = false) :
    SlotDelaysMove s t := .of_same (only.same .delay apart)

theorem SlotDelaysMove.quality (h : SlotDelaysMove s t) : t.delay.quality = s.delay.quality := by
  rw [h.delay]

end

theorem updDelay_slotDelays (n : Slot) (f : SlotDelay → SlotDelay) (s : State) : SlotDelaysMove s (s.updDelay n f) :=
  ⟨rfl⟩

theorem arbitrate_slotDelays (p : Slot) (s : State) : SlotDelaysMove s (arbitrate p s) := by
  have sent (h : HubFrame) (t : Stamp) (v : State) : SlotDelaysMove v (probeSent h.dest h.seq t v) := by
    unfold probeSent
    split
    · split
      · exact updDelay_slotDelays ..
      · exact .refl v
    · exact .refl v
  have reported (b : FrameBody) (v : State) : SlotDelaysMove v (reportEgress b v) := by
    unfold reportEgress
    split
    · split
      · exact sent ..
      · exact .refl v
    · exact .refl v
  unfold arbitrate startFrame
  split
  · split
    · dsimp only
      split
      · refine SlotDelaysMove.trans ?_ (reported ..)
        exact .of_same rfl
      · exact .refl s
    · exact .refl s
  · exact .refl s

theorem offered_slotDelays (h : HubFrame) (s : State) : SlotDelaysMove s (s.offered h) := by
  unfold State.offered
  dsimp only
  split
  · refine SlotDelaysMove.trans ?_ (arbitrate_slotDelays ..)
    exact .of_same rfl
  · exact .of_same rfl

theorem makeResponse_slotDelays (kind : ResponseKind) (dest : Slot) (seq : Byte) (payload : List Byte) (s : State) :
    SlotDelaysMove s (makeResponse kind dest seq payload s) := by
  rcases makeResponse_cases kind dest seq payload s with h | ⟨-, h⟩ | h <;> rw [h]
  · rw [sendResponse_eq]
    refine SlotDelaysMove.trans ?_ (offered_slotDelays ..)
    exact .of_same rfl
  · exact .of_same rfl
  · refine SlotDelaysMove.trans ?_ (.of_changes (joinWaiting_changes _ _) rfl)
    exact .of_same rfl

theorem completeWait_slotDelays (w : Wait) (ns : List Notice) (s : State) : SlotDelaysMove s (completeWait w ns s) := by
  unfold completeWait complete
  split
  · refine SlotDelaysMove.trans ?_ (makeResponse_slotDelays ..)
    exact .of_same rfl
  · exact .of_same rfl

theorem produce_slotDelays (bodies : List NoticeBody) (s : State) : SlotDelaysMove s (produce bodies s) := by
  have delivered (ws : List Wait) : ∀ (ns : List Notice) (v : State), SlotDelaysMove v (deliver ws ns v) := by
    induction ws with
    | nil =>
      exact fun ns v => .of_changes (OnlyChanges.forEach (fun n t => pendNotice_changes n t) ns v) rfl
    | cons w ws ih =>
      intro ns v
      unfold deliver
      split
      · exact .refl v
      · exact (completeWait_slotDelays ..).trans (ih ..)
  refine SlotDelaysMove.trans ?_ (delivered ..)
  exact .of_same rfl

theorem changePoint_slotDelays (id : PointId) (new : Point) (s : State) : SlotDelaysMove s (changePoint id new s) :=
  SlotDelaysMove.trans (.of_changes (movePoint_changes id new s) rfl) (produce_slotDelays ..)

/-! ### Timing states -/

/-- The tracker as a timing state is entered (R89, R90). -/
def State.entered (s : State) (new : TimingState) : Tracker :=
  { s.trk with
    timing := new
    holdoverReady := match new with
      | .locked => true
      | .freerun => false
      | .acquiring | .holdover => s.trk.holdoverReady
    holdoverStart := if new = .holdover then some s.time.localTicks else none
    holdoverLast := if s.trk.timing = .holdover then s.holdoverTimer else s.trk.holdoverLast
    lockRun := if new = .acquiring then 0 else s.trk.lockRun
    unlockRun := if new = .acquiring ∨ new = .locked then 0 else s.trk.unlockRun }

section
variable (new : TimingState) (s : State)

theorem enterTiming_trk : (enterTiming new s).trk = s.entered new := by
  unfold enterTiming
  dsimp only
  rw [(alarmTiming_changes _ _ _).same .trk rfl]
  dsimp only
  rw [(flowsTimingChange_changes _ _ _).same .trk rfl]
  cases new <;> rfl

/-- Hub time runs at I in HOLDOVER, and stays as it is in every other state (R90). -/
theorem enterTiming_time : (enterTiming new s).time = if new = .holdover then
    { s.time with freq := s.trk.integral, increment := incrementOf s.trk.integral } else s.time := by
  unfold enterTiming
  dsimp only
  rw [(alarmTiming_changes _ _ _).same .time rfl]
  dsimp only
  rw [(flowsTimingChange_changes _ _ _).same .time rfl]
  cases new <;> rfl

theorem alarmTiming_slotDelays (state : TimingState) (selected : Option Source) :
    SlotDelaysMove s (alarmTiming state selected s) := by
  have moved : SlotDelaysMove s (movePoint freerunPoint ((s.point freerunPoint).report (state == .freerun))
      (movePoint holdoverPoint ((s.point holdoverPoint).report (state == .holdover)) s)) :=
    .of_changes ((movePoint_changes _ _ _).after (movePoint_changes _ _ _) rfl) rfl
  exact moved.trans (produce_slotDelays ..)

theorem enterTiming_quality : (enterTiming new s).delay.quality = new.quality :=
  (alarmTiming_slotDelays _ _ _).quality

theorem alarmTiming_others (state : TimingState) (selected : Option Source) {id : PointId} (holdover : id ≠ holdoverPoint)
    (freerun : id ≠ freerunPoint) : (alarmTiming state selected s).point id = s.point id := by
  unfold alarmTiming
  rw [produce_point, movePoint_others _ _ freerun, movePoint_others _ _ holdover]

theorem resuspendFlows_others (g : FlowRecord → Suspension → Suspension) {id : PointId} (other : id ≠ flowSuspendedPoint) :
    (resuspendFlows g s).point id = s.point id := changePoint_others _ _ other

theorem enterTiming_others {id : PointId} (holdover : id ≠ holdoverPoint) (freerun : id ≠ freerunPoint)
    (suspended : id ≠ flowSuspendedPoint) : (enterTiming new s).point id = s.point id := by
  unfold enterTiming flowsTimingChange
  dsimp only
  rw [alarmTiming_others _ _ _ holdover freerun]
  have flows (c : Prop) [Decidable c] (g : FlowRecord → Suspension → Suspension) (v : State) :
      (if c then resuspendFlows g v else v).point id = v.point id := by
    split
    · exact resuspendFlows_others v g suspended
    · rfl
  refine (flows _ _ _).trans ?_
  split <;> rfl

end

end Sys2Proof.Machine
end

section
/-! SUPPORT. The sources and their selection: a source that fails, and one that qualifies (R85 to R90). -/

namespace Sys2Proof.Machine

/-! ### The records of the sources -/

theorem otherSource_ne (src : Source) : otherSource src ≠ src := by
  cases src <;> nofun

section
variable (src : Source) (s : State)

theorem updSource_eq (f : SourceRecord → SourceRecord) :
    s.updSource src f = { s with trk := s.trk.withSource src (f (s.source src)) (s.trk.counted src) } := by
  cases src <;> rfl

/-- A source's counters and its record change together (R100). -/
theorem updSource_countSource (f : SourceCounters → SourceCounters) (g : SourceRecord → SourceRecord) :
    (countSource src f s).updSource src g =
      { s with trk := s.trk.withSource src (g (s.source src)) (f (s.trk.counted src)) } := by
  cases src <;> rfl

variable (r : SourceRecord) (c : SourceCounters)

theorem withSource_source : State.source { s with trk := s.trk.withSource src r c } src = r := by
  cases src <;> rfl

theorem withSource_other :
    State.source { s with trk := s.trk.withSource src r c } (otherSource src) = s.source (otherSource src) := by
  cases src <;> rfl

theorem withSource_counted : (s.trk.withSource src r c).counted src = c := by
  cases src <;> rfl

theorem withSource_withSource (k : Tracker) (r' : SourceRecord) (c' : SourceCounters) :
    (k.withSource src r c).withSource src r' c' = k.withSource src r' c' := by
  cases src <;> rfl

end

/-! ### A source takes a record -/

section
variable (src : Source) (r : SourceRecord) (s : State)

theorem setSource_trk : (setSource src r s).trk = s.trk.withSource src r (s.trk.counted src) := by
  have reported : (setSource src r s).trk = (s.updSource src fun _ => r).trk :=
    (reportCondition_changes _ _ _).same .trk rfl
  rw [reported, updSource_eq]

theorem setSource_time : (setSource src r s).time = s.time := (setSource_changes src r s).same .time rfl

theorem setSource_reported : PointReported (sourceFailedPoint src) (r.state == .failed) s (setSource src r s) := by
  have reported := reportCondition_reported (sourceFailedPoint src) (r.state == .failed) (s.updSource src fun _ => r)
  unfold PointReported PointBecomes at reported ⊢
  rw [State.point_updSource, State.updSource_time] at reported
  exact reported

end

/-! ### The selection -/

/-- Between two states the timing state may have changed, and with it the selection: the sources, their counters and I
stood, and so did every point but those of the timing state and of the flows. -/
structure TimingMoves (s t : State) : Prop where
  source : ∀ src, t.source src = s.source src
  counters : t.trk.counters = s.trk.counters
  integral : t.trk.integral = s.trk.integral
  point : ∀ id, id ≠ holdoverPoint → id ≠ freerunPoint → id ≠ flowSuspendedPoint → t.point id = s.point id

section
variable {s t u : State}

theorem TimingMoves.refl (s : State) : TimingMoves s s := ⟨fun _ => rfl, rfl, rfl, fun _ _ _ _ => rfl⟩

theorem TimingMoves.trans (h : TimingMoves s t) (k : TimingMoves t u) : TimingMoves s u where
  source src := (k.source src).trans (h.source src)
  counters := k.counters.trans h.counters
  integral := k.integral.trans h.integral
  point id a b c := (k.point id a b c).trans (h.point id a b c)

theorem enterTiming_moves (new : TimingState) (s : State) : TimingMoves s (enterTiming new s) where
  source src := by
    unfold State.source
    rw [enterTiming_trk]
    cases src <;> rfl
  counters := by rw [enterTiming_trk]; rfl
  integral := by rw [enterTiming_trk]; rfl
  point _ a b c := enterTiming_others new s a b c

/-- The selection takes a value. -/
theorem selected_moves (x : Option Source) (s : State) : TimingMoves s (s.updTrk fun k => { k with selected := x }) :=
  ⟨fun src => by cases src <;> rfl, rfl, rfl, fun _ _ _ _ => rfl⟩

theorem examineSelection_moves (s : State) : TimingMoves s (examineSelection s) := by
  have selected := selected_moves (selection s) s
  have enters (new : TimingState) := selected.trans (enterTiming_moves new _)
  unfold examineSelection
  dsimp only
  split
  · exact .refl s
  · split
    · exact selected
    · exact enters _
    · exact enters _
    · exact enters _
    · split
      · exact enters _
      · exact enters _
    · split
      · exact enters _
      · exact enters _
    · exact selected
    · exact selected

theorem examineSelection_selected (s : State) : (examineSelection s).trk.selected = selection s := by
  have enters (new : TimingState) :
      (enterTiming new (s.updTrk fun k => { k with selected := selection s })).trk.selected = selection s := by
    rw [enterTiming_trk]
    rfl
  unfold examineSelection
  dsimp only
  split
  · next same => exact same.symm
  · split
    · rfl
    · exact enters _
    · exact enters _
    · exact enters _
    · split
      · exact enters _
      · exact enters _
    · split
      · exact enters _
      · exact enters _
    · rfl
    · rfl

/-- Where the selection stays, its examination changes nothing. -/
theorem examineSelection_of_same (same : selection s = s.trk.selected) : examineSelection s = s := by
  unfold examineSelection
  exact if_pos same

/-- Another source is selected in ACQUIRING, and hub time runs on (R88, R89). -/
theorem examineSelection_of_some {x : Source} (selects : selection s = some x) (new : s.trk.selected ≠ some x) :
    (examineSelection s).trk.timing = .acquiring ∧ (examineSelection s).time = s.time := by
  have enters : (enterTiming .acquiring (s.updTrk fun k => { k with selected := some x })).trk.timing = .acquiring ∧
      (enterTiming .acquiring (s.updTrk fun k => { k with selected := some x })).time = s.time := by
    rw [enterTiming_trk, enterTiming_time]
    exact ⟨rfl, rfl⟩
  have other : ¬ some x = s.trk.selected := fun e => new e.symm
  unfold examineSelection
  rw [selects]
  dsimp only
  rw [if_neg other]
  have timing : (s.updTrk fun k => { k with selected := some x }).trk.timing = s.trk.timing := rfl
  rw [timing]
  cases h : s.trk.timing with
  | acquiring => exact ⟨h, rfl⟩
  | freerun => exact enters
  | locked => exact enters
  | holdover => exact enters

/-- Where no source is left in ACQUIRING or LOCKED, HOLDOVER is entered where it is ready, and FREERUN where not (R89). -/
theorem examineSelection_of_none (selects : selection s = none) (was : s.trk.selected ≠ none)
    (follows : s.trk.timing = .acquiring ∨ s.trk.timing = .locked) :
    examineSelection s = enterTiming (if s.trk.holdoverReady then .holdover else .freerun)
      (s.updTrk fun k => { k with selected := none }) := by
  have other : ¬ none = s.trk.selected := fun e => was e.symm
  unfold examineSelection
  rw [selects]
  dsimp only
  rw [if_neg other]
  have ready (v : State) : (if v.trk.holdoverReady then enterTiming .holdover v else enterTiming .freerun v) =
      enterTiming (if v.trk.holdoverReady then .holdover else .freerun) v := by
    split <;> rfl
  have timing : (s.updTrk fun k => { k with selected := none }).trk.timing = s.trk.timing := rfl
  obtain h | h := follows
  · rw [timing, h]
    exact ready _
  · rw [timing, h]
    exact ready _

/-- A source that is selected is QUALIFIED (R88). -/
theorem selection_some {x : Source} (selects : selection s = some x) : (s.source x).state = .qualified := by
  have qualified : s.qualified x = true := by
    unfold selection at selects
    dsimp only at selects
    split at selects
    · next stays =>
      rw [selects] at stays
      exact (Bool.and_eq_true_iff.1 stays).2
    · exact List.find?_some selects
  unfold State.qualified at qualified
  simpa using qualified

/-- Where no source is selected, none is QUALIFIED (R88). -/
theorem selection_none (selects : selection s = none) (x : Source) : (s.source x).state ≠ .qualified := by
  have unqualified : s.qualified x = false := by
    unfold selection at selects
    dsimp only at selects
    split at selects
    · next stays =>
      rw [selects] at stays
      simp at stays
    · have each := List.find?_eq_none.1 selects x (by cases x <;> split <;> simp)
      simpa using each
  intro qualified
  rw [State.qualified, qualified] at unqualified
  cases unqualified

/-- A source that is not QUALIFIED is not selected: the other is, where it is QUALIFIED (R88). -/
theorem selection_of_unqualified {src : Source} (unqualified : (s.source src).state ≠ .qualified) :
    selection s = if (s.source (otherSource src)).state = .qualified then some (otherSource src) else none := by
  cases selects : selection s with
  | none => rw [if_neg (selection_none selects _)]
  | some x =>
    have qualified := selection_some selects
    have other : x = otherSource src := by
      cases x <;> cases src <;> first | rfl | exact absurd qualified unqualified
    rw [← other, if_pos qualified]

/-! ### A source fails -/

/-- The record of a source that fails now (R87). -/
def State.failedRecord (s : State) (src : Source) : SourceRecord :=
  { s.source src with
    state := .failed, ePrev := none, good := 0, jumps := 0, holdoffStart := some s.time.localTicks }

theorem sourceFailedPoint_apart (src : Source) : sourceFailedPoint src ≠ holdoverPoint ∧
    sourceFailedPoint src ≠ freerunPoint ∧ sourceFailedPoint src ≠ flowSuspendedPoint := by
  cases src <;> decide

/-- The examination of the selection once a source is not QUALIFIED any more (R88, R89, R90). -/
theorem examineSelection_unselects {src : Source} (unqualified : (s.source src).state ≠ .qualified) :
    Unselected src s (examineSelection s) := by
  have selects := selection_of_unqualified unqualified
  have selected := examineSelection_selected s
  refine ⟨fun same => ?_, fun was qualified => ?_, fun was follows unqualified' => ?_⟩
  · exact unqualified (selection_some (selected.symm.trans same))
  · rw [if_pos qualified] at selects
    have new : s.trk.selected ≠ some (otherSource src) := by
      rw [was]
      exact fun e => otherSource_ne src (Option.some.inj e).symm
    exact ⟨selected.trans selects, (examineSelection_of_some selects new).1⟩
  · rw [if_neg unqualified'] at selects
    have entered := examineSelection_of_none selects (by rw [was]; nofun) follows
    refine ⟨selected.trans selects, fun ready => ?_, fun unready => ?_⟩
    · rw [entered, ready, if_pos rfl]
      refine ⟨by rw [enterTiming_trk]; rfl, by rw [enterTiming_time]; rfl, by rw [enterTiming_trk]; rfl, ?_⟩
      exact enterTiming_quality _ _
    · rw [entered, unready, if_neg Bool.false_ne_true]
      refine ⟨by rw [enterTiming_trk]; rfl, by rw [enterTiming_time]; rfl, ?_⟩
      exact enterTiming_quality _ _

theorem PointReported.of_point {id : PointId} {b : Bool} (h : PointReported id b s t) (same : u.point id = t.point id) :
    PointReported id b s u := by
  unfold PointReported PointBecomes at h ⊢
  rwa [same]

theorem Unselected.of_before {src : Source} {r : SourceRecord} {c : SourceCounters} {w : State}
    (h : Unselected src w t) (trk : w.trk = s.trk.withSource src r c) (time : w.time = s.time) : Unselected src s t := by
  have same : w.trk.selected = s.trk.selected ∧ w.trk.timing = s.trk.timing ∧
      w.trk.holdoverReady = s.trk.holdoverReady ∧ w.trk.integral = s.trk.integral ∧
      w.source (otherSource src) = s.source (otherSource src) := by
    unfold State.source
    rw [trk]
    cases src <;> exact ⟨rfl, rfl, rfl, rfl, rfl⟩
  obtain ⟨selected, timing, ready, integral, other⟩ := same
  unfold Unselected at h ⊢
  dsimp only at h ⊢
  rw [selected, timing, ready, integral, other, time] at h
  exact h

theorem source_of_trk {src : Source} {r : SourceRecord} {c : SourceCounters} {w : State}
    (trk : w.trk = s.trk.withSource src r c) :
    w.source src = r ∧ w.source (otherSource src) = s.source (otherSource src) := by
  unfold State.source
  rw [trk]
  cases src <;> exact ⟨rfl, rfl⟩

/-- A source enters FAILED (R86, R87). -/
theorem failSource_fails (src : Source) (s : State) : SourceFails src s (failSource src s) := by
  let failed := s.failedRecord src
  let counters := { s.trk.counted src with failures := oneMore (s.trk.counted src).failures }
  let v := countSource src (fun c => { c with failures := count32 c.failures }) s
  let w := setSource src failed v
  have noted : v = { s with trk := s.trk.withSource src (s.source src) counters } := by cases src <;> rfl
  have trk : w.trk = s.trk.withSource src failed counters := by
    rw [setSource_trk, noted, withSource_counted, withSource_withSource]
  have time : w.time = s.time := by rw [setSource_time, noted]
  have reported : PointReported (sourceFailedPoint src) true s w := by
    have reports : PointReported (sourceFailedPoint src) true v w := setSource_reported src failed v
    rw [noted] at reports
    exact reports
  obtain ⟨own, other⟩ := source_of_trk trk
  have moves := examineSelection_moves w
  obtain ⟨holdover, freerun, suspended⟩ := sourceFailedPoint_apart src
  have unqualified : (w.source src).state ≠ .qualified := by rw [own]; nofun
  refine ⟨(moves.source src).trans own, (moves.source _).trans other, ?_,
    reported.of_point (moves.point _ holdover freerun suspended),
    (examineSelection_unselects unqualified).of_before trk time, failSource_changes src s⟩
  refine moves.counters.trans ?_
  rw [trk]
  cases src <;> rfl

/-! ### A source qualifies -/

/-- An operation that leaves a part changes the others alone. -/
theorem OnlyChanges.except {ps qs : List Part} (h : OnlyChanges ps s t) {p : Part} (same : p.Same s t)
    (sub : (ps.all fun q => q == p || qs.contains q) = true) : OnlyChanges qs s t := fun q => by
  rcases h q with member | stands
  · have found := List.all_eq_true.1 sub q member
    rw [Bool.or_eq_true, beq_iff_eq] at found
    obtain rfl | found := found
    · exact .inr same
    · exact .inl (by simpa using found)
  · exact .inr stands

/-- With both sources QUALIFIED the selection stays where it is not revertive, and otherwise prefers by its order
(R88). -/
theorem selection_of_both (both : ∀ x, (s.source x).state = .qualified) {x : Source} (was : s.trk.selected = some x) :
    selection s = if s.trk.source.revertive then some (if s.trk.source.nFirst then .N else .P) else some x := by
  have qualified (x : Source) : s.qualified x = true := by
    unfold State.qualified
    simpa using both x
  unfold selection
  cases s.trk.source.revertive <;> cases s.trk.source.nFirst <;> simp [was, qualified]

theorem examineSelection_time_of_some {x : Source} (selects : selection s = some x) :
    (examineSelection s).time = s.time := by
  by_cases same : s.trk.selected = some x
  · rw [examineSelection_of_same (selects.trans same.symm)]
  · exact (examineSelection_of_some selects same).2

/-- A source enters QUALIFIED with its event noted (R86, R88, R89). -/
theorem setSource_qualifies (src : Source) (r : SourceRecord) (c : SourceCounters) (s : State) :
    SourceQualifies src (s.trk.withSource src r c) s (examineSelection
      (setSource src { r with state := .qualified } { s with trk := s.trk.withSource src r c })) := by
  let w := setSource src { r with state := .qualified } { s with trk := s.trk.withSource src r c }
  have trk : w.trk = s.trk.withSource src { r with state := .qualified } c := by
    rw [setSource_trk, withSource_counted, withSource_withSource]
  have same : w.trk.selected = s.trk.selected ∧ w.trk.timing = s.trk.timing ∧ w.trk.source = s.trk.source ∧
      w.trk.integral = s.trk.integral ∧ w.trk.counters = (s.trk.withSource src r c).counters := by
    rw [trk]
    cases src <;> exact ⟨rfl, rfl, rfl, rfl, rfl⟩
  obtain ⟨selected, timing, config, integral, counters⟩ := same
  obtain ⟨own, other⟩ := source_of_trk trk
  have time : w.time = s.time := setSource_time ..
  have reported : PointReported (sourceFailedPoint src) false s w :=
    setSource_reported src { r with state := .qualified } { s with trk := s.trk.withSource src r c }
  have moves := examineSelection_moves w
  obtain ⟨holdover, freerun, suspended⟩ := sourceFailedPoint_apart src
  have qualified : (w.source src).state = .qualified := by rw [own]
  have within (x : Source) (unqualified : (w.source (otherSource src)).state ≠ .qualified)
      (selects : selection w = some x) : x = src := by
    have chosen := selection_some selects
    cases x <;> cases src <;> first | rfl | exact absurd chosen unqualified
  obtain ⟨x, selects⟩ : ∃ x, selection w = some x := by
    cases h : selection w with
    | none => exact absurd qualified (selection_none h src)
    | some x => exact ⟨x, rfl⟩
  have after : (examineSelection w).trk.selected = some x := (examineSelection_selected w).trans selects
  have stands : (examineSelection w).time = s.time := (examineSelection_time_of_some selects).trans time
  refine ⟨(moves.source src).trans (own.trans ?_), (moves.source _).trans other, moves.counters.trans counters,
    moves.integral.trans integral, stands, reported.of_point (moves.point _ holdover freerun suspended),
    fun none unqualified => ?_, fun was also => ?_, ?_⟩
  · rw [withSource_source]
  · have chosen := within x (by rw [other]; exact unqualified) selects
    subst chosen
    exact ⟨after, (examineSelection_of_some selects (by rw [selected, none]; nofun)).1⟩
  · have both (y : Source) : (w.source y).state = .qualified := by
      have other' : (w.source (otherSource src)).state = .qualified := by rw [other]; exact also
      cases y <;> cases src <;> first | exact qualified | exact other'
    have chosen := selection_of_both both (selected.trans was)
    rw [config] at chosen
    have stays (h : selection w = some (otherSource src)) :
        (examineSelection w).trk.selected = some (otherSource src) ∧
          (examineSelection w).trk.timing = s.trk.timing := by
      rw [examineSelection_of_same (h.trans (selected.trans was).symm)]
      exact ⟨selected.trans was, timing⟩
    have first : (if s.trk.source.nFirst then Source.N else .P) =
        if s.trk.source.nFirst = decide (src = .N) then src else otherSource src := by
      cases src <;> cases s.trk.source.nFirst <;> rfl
    rw [first] at chosen
    refine ⟨fun revertive preferred => ?_, fun keeps => stays ?_⟩
    · rw [if_pos revertive, if_pos preferred] at chosen
      refine ⟨(examineSelection_selected w).trans chosen, (examineSelection_of_some chosen ?_).1⟩
      rw [selected, was]
      exact fun e => otherSource_ne src (Option.some.inj e)
    · rw [chosen]
      obtain fixed | apart := keeps
      · rw [fixed, if_neg Bool.false_ne_true]
      · rw [if_neg apart]
        split <;> rfl
  · have noted : OnlyChanges [.trk] s { s with trk := s.trk.withSource src r c } := with_trk_changes s _
    have set : OnlyChanges timingParts s w := (setSource_changes src _ _).after (noted.weaken rfl) rfl
    exact ((examineSelection_changes w).after set rfl).except (p := .time) stands rfl

end

end Sys2Proof.Machine
end

section
/-! SUPPORT. An event of a source is taken: unusable, a jump, or good (R85, R86, R87). -/

namespace Sys2Proof.Machine

section
variable {s : State} {src : Source}

theorem sourceInterval_eq (src : Source) (s : State) : interval s src = s.sourceInterval src := by
  cases src <;> rfl

theorem timely_iff : timely s src = true ↔ EventTimely s src := by
  unfold timely EventTimely State.now
  rw [sourceInterval_eq]
  cases (s.source src).prevArrival <;> simp

theorem isJump_iff {e : Int} : isJump s src e = true ↔ EventJump s src e := by
  unfold isJump EventJump
  simp only [Bool.or_eq_true, Bool.and_eq_true, Option.any_eq_true, beq_iff_eq, decide_eq_true_eq, and_assoc]

/-- A source's record and counters move on from those a tracker has already noted. -/
theorem noted_again (src : Source) (s : State) (r : SourceRecord) (c : SourceCounters)
    (f : SourceCounters → SourceCounters) (g : SourceRecord → SourceRecord) :
    (countSource src f { s with trk := s.trk.withSource src r c }).updSource src g =
      { s with trk := s.trk.withSource src (g r) (f c) } := by
  cases src <;> rfl

theorem unusableEvent_eq (src : Source) (s : State) (r : SourceRecord) (c : SourceCounters) :
    unusableEvent src { s with trk := s.trk.withSource src r c } =
      { s with trk := s.trk.withSource src { r with good := 0 } { c with unusable := oneMore c.unusable } } :=
  noted_again src s r c _ _

theorem jumpEvent_eq (src : Source) (s : State) (r : SourceRecord) (c : SourceCounters) :
    let record := { r with good := 0, jumps := r.jumps + 1, silenceStart := s.time.localTicks }
    let jumped : State := { s with trk := s.trk.withSource src record { c with jumps := oneMore c.jumps } }
    jumpEvent src { s with trk := s.trk.withSource src r c } = if 1 ≤ r.jumps then failSource src jumped else jumped := by
  intro record jumped
  have noted : (countSource src (fun c => { c with jumps := count32 c.jumps })
      { s with trk := s.trk.withSource src r c }).updSource src (fun r =>
        { r with good := 0, jumps := r.jumps + 1, silenceStart := s.time.localTicks }) = jumped :=
    noted_again src s r c _ _
  have jumps : (jumped.source src).jumps = r.jumps + 1 := by rw [withSource_source]
  unfold jumpEvent
  refine (?_ : _ = if 2 ≤ (jumped.source src).jumps then failSource src jumped else jumped).trans ?_
  · rw [← noted]
    rfl
  · rw [jumps]
    simp only [show 2 ≤ r.jumps + 1 ↔ 1 ≤ r.jumps by omega]

/-- A good event of an error, that the servo does not take (R85, R86). -/
theorem goodEvent_eq (src : Source) (s : State) (r : SourceRecord) (c : SourceCounters) (e : Int) :
    let record := { r with
      good := min 4 (r.good + 1), jumps := 0, ePrev := some e, silenceStart := s.time.localTicks }
    let noted : State := { s with trk := s.trk.withSource src record { c with good := oneMore c.good } }
    goodEvent src e { s with trk := s.trk.withSource src r c } =
      if r.state = .candidate then
        if 3 ≤ r.good then
          examineSelection (setSource src { noted.source src with state := .qualified } noted)
        else noted
      else if takesEvent s src then applyEvent e noted
      else noted := by
  intro record noted
  have noted_eq : (countSource src (fun c => { c with good := count32 c.good })
      { s with trk := s.trk.withSource src r c }).updSource src (fun r =>
        { r with good := min 4 (r.good + 1), jumps := 0, ePrev := some e, silenceStart := s.time.localTicks }) = noted :=
    noted_again src s r c _ _
  have takes : takesEvent noted src = takesEvent s src := by cases src <;> rfl
  have good : (noted.source src).good = 4 ↔ 3 ≤ r.good := by
    rw [withSource_source]
    show min 4 (r.good + 1) = 4 ↔ _
    omega
  have state : (noted.source src).state = r.state := by rw [withSource_source]
  unfold goodEvent
  refine (?_ : _ = if (noted.source src).state = .candidate then
    if (noted.source src).good = 4 then examineSelection (setSource src { noted.source src with state := .qualified } noted)
    else noted
    else if takesEvent noted src then applyEvent e noted else noted).trans ?_
  · rw [← noted_eq]
    rfl
  · rw [state, takes]
    simp only [good]

/-- The state as an event of a source has come (R85). -/
def State.arrived (s : State) (src : Source) : State := s.updSource src fun r => { r with prevArrival := some s.now }

section
variable (live : (s.source src).state = .candidate ∨ (s.source src).state = .qualified)
include live

theorem takeEvent_unusable {error : Option Int} (unusable : error = none ∨ timely s src = false) :
    takeEvent src error s = unusableEvent src (s.arrived src) := by
  unfold takeEvent State.arrived
  obtain state | state := live <;> rw [state] <;> obtain rfl | late := unusable
  · rfl
  · rw [late]; cases error <;> rfl
  · rfl
  · rw [late]; cases error <;> rfl

theorem takeEvent_timely (isTimely : timely s src = true) (e : Int) : takeEvent src (some e) s =
    if isJump s src e then jumpEvent src (s.arrived src) else goodEvent src e (s.arrived src) := by
  unfold takeEvent State.arrived
  obtain state | state := live <;> rw [state, isTimely]

end

/-- An event is taken as its error, its time and the source's state have it (R85, R86, R87). -/
theorem takeEvent_taken (src : Source) (error : Option Int) (s : State)
    (plain : s.sourceSeen src = { s.source src with prevArrival := some s.time.localTicks }) :
    EventTaken src error s (takeEvent src error s) := by
  have arrived : s.arrived src = { s with trk := s.trk.withSource src (s.sourceSeen src) (s.trk.counted src) } := by
    rw [plain]
    exact updSource_eq src s _
  have state : (s.sourceSeen src).state = (s.source src).state := rfl
  have good : (s.sourceSeen src).good = (s.source src).good := rfl
  have jumps : (s.sourceSeen src).jumps = (s.source src).jumps := rfl
  refine ⟨fun unavailable => ?_, fun failed => ?_, fun live => ⟨fun unusable => ?_,
    fun isTimely e isError => ⟨fun jump first => ?_, fun jump second => ?_, fun none => ⟨fun rest => ?_,
      fun candidate fourth => ?_⟩⟩⟩⟩
  · unfold takeEvent
    rw [unavailable]
  · unfold takeEvent
    rw [failed]
    exact arrived
  · have late : error = none ∨ timely s src = false := unusable.imp_right fun h => by
      rwa [← timely_iff, Bool.not_eq_true] at h
    rw [takeEvent_unusable live late, arrived, unusableEvent_eq]
  · rw [isError, takeEvent_timely live (timely_iff.2 isTimely), if_pos (isJump_iff.2 jump), arrived, jumpEvent_eq, jumps,
      if_neg (by omega)]
  · rw [isError, takeEvent_timely live (timely_iff.2 isTimely), if_pos (isJump_iff.2 jump), arrived, jumpEvent_eq, jumps,
      if_pos second]
    exact failSource_fails src _
  · rw [isError, takeEvent_timely live (timely_iff.2 isTimely), if_neg (mt isJump_iff.1 none), arrived, goodEvent_eq,
      state, good]
    obtain ⟨candidate, few⟩ | ⟨qualified, unused⟩ := rest
    · rw [if_pos candidate, if_neg (by omega)]
      rfl
    · have takes : ¬ takesEvent s src = true := by
        unfold takesEvent
        simpa using unused
      rw [if_neg (by rw [qualified]; nofun), if_neg takes]
      rfl
  · rw [isError, takeEvent_timely live (timely_iff.2 isTimely), if_neg (mt isJump_iff.1 none), arrived, goodEvent_eq,
      state, good, if_pos candidate, if_pos fourth, withSource_source]
    exact setSource_qualifies src _ _ s

end

end Sys2Proof.Machine
end

section
/-! A REF_TIME frame is taken (O35). -/

namespace Sys2Proof.Machine

section
variable {p : Slot} {payload : List Byte} {length : Nat} {arrival : Stamp} {t : State}

theorem takeRefTime_announce (whole : length = 11) (announce : payloadField payload 0 1 = 1)
    (provider : t.trk.srcP.provider = some p) : takeRefTime p payload length arrival t =
      { t with trk := { t.trk with srcP := { t.trk.srcP with announced := some (payloadField payload 1 6) } } } := by
  unfold takeRefTime
  rw [if_neg (not_not_intro whole), announce]
  exact if_pos provider

/-- A REF_TIME frame counts as discarded (R84, R100). -/
def State.refTimeDiscarded (t : State) : State :=
  { t with trk := { t.trk with counters := { t.trk.counters with discarded := oneMore t.trk.counters.discarded } } }

theorem takeRefTime_discarded (other : length ≠ 11 ∨
      (payloadField payload 0 1 ≠ 1 ∧ payloadField payload 0 1 ≠ 2) ∨
      (payloadField payload 0 1 = 1 ∧ t.trk.srcP.provider ≠ some p) ∨
      (payloadField payload 0 1 = 2 ∧ t.trk.srcN.provider ≠ some p)) :
    takeRefTime p payload length arrival t = t.refTimeDiscarded := by
  unfold takeRefTime
  by_cases whole : length = 11
  · rw [if_neg (not_not_intro whole)]
    obtain short | ⟨one, two⟩ | ⟨one, provider⟩ | ⟨two, provider⟩ := other
    · exact absurd whole short
    · split
      · next e => exact absurd e one
      · next e => exact absurd e two
      · rfl
    · rw [one]
      exact if_neg provider
    · rw [two]
      exact if_neg provider
  · exact if_pos whole

theorem minus_eq (a b c d : Nat) : Stamp.minus ⟨a, b⟩ ⟨c, d⟩ = ((a : Int) - c) * 1000000000 + ((b : Int) - d) := by
  simp only [Stamp.minus, Stamp.toNs, Config.nsPerSecond]
  push_cast
  ring

theorem takeRefTime_stamp (whole : length = 11) (stamp : payloadField payload 0 1 = 2)
    (provider : t.trk.srcN.provider = some p) : takeRefTime p payload length t.hubNow t =
      takeEvent .N (t.stampError p payload) t := by
  have error : ((t.slotDelay p).delays.map fun d =>
      Stamp.minus ⟨payloadField payload 1 6, payloadField payload 7 4⟩ t.hubNow + d.towardHub) =
      t.stampError p payload := by
    unfold State.stampError State.hubNow
    simp only [minus_eq]
  unfold takeRefTime
  rw [if_neg (not_not_intro whole), stamp, ← error]
  exact if_pos provider

end

/-- Settles O35: the frame is dispatched, and its payload says what it is. -/
theorem referenceTimeFrameTaken : Obligations.ReferenceTimeFrameTaken := by
  rintro p lanes s ⟨arrives, ready, hub, kind⟩ bytes payload subtype c
  have freed := dispatched_freed p s
  obtain ⟨-, -, only⟩ := id freed
  have trk : (s.dispatched p).trk = s.trk := only.same .trk rfl
  have delay : (s.dispatched p).delay = s.delay := only.same .delay rfl
  have time : (s.dispatched p).time = s.time := only.same .time rfl
  have now : (s.dispatched p).hubNow = s.hubNow := by unfold State.hubNow; rw [time]
  have taken := receptionEnd_dispatches arrives ready hub
  unfold dispatchByKind at taken
  rw [kind] at taken
  refine ⟨s.dispatched p, _, taken, freed, fun whole announce provider => ?_, fun other => ?_, fun stamp => ?_⟩
  · refine (takeRefTime_announce whole announce (t := s.dispatched p) (by rw [trk]; exact provider)).trans ?_
    rw [trk]
  · refine (takeRefTime_discarded (t := s.dispatched p) (by rw [trk]; exact other)).trans ?_
    unfold State.refTimeDiscarded
    rw [trk]
  · obtain ⟨-, whole, second, provider⟩ := stamp
    have error : (s.dispatched p).stampError p payload = s.stampError p payload := by
      unfold State.stampError State.slotDelay
      rw [delay, time]
    have event := takeRefTime_stamp (t := s.dispatched p) whole second (by rw [trk]; exact provider)
    rw [now, error] at event
    have result := takeEvent_taken .N (s.stampError p payload) (s.dispatched p) rfl
    rw [← event] at result
    exact result

end Sys2Proof.Machine
end

section
/-! The timers of the sources and of HOLDOVER (O34). -/

namespace Sys2Proof.Machine

section
variable {s : State} {src : Source}

/-- A source that returns from FAILED (R86, R87). -/
theorem setSource_returns (src : Source) {r : SourceRecord} (notFailed : (r.state == .failed) = false) (s : State) :
    let t := examineSelection (setSource src r s)
    t.source src = r ∧ t.source (otherSource src) = s.source (otherSource src) ∧
      PointReported (sourceFailedPoint src) false s t ∧ t.trk.counters = s.trk.counters ∧
      OnlyChanges timingParts s t := by
  have trk := setSource_trk src r s
  obtain ⟨own, other⟩ := source_of_trk trk
  have moves := examineSelection_moves (setSource src r s)
  have reported := setSource_reported src r s
  obtain ⟨holdover, freerun, suspended⟩ := sourceFailedPoint_apart src
  rw [notFailed] at reported
  refine ⟨(moves.source src).trans own, (moves.source _).trans other,
    reported.of_point (moves.point _ holdover freerun suspended), moves.counters.trans ?_,
    (examineSelection_changes _).after ((setSource_changes src r s).weaken rfl) rfl⟩
  rw [trk]
  cases src <;> rfl

/-- The entry to FREERUN suspends every written flow that needs lock (R24, R91). -/
theorem enterTiming_freerun_flow (s : State) {f : Fin 255} {r : FlowRecord} (written : (s.flow f).fields = some r) :
    ((enterTiming .freerun s).flow f).suspension =
      { (s.flow f).suspension with timing := if r.needsLock then true else (s.flow f).suspension.timing } := by
  have flow : (enterTiming .freerun s).flow f = (s.flow f).resuspend fun r x =>
      { x with timing := if r.needsLock then TimingState.freerun == .freerun else x.timing } := by
    unfold State.flow enterTiming
    dsimp only
    rw [(alarmTiming_changes _ _ _).same .fwd rfl]
    dsimp only
    unfold flowsTimingChange
    rw [if_pos (.inl rfl)]
    exact resuspendFlows_flow _ _ f
  rw [flow, Flow.resuspend_of_some written, Flow.settle_suspension]
  rfl

end

/-- Settles O34: each timer acts exactly where it has run out in its state. -/
theorem sourceTimersFailAndReturn : Obligations.SourceTimersFailAndReturn := by
  intro src s r interval
  have begun : OnlyChanges timingParts s s.begin := (begin_changes s).weaken rfl
  refine ⟨fun live late => ?_, fun rest => ?_, fun failed over_ => ?_, fun rest => ?_, fun holdover over_ => ?_,
    fun rest => ?_⟩
  · have runs : silenceTimeout src s.begin = failSource src s.begin := if_pos ((silent_iff _ _).2 ⟨live, late⟩)
    obtain ⟨own, other, counters, point, unselected, only⟩ := failSource_fails src s.begin
    exact ⟨_, congrArg Host.Outcome.next runs, own, other, counters, point, unselected, only.after begun rfl⟩
  · have stays : silenceTimeout src s.begin = s.begin := if_neg fun h => by
      obtain ⟨live, late⟩ := (silent_iff _ _).1 h
      obtain unavailable | failed | early := rest
      · rw [show (s.begin.source src).state = .unavailable from unavailable] at live
        obtain h | h := live <;> cases h
      · rw [show (s.begin.source src).state = .failed from failed] at live
        obtain h | h := live <;> cases h
      · exact absurd late (Nat.not_le.2 early)
    exact congrArg Host.Outcome.next stays
  · have runs : holdoffExpiry src s.begin = examineSelection (setSource src (r.candidate s.now) s.begin) :=
      if_pos ((holdoffOver_iff _ _).2 ⟨failed, over_⟩)
    obtain ⟨own, other, point, counters, only⟩ :=
      setSource_returns src (r := r.candidate s.now) rfl s.begin
    exact ⟨_, congrArg Host.Outcome.next runs, own, other, point, counters, only.after begun rfl⟩
  · have stays : holdoffExpiry src s.begin = s.begin := if_neg fun h => by
      obtain ⟨failed, start, running, late⟩ := (holdoffOver_iff _ _).1 h
      obtain other | ⟨start', running', early⟩ := rest
      · exact other failed
      · obtain rfl : start = start' := Option.some.inj (running.symm.trans running')
        exact absurd late (Nat.not_le.2 early)
    exact congrArg Host.Outcome.next stays
  · obtain ⟨start, running, late⟩ := over_
    have runs : holdoverEnd s.begin = enterTiming .freerun s.begin :=
      if_pos ((holdoverOver_iff _).2 ⟨holdover,
        fun start' running' => Option.some.inj (running.symm.trans running') ▸ late,
        fun none => nomatch running.symm.trans none⟩)
    have trk := enterTiming_trk .freerun s.begin
    have time : (enterTiming .freerun s.begin).time = s.time := enterTiming_time .freerun s.begin
    refine ⟨_, congrArg Host.Outcome.next runs, by rw [trk]; rfl, by rw [trk]; rfl, by rw [trk]; rfl, time,
      enterTiming_quality _ _, by rw [trk]; rfl, by rw [trk]; rfl, by rw [trk]; rfl,
      fun f x written => enterTiming_freerun_flow s.begin written, ?_⟩
    exact ((enterTiming_changes _ _).after begun rfl).except (p := .time) time rfl
  · have stays : holdoverEnd s.begin = s.begin := if_neg fun h => by
      obtain ⟨holdover, over_, -⟩ := (holdoverOver_iff _).1 h
      obtain other | ⟨start, running, early⟩ := rest
      · exact other holdover
      · exact absurd (over_ start running) (Nat.not_le.2 early)
    exact congrArg Host.Outcome.next stays

end Sys2Proof.Machine
end

section
/-! A MAIL frame is judged and acknowledged (O28). -/

namespace Sys2Proof.Machine

/-! ### The acknowledgement -/

section
variable {p : Slot} {result : MailResult} {answers : Byte} {s : State}

/-- The alarm unit's counters once a mail is judged (R175, R176). -/
def AlarmCounters.judged (c : AlarmCounters) (result : MailResult) : AlarmCounters :=
  if result = .accepted then { c with accepted := oneMore c.accepted } else { c with refused := oneMore c.refused }

/-- The state as a MAIL_ACK made now has been stored for its slot's CONTROL queue (R46, R48, R175). -/
def State.acked (s : State) (p : Slot) (result : MailResult) (answers : Byte) : State :=
  { s with
    free := s.free + 1
    alarm := { s.alarm with counters := s.alarm.counters.judged result }
    qm := { s.qm with
      nextFrame := s.qm.nextFrame + 1
      frames := s.qm.frames ++ [⟨s.qm.nextFrame,
        .hub ⟨.mailAck, p, Config.freeByte s.free, [result.code, answers], ⟨s.time.sec, s.time.ns⟩, 0⟩, .control, 1, 1⟩]
      slot := s.qm.slot.write p { s.sq p with queues := { (s.sq p).queues with
        control := (s.sq p).queues.control ++ [s.qm.nextFrame] } } } }

theorem makeAck_acked (acks : s.alarm.acks = []) (waiting : s.qm.waiting = []) (cell : 1 ≤ s.reserveFree)
    (up : (s.slot p).state.isUp = true) (going : (s.sq p).hold ≠ .stalled) :
    makeAck p result answers s = arbitrate p (s.acked p result answers) := by
  let ack : MailAck := ⟨p, result, answers, s.freeByte, s.hubNow⟩
  let t := s.drawn.updAlarm fun a => { a with counters := a.counters.judged result }
  have cells : ack.frame.cells = 1 := by
    simp [ack, MailAck.frame, HubFrame.cells, FrameBody.length, cellsOf]
  have grants : (t.alarm.acks.isEmpty && reserveGrants t ack.frame.cells) = true := by
    have used : reserveGrants t ack.frame.cells = reserveGrants s 1 := by rw [cells]; rfl
    have none : t.alarm.acks = [] := acks
    rw [used, none]
    simp [reserveGrants, waiting, cell]
  have made : makeAck p result answers s = offerHub ack.frame t := if_pos grants
  have takes : (t.slot ack.frame.dest).state.isUp = true ∧ (t.sq ack.frame.dest).hold ≠ .stalled := ⟨up, going⟩
  have size : (max 64 (24 + ack.frame.payload.length) + 63) / 64 = 1 := by simp [ack, MailAck.frame]
  rw [made, offerHub_eq rfl]
  unfold State.offered
  dsimp only
  rw [if_pos takes, size]
  rfl

end

/-! ### The judging of a mail -/

/-- A notice with no wait outstanding and room for it is appended (R172, R173). -/
theorem produce_pends {s : State} (waits : s.alarm.waits = []) (room : s.alarm.notices.length < 32) (body : NoticeBody) :
    produce [body] s = s.updAlarm fun a => { a with
      notices := a.notices ++ [⟨body, s.time.sec⟩]
      counters := { a.counters with produced := oneMore a.counters.produced } } := by
  let t := s.updAlarm fun a => { a with counters := { a.counters with produced := addCount32 a.counters.produced 1 } }
  have delivered : produce [body] s = pendNotice ⟨body, s.time.sec⟩ t := by
    have delivers : produce [body] s = deliver s.alarm.waits [⟨body, s.time.sec⟩] t := rfl
    rw [delivers, waits]
    rfl
  have pends : t.alarm.notices.length < Config.maxNotices := room
  rw [delivered]
  unfold pendNotice
  exact congrArg (fun a => { t with alarm := a }) (if_pos pends)

/-- The result of a mail of a slot, the first case that applies deciding (R175). -/
def State.mailResult (s : State) (p : Slot) (payload : List Byte) : MailResult :=
  if ¬ ((s.slot p).state = .standby ∨ (s.slot p).state = .active) then .closed
  else if payload.length < 4 ∨ 32 < payload.length then .badSize
  else if (s.alarm.mailbox.read p).isSome then .full else .accepted

/-- The alarm unit once a mail is judged: stored with its notice where it is accepted (R173, R175). -/
def State.mailJudged (s : State) (p : Slot) (payload : List Byte) (result : MailResult) : State :=
  if result = .accepted then
    { s with alarm := { s.alarm with
      mailbox := s.alarm.mailbox.write p (some ⟨payload, s.time.sec⟩)
      notices := s.alarm.notices ++ [⟨.mail p payload.length, s.time.sec⟩]
      counters := { s.alarm.counters with produced := oneMore s.alarm.counters.produced } } }
  else s

theorem mailJudged_changes (p : Slot) (payload : List Byte) (result : MailResult) (s : State) :
    OnlyChanges [.alarm] s (s.mailJudged p payload result) := by
  unfold State.mailJudged
  split
  · exact with_alarm_changes s _
  · exact .refl s

theorem mailJudged_acks (p : Slot) (payload : List Byte) (result : MailResult) (s : State) :
    (s.mailJudged p payload result).alarm.acks = s.alarm.acks := by
  unfold State.mailJudged
  split <;> rfl

/-- The freeing of a frame's cells leaves the reserve account (R43). -/
theorem FrameFreed.reserveFree {p : Slot} {errors : Nat} {s u : State} (freed : FrameFreed p errors s u) :
    u.reserveFree = s.reserveFree := by
  obtain ⟨own, others, -, qm⟩ := freed
  have tests (q : Slot) : (u.port q).testCells = (s.port q).testCells := by
    by_cases h : q = p
    · subst h
      rw [own]
      rfl
    · rw [others q h]
  unfold State.reserveFree State.reserveUsed
  simp only [tests, qm]

theorem takeMail_judged {p : Slot} {seq : Byte} {payload : List Byte} {s : State} (acks : s.alarm.acks = [])
    (waits : s.alarm.waits = []) (room : s.alarm.notices.length < 32) : takeMail p seq payload s =
      makeAck p (s.mailResult p payload) seq (s.mailJudged p payload (s.mailResult p payload)) := by
  have none : s.alarm.acks.any (·.dest == p) = false := by rw [acks]; rfl
  have openSlot : (!((s.slot p).state == .standby || (s.slot p).state == .active)) = true ↔
      ¬ ((s.slot p).state = .standby ∨ (s.slot p).state = .active) := by simp
  have size : (decide (payload.length < 4) || decide (32 < payload.length)) = true ↔
      payload.length < 4 ∨ 32 < payload.length := by simp
  unfold takeMail State.mailResult
  dsimp only
  rw [if_neg (by rw [none]; exact Bool.false_ne_true)]
  by_cases closed : ¬ ((s.slot p).state = .standby ∨ (s.slot p).state = .active)
  · rw [if_pos (openSlot.2 closed), if_pos closed]
    rfl
  rw [if_neg (mt openSlot.1 closed), if_neg closed]
  by_cases bad : payload.length < 4 ∨ 32 < payload.length
  · rw [if_pos (size.2 bad), if_pos bad]
    rfl
  rw [if_neg (mt size.1 bad), if_neg bad]
  by_cases full : (s.alarm.mailbox.read p).isSome = true
  · rw [if_pos full, if_pos full]
    rfl
  have pended := produce_pends
    (s := s.updAlarm fun a => { a with mailbox := a.mailbox.write p (some ⟨payload, s.time.sec⟩) }) waits room
    (.mail p payload.length)
  rw [if_neg full, if_neg full, pended]
  rfl

/-- With an acknowledgement still waiting a mail is unanswered (R175). -/
theorem takeMail_unanswered {p : Slot} {seq : Byte} {payload : List Byte} {s : State}
    (waiting : ∃ a ∈ s.alarm.acks, a.dest = p) : takeMail p seq payload s =
      { s with alarm := { s.alarm with counters := { s.alarm.counters with
        unanswered := oneMore s.alarm.counters.unanswered } } } := by
  obtain ⟨a, member, dest⟩ := waiting
  exact if_pos (List.any_eq_true.2 ⟨a, member, by simpa using dest⟩)

/-- Settles O28: the frame is dispatched, judged, and acknowledged from the reserve. -/
theorem mailStoredAndAcknowledged : Obligations.MailStoredAndAcknowledged := by
  intro p lanes s arrives bytes up hub kind payload result c
  have ready : (s.slot p).state ≠ .linking := fun linking => by rw [linking] at up; cases up
  have taken := receptionEnd_dispatches arrives ready hub
  unfold dispatchByKind at taken
  rw [kind] at taken
  obtain ⟨freed, fwd, only⟩ := dispatched_freed p s
  have alarm : (s.dispatched p).alarm = s.alarm := only.same .alarm rfl
  have slot (q : Slot) : (s.dispatched p).slot q = s.slot q := by
    unfold State.slot
    rw [only.same .slots rfl]
  have time : (s.dispatched p).time = s.time := only.same .time rfl
  have free : (s.dispatched p).free = s.free := only.same .free rfl
  refine ⟨fun waiting => ?_, fun acks waiting cell going waits room => ?_⟩
  · have unanswered := takeMail_unanswered (p := p) (seq := frameSeq bytes) (payload := payload) (s := s.dispatched p)
      (by rw [alarm]; exact waiting)
    rw [alarm] at unanswered
    refine ⟨_, taken.trans (congrArg (fun t => Host.Outcome.next (checkDrains t)) unanswered), freed.of_same rfl rfl rfl,
      fwd, rfl, ?_⟩
    exact (with_alarm_changes (s.dispatched p) _).after (only.weaken (qs := [.ports, .fwd, .qm, .alarm, .out]) rfl) rfl
  · let x := (s.dispatched p).mailJudged p payload result
    have same : (s.dispatched p).mailResult p payload = result := by
      unfold State.mailResult
      rw [slot, alarm]
    have judged := takeMail_judged (p := p) (seq := frameSeq bytes) (payload := payload) (s := s.dispatched p)
      (by rw [alarm]; exact acks) (by rw [alarm]; exact waits) (by rw [alarm]; exact room)
    rw [same] at judged
    have apart : OnlyChanges [.alarm] (s.dispatched p) x := mailJudged_changes p payload result _
    have qm : x.qm = (s.dispatched p).qm := apart.same .qm rfl
    have ports : x.ports = (s.dispatched p).ports := apart.same .ports rfl
    have freed' : FrameFreed p (s.port p).errorCount s x := freed.of_same ports qm (apart.same .qcfg rfl)
    have queues : x.qm = { s.qm with slot := s.qm.slot.write p { s.sq p with paused := (x.sq p).paused } } := freed'.2.2.2
    have sq : x.sq p = { s.sq p with paused := (x.sq p).paused } :=
      (congrArg (fun m => m.slot.read p) queues).trans (Table.read_write_same _ _ _)
    have time' : x.time = s.time := Eq.trans (apart.same .time rfl) time
    have free' : x.free = s.free := Eq.trans (apart.same .free rfl) free
    have acked := makeAck_acked (p := p) (result := result) (answers := frameSeq bytes) (s := x)
      (by rw [mailJudged_acks, alarm]; exact acks) (by rw [queues]; exact waiting)
      (by rw [freed'.reserveFree]; exact cell)
      (by
        have slots : x.slot p = (s.dispatched p).slot p := by unfold State.slot; rw [apart.same .slots rfl]
        rw [slots, slot]
        exact up)
      (by rw [sq]; exact going)
    refine ⟨x.acked p result (frameSeq bytes), taken.trans (congrArg (fun t => Host.Outcome.next (checkDrains t))
      (judged.trans acked)), ?_, ?_, ?_, freed'.1, Eq.trans (apart.same .fwd rfl) fwd, congrArg (· + 1) free', ?_⟩
    · have judgedAlarm : x.alarm = ((s.dispatched p).mailJudged p payload result).alarm := rfl
      unfold State.mailJudged at judgedAlarm
      show { x.alarm with counters := x.alarm.counters.judged result } = _
      unfold AlarmCounters.judged
      rw [judgedAlarm]
      by_cases accepted : result = .accepted
      · simp only [if_pos accepted, alarm, time]
        rfl
      · simp only [if_neg accepted, alarm]
        rfl
    · show x.qm.frames ++ _ = _
      rw [free', time', queues]
    · refine (congrArg SlotQueues.queues (Table.read_write_same _ _ _)).trans ?_
      rw [sq, queues]
    · have stored : OnlyChanges [.alarm, .qm, .free] x (x.acked p result (frameSeq bytes)) := fun q => by
        cases q <;> simp [Part.Same, State.acked]
      exact stored.after (apart.after (only.weaken (qs := [.ports, .fwd, .qm, .alarm, .out, .free]) rfl) rfl) rfl

end Sys2Proof.Machine
end

section
/-! SUPPORT. The withdrawal of a slot's waiting TIME_MARK frames: what it leaves of the delay unit and of the TIMING queue
(R115). -/

namespace Sys2Proof.Machine

/-- Between two states TIME_MARK frames of a slot were withdrawn: no queue moved and no frame got another body, and the
delay unit counted them for the slot alone. -/
structure MarksGone (n : Slot) (s t : State) : Prop where
  queues : ∀ q, (t.sq q).queues = (s.sq q).queues
  bodies : ∀ id f, t.frame? id = some f → ∃ g, s.frame? id = some g ∧ g.body = f.body
  others : ∀ q, q ≠ n → t.slotDelay q = s.slotDelay q
  own : t.slotDelay n = { s.slotDelay n with counters := { (s.slotDelay n).counters with
    marksWithdrawn := (t.slotDelay n).counters.marksWithdrawn } }

section
variable {n : Slot} {s t u : State}

theorem MarksGone.refl (n : Slot) (s : State) : MarksGone n s s :=
  ⟨fun _ => rfl, fun _ f h => ⟨f, h, rfl⟩, fun _ _ => rfl, rfl⟩

theorem MarksGone.trans (h : MarksGone n s t) (k : MarksGone n t u) : MarksGone n s u where
  queues q := (k.queues q).trans (h.queues q)
  bodies id f found := by
    obtain ⟨g, inT, body⟩ := k.bodies id f found
    obtain ⟨e, inS, body'⟩ := h.bodies id g inT
    exact ⟨e, inS, body'.trans body⟩
  others q other := (k.others q other).trans (h.others q other)
  own := by rw [k.own, h.own]

/-- A frame that has no other body is not a TIME_MARK where it was none. -/
theorem MarksGone.isMark (h : MarksGone n s t) {id : Nat} (mark : s.isMark id = false) : t.isMark id = false := by
  unfold State.isMark at mark ⊢
  cases found : t.frame? id with
  | none => rfl
  | some f =>
    obtain ⟨g, inS, body⟩ := h.bodies id f found
    rw [inS, Option.map_some, body] at mark
    exact mark

theorem withdrawMark_gone (n : Slot) (id : Nat) (s : State) : MarksGone n s (withdrawMark n id s) := by
  let t := countDelay n (fun c => { c with marksWithdrawn := count32 c.marksWithdrawn }) s
  have delay : (release id t).delay = t.delay := (release_changes id t).same .delay rfl
  have slotDelay (q : Slot) : (release id t).slotDelay q = t.slotDelay q := by
    unfold State.slotDelay
    rw [delay]
  have counted : t.slotDelay n = { s.slotDelay n with counters := { (s.slotDelay n).counters with
      marksWithdrawn := count32 (s.slotDelay n).counters.marksWithdrawn } } := Table.read_update_same _ _ _
  refine ⟨fun q => release_queues id q t, fun j f found => ?_, fun q other => ?_, ?_⟩
  · cases held : t.frame? id with
    | none =>
      have same : release id t = t := by
        unfold release
        rw [held]
      have kept : withdrawMark n id s = t := same
      rw [kept] at found
      exact ⟨f, found, rfl⟩
    | some g =>
      obtain ⟨last, more, rest⟩ := release_givesBack held
      by_cases same : j = id
      · subst same
        by_cases few : g.refs ≤ 1
        · exact absurd ((last few).symm.trans found) nofun
        · refine ⟨g, held, ?_⟩
          rw [← Option.some.inj ((more (Nat.lt_of_not_le few)).symm.trans found)]
      · exact ⟨f, (rest j same).symm.trans found, rfl⟩
  · exact (slotDelay q).trans (Table.read_update_ne _ _ other)
  · refine (slotDelay n).trans ?_
    rw [show (withdrawMark n id s).slotDelay n = t.slotDelay n from slotDelay n, counted]

theorem withdrawMark_all_gone (n : Slot) (ids : List Nat) (s : State) : MarksGone n s (forEach ids (withdrawMark n) s) := by
  unfold forEach
  induction ids generalizing s with
  | nil => exact .refl n s
  | cons id rest ih => exact (withdrawMark_gone n id s).trans (ih _)

/-- A reference in the queue of a class stands in the port's queues. -/
theorem Queues.mem_of_ofClass {q : Queues} {c : FrameClass} {id : Nat} (member : id ∈ q.ofClass c) :
    id ∈ q.sample ++ q.timing ++ q.control ++ q.bulk := by
  simp only [List.mem_append]
  cases c with
  | sample => exact .inl (.inl (.inl member))
  | timing => exact .inl (.inl (.inr member))
  | control => exact .inl (.inr member)
  | bulk => exact .inr member

theorem Queues.setClass_tail_timing (q : Queues) (c : FrameClass) {id : Nat}
    (member : id ∈ (q.setClass c (q.ofClass c).tail).timing) : id ∈ q.timing := by
  cases c with
  | timing => exact List.mem_of_mem_tail member
  | sample => exact member
  | control => exact member
  | bulk => exact member

/-- A decision leaves the delay unit as it is, or the outstanding probe of the slot a frame of the port's queues is for
gets its send time (R105). -/
theorem arbitrate_delay (p : Slot) (s : State) : (arbitrate p s).delay = s.delay ∨
    ∃ (id : Nat) (f : StoredFrame) (h : HubFrame) (d : SlotDelay),
      id ∈ (s.sq p).queues.sample ++ (s.sq p).queues.timing ++ (s.sq p).queues.control ++ (s.sq p).queues.bulk ∧
      s.frame? id = some f ∧ f.body = .hub h ∧ (s.slotDelay h.dest).outstanding ≠ none ∧
      (arbitrate p s).delay = { s.delay with slot := s.delay.slot.write h.dest d } := by
  cases decided : decision s p with
  | none => exact .inl (by rw [arbitrate_idle decided])
  | some c =>
    rw [arbitrate_starts decided]
    cases head : (s.sq p).queues.ofClass c with
    | nil =>
      unfold startFrame
      rw [head]
      exact .inl rfl
    | cons id rest =>
      cases frame : s.frame? id with
      | none =>
        unfold startFrame
        rw [head]
        dsimp only
        rw [frame]
        exact .inl rfl
      | some f =>
        obtain ⟨-, -, -, -, kept, sent, -⟩ := startFrame_starts (p := p) (c := c) (by rw [head]; rfl) frame
        by_cases probe : ∃ h : HubFrame, f.body = .hub h ∧ h.kind = .probe ∧
            (s.slotDelay h.dest).outstanding = some ⟨h.seq.toNat, none⟩
        · obtain ⟨h, body, kind, waits⟩ := probe
          exact .inr ⟨id, f, h, _, Queues.mem_of_ofClass (c := c) (by rw [head]; exact .head _), frame, body,
            by rw [waits]; exact nofun, sent h body kind waits⟩
        · exact .inl (kept fun h body kind waits => probe ⟨h, body, kind, waits⟩)

/-- With no probe outstanding for a slot, a decision leaves its delay state (R105). -/
theorem arbitrate_slotDelay (p : Slot) {q : Slot} (none : (s.slotDelay q).outstanding = none) :
    (arbitrate p s).slotDelay q = s.slotDelay q := by
  unfold State.slotDelay at none ⊢
  obtain same | ⟨-, -, h, d, -, -, -, waits, delay⟩ := arbitrate_delay p s
  · rw [same]
  · have other : q ≠ h.dest := fun e => waits (e ▸ none)
    rw [delay]
    exact Table.read_write_ne _ _ other

/-- With no probe outstanding for the slot of its port's hub frames, a decision leaves every delay state (R105). -/
theorem arbitrate_delay_of_home {p : Slot} (home : s.HubFramesAtHome p) (none : (s.slotDelay p).outstanding = none) :
    (arbitrate p s).delay = s.delay := by
  obtain same | ⟨id, f, h, -, member, frame, body, waits, -⟩ := arbitrate_delay p s
  · exact same
  · exact absurd (home id member f h frame body ▸ none) waits

/-- The withdrawal of a slot's marks, with no probe outstanding, counts them for the slot alone and leaves none in its
TIMING queue (R115). -/
theorem withdrawMarks_gone (none : (s.slotDelay n).outstanding = none) :
    (∃ k, (withdrawMarks n s).slotDelay n = { s.slotDelay n with
      counters := { (s.slotDelay n).counters with marksWithdrawn := k } }) ∧
    (s.HubFramesAtHome n → ∀ q, q ≠ n → (withdrawMarks n s).slotDelay q = s.slotDelay q) ∧
    ∀ id ∈ ((withdrawMarks n s).sq n).queues.timing, (withdrawMarks n s).isMark id = false := by
  let left := (s.sq n).queues.timing.filter fun id => !s.isMark id
  let t := s.updSq n fun q => { q with queues := { q.queues with timing := left } }
  let u := forEach ((s.sq n).queues.timing.filter s.isMark) (withdrawMark n) t
  have gone : MarksGone n t u := withdrawMark_all_gone n _ t
  have queues : (u.sq n).queues = { (s.sq n).queues with timing := left } :=
    (gone.queues n).trans (congrArg SlotQueues.queues (Table.read_update_same _ _ _))
  have own : u.slotDelay n = { s.slotDelay n with counters := { (s.slotDelay n).counters with
      marksWithdrawn := (u.slotDelay n).counters.marksWithdrawn } } := gone.own
  have still : (u.slotDelay n).outstanding = .none := by
    rw [own]
    exact none
  refine ⟨⟨_, (arbitrate_slotDelay n still).trans own⟩, fun home q other => ?_, fun id member => ?_⟩
  · have kept : u.HubFramesAtHome n := fun id member f h frame body => by
      obtain ⟨g, before, same⟩ := gone.bodies id f frame
      refine home id ?_ g h before (same.trans body)
      rw [queues] at member
      simp only [List.mem_append] at member ⊢
      obtain ((sample | timing) | control) | bulk := member
      · exact .inl (.inl (.inl sample))
      · exact .inl (.inl (.inr (List.mem_of_mem_filter timing)))
      · exact .inl (.inr control)
      · exact .inr bulk
    have delay : (withdrawMarks n s).delay = u.delay := arbitrate_delay_of_home kept still
    calc (withdrawMarks n s).slotDelay q = u.slotDelay q := congrArg (fun d => d.slot.read q) delay
      _ = s.slotDelay q := gone.others q other
  · have kept (id : Nat) (waits : id ∈ left) : u.isMark id = false := by
      refine gone.isMark (id := id) (show s.isMark id = false from ?_)
      simpa using (List.mem_filter.1 waits).2
    obtain same | ⟨c, -, -, -, -, -, -, -, qm, -⟩ := arbitrate_cases n u
    · have all : withdrawMarks n s = u := same
      rw [all] at member ⊢
      rw [queues] at member
      exact kept id member
    · have after : (withdrawMarks n s).qm = _ := qm
      have sq : (withdrawMarks n s).sq n = _ :=
        (congrArg (fun m => m.slot.read n) after).trans (Table.read_write_same _ _ _)
      have frames : (withdrawMarks n s).isMark id = u.isMark id := by
        unfold State.isMark State.frame?
        rw [after]
      rw [frames]
      rw [sq] at member
      refine kept id ?_
      have before := Queues.setClass_tail_timing _ c member
      rw [queues] at before
      exact before

end

end Sys2Proof.Machine
end

section
/-! A PROBE_REPLY is taken (O27). -/

namespace Sys2Proof.Machine

section
variable {n : Slot} {s : State}

/-- Between two states only a slot's own delay state changed. -/
structure DelayBecomes (n : Slot) (d : SlotDelay) (s t : State) : Prop where
  own : t.slotDelay n = d
  others : ∀ q, q ≠ n → t.slotDelay q = s.slotDelay q
  only : OnlyChanges [.delay] s t

theorem updDelay_becomes (n : Slot) (f : SlotDelay → SlotDelay) (s : State) :
    DelayBecomes n (f (s.slotDelay n)) s (s.updDelay n f) :=
  ⟨State.slotDelay_updDelay_same s n f, fun _ other => State.slotDelay_updDelay_ne s n f other, updDelay_changes n f s⟩

theorem DelayBecomes.updDelay {d : SlotDelay} {t : State} (h : DelayBecomes n d s t) (f : SlotDelay → SlotDelay) :
    DelayBecomes n (f d) s (t.updDelay n f) :=
  h.own ▸ ⟨(updDelay_becomes n f t).own, fun q other => ((updDelay_becomes n f t).others q other).trans (h.others q other),
    h.only.seq (updDelay_becomes n f t).only⟩

theorem DelayBecomes.trans {d e : SlotDelay} {t u : State} (h : DelayBecomes n d s t) (k : DelayBecomes n e t u) :
    DelayBecomes n e s u :=
  ⟨k.own, fun q other => (k.others q other).trans (h.others q other), h.only.seq k.only⟩

theorem baseOf_eq (window : List Nat) : baseOf window = if 4 ≤ window.length then window.min? else none := by
  cases window <;> rfl

/-- The difference of two times over their seconds and nanoseconds. -/
theorem minus_eq_sub (a b : Stamp) : a.minus b =
    ((a.sec : Int) * 1000000000 + a.ns) - ((b.sec : Int) * 1000000000 + b.ns) := by
  simp [Stamp.minus, Stamp.toNs, Config.nsPerSecond]

/-- A slot's delay state with one more miss counted (R118). -/
def SlotDelay.missCounted (d : SlotDelay) : SlotDelay :=
  { d with counters := { d.counters with misses := oneMore d.counters.misses } }

/-- A slot's delay state with a longer run of misses (R111). -/
def SlotDelay.runRisen (d : SlotDelay) : SlotDelay := { d with missRun := d.missRun + 1 }

/-- A slot's delay state with the window lost (R111). -/
def SlotDelay.windowLost (d : SlotDelay) : SlotDelay :=
  { d with
    window := [], base := none, highRun := 0, delays := none
    counters := { d.counters with losses := oneMore d.counters.losses } }

theorem countMiss_eq (n : Slot) (s : State) : countMiss n s =
    if (s.slotDelay n).missRun < 3 then
      if (s.slotDelay n).missRun = 2 then
        withdrawMarks n (((s.updDelay n .missCounted).updDelay n .runRisen).updDelay n .windowLost)
      else (s.updDelay n .missCounted).updDelay n .runRisen
    else s.updDelay n .missCounted := by
  have risen := (updDelay_becomes n .missCounted s).updDelay .runRisen
  have third : (((s.updDelay n .missCounted).updDelay n .runRisen).slotDelay n).missRun = 3 ↔
      (s.slotDelay n).missRun = 2 := by
    rw [risen.own]
    exact Nat.succ_inj
  rw [← if_congr third rfl rfl]
  rfl

/-- A miss that is not the third of a run only counts (R111). -/
theorem countMiss_becomes (notThird : (s.slotDelay n).missRun ≠ 2) : DelayBecomes n
    { s.slotDelay n with
      missRun := if (s.slotDelay n).missRun < 3 then (s.slotDelay n).missRun + 1 else (s.slotDelay n).missRun
      counters := { (s.slotDelay n).counters with misses := oneMore (s.slotDelay n).counters.misses } }
    s (countMiss n s) := by
  rw [countMiss_eq, if_neg notThird]
  split
  · exact (updDelay_becomes n .missCounted s).updDelay .runRisen
  · exact updDelay_becomes n .missCounted s

/-- At the third miss in a row the window is lost and the waiting marks are withdrawn (R111, R115). -/
theorem countMiss_third (third : (s.slotDelay n).missRun = 2) : ∃ t, countMiss n s = withdrawMarks n t ∧
    DelayBecomes n (s.slotDelay n).missCounted.runRisen.windowLost s t := by
  rw [countMiss_eq, if_pos (by rw [third]; decide), if_pos third]
  exact ⟨_, rfl, ((updDelay_becomes n .missCounted s).updDelay .runRisen).updDelay .windowLost⟩

/-- An accepted sample joins the window, and the record follows the base delay (R109, R110, R112). -/
theorem takeRoundTrip_accepted {r : Int} (low : 0 ≤ r) (high : r ≤ s.delay.config.rmax) :
    DelayBecomes n (({ s.slotDelay n with counters := { (s.slotDelay n).counters with
      accepted := oneMore (s.slotDelay n).counters.accepted } } : SlotDelay).join s.delay.config.stepLimit
      ((r + 1) / 2).toNat) s (takeRoundTrip n r s) := by
  unfold takeRoundTrip
  rw [if_pos ⟨low, high⟩]
  exact (updDelay_becomes n (fun d => { d with counters := { d.counters with accepted := count32 d.counters.accepted } })
    s).updDelay fun d => d.join s.delay.config.stepLimit ((r + 1) / 2).toNat

/-- A rejected round trip counts, and is a miss (R108). -/
theorem takeRoundTrip_rejected {r : Int} (out : r < 0 ∨ s.delay.config.rmax < r) : takeRoundTrip n r s =
    countMiss n (s.updDelay n fun d => { d with
      counters := { d.counters with rejected := oneMore d.counters.rejected } }) :=
  if_neg fun both => by omega

/-- The joined delay state, field by field (R109, R110, R112). -/
theorem SlotDelay.join_eq (d : SlotDelay) (stepLimit b : Nat) : d.join stepLimit b =
    let high := match d.base with
      | some base => if base + stepLimit < b then d.highRun + 1 else 0
      | none => d.highRun
    let grown := d.window ++ [b]
    let kept := if 9 ≤ grown.length then grown.drop 1 else grown
    let window := if 4 ≤ high then kept.drop (kept.length - 4) else kept
    let base := if 4 ≤ window.length then window.min? else none
    { d with
      window := window, base := base, missRun := 0
      highRun := if 4 ≤ high then 0 else high
      delays := base.map fun x => ⟨((x : Int) + d.asymmetry).toNat, ((x : Int) - d.asymmetry).toNat⟩
      counters := { d.counters with
        resets := if 4 ≤ high then oneMore d.counters.resets else d.counters.resets } } := by
  unfold SlotDelay.join SlotDelay.reform recordOf
  simp only [baseOf_eq]
  have counters (c : Prop) [Decidable c] : (if c then { d.counters with resets := count32 d.counters.resets }
      else d.counters) = { d.counters with resets := if c then oneMore d.counters.resets else d.counters.resets } := by
    split <;> rfl
  rw [counters] <;> rfl

/-- A PROBE_REPLY matches the outstanding probe of its slot (R106). -/
def SlotDelay.Matches (d : SlotDelay) (seq : Byte) (length : Nat) : Prop :=
  length = 20 ∧ d.client = true ∧ ∃ pr, d.outstanding = some pr ∧ pr.t1.isSome = true ∧ seq.toNat = pr.seq

section
variable {seq : Byte} {payload : List Byte} {length : Nat} {t4 : Stamp}

/-- A reply that does not match is stale (R106). -/
theorem takeReply_stale (other : ¬ (s.slotDelay n).Matches seq length) : DelayBecomes n { s.slotDelay n with
      counters := { (s.slotDelay n).counters with stale := oneMore (s.slotDelay n).counters.stale } }
    s (takeReply n seq payload length t4 s) := by
  have stale := updDelay_becomes n (fun d => { d with counters := { d.counters with stale := count32 d.counters.stale } }) s
  unfold takeReply
  dsimp only
  split
  · next pseq t1 waits =>
    rw [if_neg fun ⟨whole, client, same⟩ => other ⟨whole, client, _, waits, rfl, same⟩]
    exact stale
  · exact stale
  · exact stale

/-- A reply that matches ends its probe and gives a round trip (R106, R108). -/
theorem takeReply_matches {pr : Probe} {t1 : Stamp} (whole : length = 20) (client : (s.slotDelay n).client = true)
    (waits : (s.slotDelay n).outstanding = some pr) (same : seq.toNat = pr.seq) (sent : pr.t1 = some t1) :
    takeReply n seq payload length t4 s = takeRoundTrip n (t4.minus t1 -
      Stamp.minus ⟨payloadField payload 10 6, payloadField payload 16 4⟩
        ⟨payloadField payload 0 6, payloadField payload 6 4⟩)
      (s.updDelay n fun d => { d with outstanding := none }) := by
  obtain ⟨pseq, t⟩ := pr
  obtain rfl : t = some t1 := sent
  unfold takeReply
  dsimp only
  rw [waits]
  exact if_pos ⟨whole, client, same⟩

/-- A round trip of a slot without a probe gives a delay state, or the marks of the slot are withdrawn (R108, R115). -/
theorem takeRoundTrip_cases (none : (s.slotDelay n).outstanding = none) (r : Int) :
    (∃ d, DelayBecomes n d s (takeRoundTrip n r s)) ∨
    ∃ d t, takeRoundTrip n r s = withdrawMarks n t ∧ DelayBecomes n d s t ∧ d.outstanding = .none := by
  by_cases out : r < 0 ∨ s.delay.config.rmax < r
  · have rejected := updDelay_becomes n (fun d => { d with
      counters := { d.counters with rejected := oneMore d.counters.rejected } }) s
    rw [takeRoundTrip_rejected out]
    by_cases third : (s.slotDelay n).missRun = 2
    · obtain ⟨t, same, becomes⟩ := countMiss_third (by rw [rejected.own]; exact third)
      refine .inr ⟨_, t, same, rejected.trans becomes, ?_⟩
      rw [rejected.own]
      exact none
    · exact .inl ⟨_, rejected.trans (countMiss_becomes (by rw [rejected.own]; exact third))⟩
  · exact .inl ⟨_, takeRoundTrip_accepted (by omega) (by omega)⟩

end

end

theorem hubFramesAtHome_of_same {p : Slot} {s t : State} (home : s.HubFramesAtHome p)
    (frames : t.qm.frames = s.qm.frames) (queues : (t.sq p).queues = (s.sq p).queues) : t.HubFramesAtHome p := by
  unfold State.HubFramesAtHome State.frame? at home ⊢
  rw [frames, queues]
  exact home

/-- Settles O27: the frame is dispatched, its reply matches or is stale, and its round trip is judged. -/
theorem probeReplyMeasuresTheDelay : Obligations.ProbeReplyMeasuresTheDelay := by
  intro p lanes s arrives bytes ready hub kind d payload time field
  have taken := receptionEnd_dispatches arrives ready hub
  unfold dispatchByKind at taken
  rw [kind] at taken
  obtain ⟨freed, fwd, only⟩ := dispatched_freed p s
  let t := s.dispatched p
  let u := takeReply p (frameSeq bytes) payload (framePayloadLength bytes) s.hubNow t
  have delay : t.delay = s.delay := only.same .delay rfl
  have slotDelay (q : Slot) : t.slotDelay q = s.slotDelay q := congrArg (fun d => d.slot.read q) delay
  have apart : OnlyChanges sendingParts t u := takeReply_changes _ _ _ _ _ _
  have stays {e : SlotDelay} (becomes : DelayBecomes p e t u) :
      FrameFreed p (s.port p).errorCount s u ∧ u.slotDelay p = e :=
    ⟨freed.of_same (becomes.only.same .ports rfl) (becomes.only.same .qm rfl) (becomes.only.same .qcfg rfl), becomes.own⟩
  have probed := updDelay_becomes p (fun d => { d with outstanding := none }) t
  refine ⟨u, taken, Eq.trans (apart.same .fwd rfl) fwd, fun home q other => ?_,
    Eq.trans (apart.same .alarm rfl) (only.same .alarm rfl), Eq.trans (apart.same .trk rfl) (only.same .trk rfl),
    Eq.trans (apart.same .agent rfl) (only.same .agent rfl), fun other => ?_, fun whole client pr waits same t1 sent => ?_⟩
  · by_cases hit : (t.slotDelay p).Matches (frameSeq bytes) (framePayloadLength bytes)
    · obtain ⟨whole, client, pr, waits, sent, same⟩ := hit
      obtain ⟨t1, sent⟩ := Option.isSome_iff_exists.1 sent
      have matched : u = _ := takeReply_matches whole client waits same sent
      rw [matched, ← slotDelay]
      obtain ⟨e, becomes⟩ | ⟨e, v, gone, becomes, none⟩ := takeRoundTrip_cases (congrArg SlotDelay.outstanding probed.own) _
      · exact (probed.trans becomes).others q other
      · have became := probed.trans becomes
        have qm : v.qm = t.qm := became.only.same .qm rfl
        have queues : t.qm = _ := freed.2.2.2
        have atHome : v.HubFramesAtHome p := by
          refine hubFramesAtHome_of_same home (congrArg (·.frames) (Eq.trans qm queues)) ?_
          exact (congrArg (fun m => (m.slot.read p).queues) (Eq.trans qm queues)).trans
            (congrArg SlotQueues.queues (Table.read_write_same _ _ _))
        rw [gone]
        exact ((withdrawMarks_gone (by rw [becomes.own]; exact none)).2.1 atHome q other).trans (became.others q other)
    · exact ((takeReply_stale hit).others q other).trans (slotDelay q)
  · have stale := stays (takeReply_stale (by rw [slotDelay]; exact other))
    rw [slotDelay] at stale
    exact stale
  · intro r
    let v := t.updDelay p fun d => { d with outstanding := none }
    have matched : u = takeRoundTrip p r v := by
      refine (takeReply_matches whole (by rw [slotDelay]; exact client) (by rw [slotDelay]; exact waits) same sent).trans ?_
      simp only [minus_eq_sub]
      rfl
    have vd : v.slotDelay p = { d with outstanding := none } := by rw [probed.own, slotDelay]
    have config : v.delay.config = s.delay.config := by
      rw [← delay]
      rfl
    refine ⟨fun low high => ?_, fun out => ⟨fun notThird => ?_, fun third => ?_⟩⟩
    · have accepted := takeRoundTrip_accepted (n := p) (s := v) low (by rw [config]; exact high)
      rw [SlotDelay.join_eq, vd, config, ← matched] at accepted
      exact stays (probed.trans accepted)
    all_goals
      have rejected := takeRoundTrip_rejected (n := p) (s := v) (by rw [config]; exact out)
      rw [← matched] at rejected
      have counted := updDelay_becomes p (fun d => { d with
        counters := { d.counters with rejected := oneMore d.counters.rejected } }) v
      rw [vd] at counted
    · have missed := countMiss_becomes (by rw [counted.own]; exact notThird)
      rw [← rejected, counted.own] at missed
      exact stays (probed.trans (counted.trans missed))
    · obtain ⟨w, gone, becomes⟩ := countMiss_third (by rw [counted.own]; exact third)
      rw [counted.own] at becomes
      obtain ⟨⟨k, own⟩, -, marks⟩ := withdrawMarks_gone (n := p) (s := w) (by rw [becomes.own]; rfl)
      rw [← gone, ← rejected, becomes.own] at own
      rw [← gone, ← rejected] at marks
      rw [own]
      exact ⟨rfl, congrArg (· + 1) third, rfl, rfl, rfl, rfl, rfl, marks⟩

end Sys2Proof.Machine
end

section
/-! SUPPORT. The flush of SAMPLE queues: the references it gives back, what it counts and what it leaves (R47, R57, R60). -/

namespace Sys2Proof.Machine

section
variable {s t u : State}

/-! ### References given back -/

/-- A stored frame once some of its references were given back: none left, it is freed (R47). -/
def StoredFrame.returned (f : StoredFrame) (k : Nat) : Option StoredFrame :=
  if k = 0 then some f else if f.refs ≤ k then none else some { f with refs := f.refs - k }

theorem StoredFrame.returned_zero (f : StoredFrame) : f.returned 0 = some f := if_pos rfl

theorem StoredFrame.returned_add (f : StoredFrame) (a b : Nat) :
    (f.returned a).bind (·.returned b) = f.returned (a + b) := by
  unfold StoredFrame.returned
  by_cases none : a = 0
  · subst none
    simp
  by_cases last : f.refs ≤ a
  · rw [if_neg none, if_pos last, if_neg (by omega), if_pos (by omega)]
    rfl
  · rw [if_neg none, if_neg last, Option.bind_some]
    by_cases zero : b = 0
    · rw [if_pos zero, if_neg (by omega), if_neg (by omega), zero]
      rfl
    · by_cases few : f.refs ≤ a + b
      · rw [if_neg zero, if_pos (by dsimp only; omega), if_neg (by omega), if_pos few]
      · rw [if_neg zero, if_neg (by dsimp only; omega), if_neg (by omega), if_neg few]
        simp only [Nat.sub_sub]

/-- Between two states a reference of each copy of a list was given back, and no other frame moved (R47). -/
structure CopiesReturned (ids : List Nat) (s t : State) : Prop where
  frames : ∀ id, t.frame? id = (s.frame? id).bind (·.returned (ids.count id))

theorem CopiesReturned.of_frames (same : ∀ id, t.frame? id = s.frame? id) : CopiesReturned [] s t :=
  ⟨fun id => by simp [same, StoredFrame.returned_zero]⟩

theorem CopiesReturned.trans {ids more : List Nat} (h : CopiesReturned ids s t) (k : CopiesReturned more t u) :
    CopiesReturned (ids ++ more) s u :=
  ⟨fun id => by simp only [k.frames, h.frames, Option.bind_assoc, StoredFrame.returned_add, List.count_append]⟩

theorem release_returns (id : Nat) (s : State) : CopiesReturned [id] s (release id s) := by
  refine ⟨fun j => ?_⟩
  cases held : s.frame? id with
  | none =>
    have same : release id s = s := by
      unfold release
      rw [held]
    by_cases h : j = id
    · rw [same, h, held]
      rfl
    · simp [same, Ne.symm h, StoredFrame.returned_zero]
  | some f =>
    obtain ⟨last, more, rest⟩ := release_givesBack held
    by_cases h : j = id
    · subst h
      rw [held, List.count_singleton_self, Option.bind_some]
      unfold StoredFrame.returned
      rw [if_neg one_ne_zero]
      by_cases few : f.refs ≤ 1
      · rw [if_pos few, last few]
      · rw [if_neg few, more (by omega)]
    · simp [rest j h, Ne.symm h, StoredFrame.returned_zero]

theorem discardCopies_returns (p : Slot) (ids : List Nat) (s : State) :
    CopiesReturned ids s (forEach ids (discardCopy p) s) := by
  unfold forEach
  induction ids generalizing s with
  | nil => exact .of_frames fun _ => rfl
  | cons id rest ih =>
    refine CopiesReturned.trans (ids := [id]) (t := discardCopy p id s) ?_ (ih _)
    exact ⟨(release_returns id _).frames⟩

/-! ### The flush of one port -/

theorem discardCopies_discards (p : Slot) (ids : List Nat) (s : State) :
    ((forEach ids (discardCopy p) s).sq p).egress.discards = Nat.iterate oneMore ids.length (s.sq p).egress.discards := by
  unfold forEach
  induction ids generalizing s with
  | nil => rfl
  | cons id rest ih =>
    rw [List.foldl_cons, ih, List.length_cons, Function.iterate_succ_apply]
    congr 1
    unfold discardCopy
    rw [(release_moves id _).sq p, State.sq_updSq_same]
    rfl

/-- Between two states the SAMPLE queues of some ports were flushed. -/
structure SamplesFlushed (ps : List Slot) (s t : State) : Prop where
  port : ∀ q, t.port q = { s.port q with pauseAsserted := (t.port q).pauseAsserted }
  sq : ∀ q, t.sq q = { s.sq q with
    paused := (t.sq q).paused
    queues := { (s.sq q).queues with sample := if q ∈ ps then [] else (s.sq q).queues.sample }
    egress := { (s.sq q).egress with
      discards := Nat.iterate oneMore (if q ∈ ps then (s.sq q).queues.sample.length else 0) (s.sq q).egress.discards } }
  returned : CopiesReturned (ps.flatMap fun p => (s.sq p).queues.sample) s t

theorem flushSample_flushed (p : Slot) (s : State) : SamplesFlushed [p] s (flushSample p s) := by
  let v := s.updSq p fun r => { r with queues := { r.queues with sample := [] } }
  have discarded : Discarded p (s.sq p).queues.sample v (flushSample p s) := discardCopies_discarded p _ v
  have counted : ((flushSample p s).sq p).egress.discards = _ := discardCopies_discards p (s.sq p).queues.sample v
  refine ⟨discarded.port, fun q => ?_, ?_⟩
  · by_cases h : q = p
    · subst h
      rw [if_pos (.head _), if_pos (.head _), discarded.sq, counted, State.sq_updSq_same]
    · rw [if_neg (by simpa using h), if_neg (by simpa using h), discarded.sq_ne q h, State.sq_updSq_ne _ _ _ h]
      rfl
  · rw [List.flatMap_singleton]
    exact ⟨(discardCopies_returns p _ v).frames⟩

theorem SamplesFlushed.cons {p : Slot} {ps : List Slot} (h : SamplesFlushed [p] s t) (k : SamplesFlushed ps t u)
    (new : p ∉ ps) : SamplesFlushed (p :: ps) s u where
  port q := by rw [k.port q, h.port q]
  sq q := by
    by_cases same : q = p
    · subst same
      rw [k.sq q, h.sq q, if_neg new, if_neg new]
      simp
    · rw [k.sq q, h.sq q]
      simp [same]
  returned := by
    have before (q : Slot) (other : q ≠ p) : (t.sq q).queues.sample = (s.sq q).queues.sample := by
      rw [h.sq q]
      exact if_neg (by simpa using other)
    have same : (ps.flatMap fun q => (t.sq q).queues.sample) = ps.flatMap fun q => (s.sq q).queues.sample :=
      List.flatMap_congr fun q member => before q fun e => new (e ▸ member)
    have both := h.returned.trans k.returned
    rw [same, List.flatMap_singleton] at both
    exact both

theorem flushSamples_flushed {ps : List Slot} (nodup : ps.Nodup) (s : State) :
    SamplesFlushed ps s (forEach ps flushSample s) := by
  unfold forEach
  induction ps generalizing s with
  | nil => exact ⟨fun _ => rfl, fun _ => rfl, .of_frames fun _ => rfl⟩
  | cons p rest ih =>
    rw [List.nodup_cons] at nodup
    exact (flushSample_flushed p s).cons (ih nodup.2 _) nodup.1

end

end Sys2Proof.Machine
end

section
/-! SUPPORT. What a notice, and the alarm waits it may complete, leave: the empty SAMPLE queues and the records of
others (R173, R180). -/

namespace Sys2Proof.Machine

section
variable {s t u : State}

/-! ### SAMPLE queues that stand empty -/

/-- Between two states no SAMPLE queue that stood empty was filled. -/
structure SamplesStayEmpty (s t : State) : Prop where
  empty : ∀ p, (s.sq p).queues.sample = [] → (t.sq p).queues.sample = []

theorem SamplesStayEmpty.trans (h : SamplesStayEmpty s t) (k : SamplesStayEmpty t u) : SamplesStayEmpty s u :=
  ⟨fun p none => k.empty p (h.empty p none)⟩

theorem SamplesStayEmpty.of_changes {ps : List Part} (only : OnlyChanges ps s t) (apart : ps.contains .qm = false) :
    SamplesStayEmpty s t :=
  ⟨fun p none => by unfold State.sq at none ⊢; rw [only.same .qm apart]; exact none⟩

theorem updSq_samplesStayEmpty (p : Slot) (f : SlotQueues → SlotQueues) (s : State)
    (keeps : ∀ q, q.queues.sample = [] → (f q).queues.sample = []) : SamplesStayEmpty s (s.updSq p f) := by
  refine ⟨fun q none => ?_⟩
  by_cases h : q = p
  · subst h
    rw [State.sq_updSq_same]
    exact keeps _ none
  · rw [State.sq_updSq_ne _ _ _ h]
    exact none

theorem arbitrate_samplesStayEmpty (p : Slot) (s : State) : SamplesStayEmpty s (arbitrate p s) := by
  obtain same | ⟨c, -, -, -, -, -, -, -, qm, -⟩ := arbitrate_cases p s
  · rw [same]
    exact ⟨fun _ none => none⟩
  · refine ⟨fun q none => ?_⟩
    have tail : ((s.sq p).queues.sample = []) →
        ((s.sq p).queues.setClass c ((s.sq p).queues.ofClass c).tail).sample = [] := fun none => by
      cases c with
      | sample => exact congrArg List.tail none
      | timing => exact none
      | control => exact none
      | bulk => exact none
    unfold State.sq at none tail ⊢
    rw [qm, Table.read_write]
    split
    · next h => exact tail (h ▸ none)
    · exact none

/-- A frame stored for a port's CONTROL queue leaves the SAMPLE queues. -/
theorem storeControl_samplesStayEmpty (body : FrameBody) (cells : Nat) (p : Slot) (s : State) :
    SamplesStayEmpty s (storeFrame body .control cells [p] s) := by
  let v : State := { s with qm := { s.qm with
    frames := s.qm.frames ++ [⟨s.qm.nextFrame, body, .control, cells, 1⟩]
    nextFrame := s.qm.nextFrame + 1 } }
  have entered := updSq_samplesStayEmpty p (fun q =>
    { q with queues := { q.queues with control := q.queues.control ++ [s.qm.nextFrame] } }) v fun _ none => none
  exact ⟨entered.empty⟩

theorem sendResponse_samplesStayEmpty (r : Response) (s : State) : SamplesStayEmpty s (sendResponse r s) := by
  unfold sendResponse
  split
  · have counted := updAgent_changes (fun a =>
      { a with counters := { a.counters with made := count32 a.counters.made } }) s
    refine (SamplesStayEmpty.of_changes counted rfl).trans ?_
    exact (storeControl_samplesStayEmpty (.hub r.frame) r.frame.cells r.dest _).trans
      (arbitrate_samplesStayEmpty r.dest _)
  · exact updSq_samplesStayEmpty _ _ s fun _ none => none

theorem makeResponse_samplesStayEmpty (kind : ResponseKind) (dest : Slot) (seq : Byte) (payload : List Byte)
    (s : State) : SamplesStayEmpty s (makeResponse kind dest seq payload s) := by
  have joined (v : State) : SamplesStayEmpty v (joinWaiting .agent v) := by
    unfold joinWaiting
    split
    · exact ⟨fun _ none => none⟩
    · exact ⟨fun _ none => none⟩
  obtain h | ⟨-, h⟩ | h := makeResponse_cases kind dest seq payload s <;> rw [h]
  · exact sendResponse_samplesStayEmpty _ s
  · exact .of_changes (updAgent_changes _ s) rfl
  · exact SamplesStayEmpty.trans (.of_changes (updAgent_changes _ s) rfl) (joined _)

theorem complete_samplesStayEmpty (record : Nat) (status : Status) (results : List Byte) (s : State) :
    SamplesStayEmpty s (complete record status results s) := by
  unfold complete
  split
  · exact SamplesStayEmpty.trans (.of_changes (updAgent_changes _ s) rfl) (makeResponse_samplesStayEmpty ..)
  · exact ⟨fun _ none => none⟩

theorem pendNotices_changes (ns : List Notice) (s : State) : OnlyChanges [.alarm] s (forEach ns pendNotice s) :=
  OnlyChanges.forEach (fun n t => pendNotice_changes n t) ns s

theorem deliver_samplesStayEmpty (ws : List Wait) (ns : List Notice) (s : State) :
    SamplesStayEmpty s (deliver ws ns s) := by
  induction ws generalizing ns s with
  | nil => exact .of_changes (pendNotices_changes ns s) rfl
  | cons w ws ih =>
    unfold deliver
    split
    · exact ⟨fun _ none => none⟩
    · refine SamplesStayEmpty.trans ?_ (ih _ _)
      exact SamplesStayEmpty.trans (.of_changes (updAlarm_changes _ s) rfl) (complete_samplesStayEmpty ..)

theorem changePoint_samplesStayEmpty (id : PointId) (new : Point) (s : State) :
    SamplesStayEmpty s (changePoint id new s) := by
  refine SamplesStayEmpty.trans (.of_changes (movePoint_changes id new s) rfl) ?_
  exact SamplesStayEmpty.trans (.of_changes (updAlarm_changes _ _) rfl) (deliver_samplesStayEmpty ..)

/-! ### Records in flight -/

/-- The completion of a record leaves what is found of another (R180). -/
theorem complete_inflight_ne {record k : Nat} (other : k ≠ record) (status : Status) (results : List Byte) (s : State) :
    (complete record status results s).agent.inflight.find? (·.record == k) =
      s.agent.inflight.find? (·.record == k) := by
  unfold complete
  split
  · rw [(makeResponse_agent ..).2.1]
    show (s.agent.inflight.filter (·.record != record)).find? (·.record == k) = _
    rw [List.find?_filter]
    congr 1
    funext f
    by_cases h : f.record = k
    · simp [h, other]
    · simp [h]
  · rfl

theorem deliver_inflight {ws : List Wait} {k : Nat} (others : ∀ w ∈ ws, w.record ≠ k) (ns : List Notice) (s : State) :
    (deliver ws ns s).agent.inflight.find? (·.record == k) = s.agent.inflight.find? (·.record == k) := by
  induction ws generalizing ns s with
  | nil =>
    unfold deliver
    rw [(pendNotices_changes ns s).same .agent rfl]
  | cons w ws ih =>
    unfold deliver
    split
    · rfl
    · rw [ih fun v member => others v (.tail _ member)]
      exact complete_inflight_ne (others w (.head _)).symm _ _ _

/-- A change of a point leaves the records that are of no alarm wait (R173, R180). -/
theorem changePoint_inflight {k : Nat} (others : ∀ w ∈ s.alarm.waits, w.record ≠ k) (id : PointId) (new : Point) :
    (changePoint id new s).agent.inflight.find? (·.record == k) = s.agent.inflight.find? (·.record == k) := by
  have moved : (changePoint id new s).agent.inflight.find? (·.record == k) =
      (movePoint id new s).agent.inflight.find? (·.record == k) := deliver_inflight others _ _
  rw [moved, (movePoint_changes id new s).same .agent rfl]

end

end Sys2Proof.Machine
end

section
/-! The calendar is swapped (O31). -/

namespace Sys2Proof.Machine

section
variable {s t : State}

/-- The banks have changed places and the arming is absent (R70). -/
def State.banksSwapped (s : State) : State :=
  { s with cal := ⟨s.cal.pendingBank, s.cal.active, none⟩ }

/-- The ports without windows in the pending bank, in ascending order. -/
def State.windowless (s : State) : List Slot := allSlots.filter fun p => (s.cal.pendingBank.windows.read p).isEmpty

theorem mem_windowless {p : Slot} : p ∈ s.windowless ↔ (s.cal.pendingBank.windows.read p).isEmpty = true := by
  have member : p ∈ allSlots := by revert p; decide
  unfold State.windowless
  rw [List.mem_filter]
  exact and_iff_right member

theorem windowless_nodup (s : State) : s.windowless.Nodup := List.Nodup.filter _ (by decide)

/-- The state in which the swap's record is completed: swapped, flushed, and FIT evaluated (R70). -/
def State.swapEvaluated (s : State) : State := evaluateFit (forEach s.windowless flushSample s.banksSwapped)

theorem flushWindowless_eq (s : State) :
    forSlots (fun p t => if (t.cal.active.windows.read p).isEmpty then flushSample p t else t) s.banksSwapped =
      forEach s.windowless flushSample s.banksSwapped := by
  have calKept (p : Slot) (t : State) : (flushSample p t).cal = t.cal := (flushSample_changes p t).same .cal rfl
  calc forSlots _ s.banksSwapped
    _ = forEach allSlots (fun p t => if (s.cal.pendingBank.windows.read p).isEmpty then flushSample p t else t)
        s.banksSwapped := by
      refine forEach_congr (P := fun t => t.cal = s.banksSwapped.cal) (fun p t cal => ?_) (fun p t cal => ?_) _ rfl
      · rw [cal]
        rfl
      · split
        · exact (calKept p t).trans cal
        · exact cal
    _ = forEach s.windowless flushSample s.banksSwapped :=
      (List.foldl_filter (p := fun p => (s.cal.pendingBank.windows.read p).isEmpty) (f := fun t p => flushSample p t)).symm

theorem swapBanks_of_armed {a : Arming} (armed : s.cal.arming = some a) : swapBanks s =
    complete a.record .ok (s.hubNow.bytes ++ u32 s.swapEvaluated.cal.active.cycle) s.swapEvaluated := by
  unfold swapBanks
  rw [armed]
  exact congrArg (fun t => complete a.record .ok (s.hubNow.bytes ++ u32 (evaluateFit t).cal.active.cycle) (evaluateFit t))
    (flushWindowless_eq s)

/-! ### Before FLOW_SUSPENDED is reported -/

/-- A bank fits a flow as before where slots, groups and reported widths stand (R77). -/
theorem flowFits_of_same {b : Bank} {r : FlowRecord} (slots : t.slots = s.slots) (fwd : t.fwd = s.fwd)
    (width : ∀ p, (t.port p).reportedWidth = (s.port p).reportedWidth) : t.FlowFits b r ↔ s.FlowFits b r := by
  unfold State.FlowFits State.slot
  simp only [slots, fwd, width]

/-- The state as the swap's flush leaves it. -/
def State.swapFlushed (s : State) : State := forEach s.windowless flushSample s.banksSwapped

theorem swapFlushed_flushed (s : State) : SamplesFlushed s.windowless s.banksSwapped s.swapFlushed :=
  flushSamples_flushed (windowless_nodup s) s.banksSwapped

theorem swapFlushed_changes (s : State) : OnlyChanges pauseParts s.banksSwapped s.swapFlushed :=
  OnlyChanges.forEach (fun p t => flushSample_changes p t) _ _

theorem swapEvaluated_fit (s : State) : FitEvaluated s.cal.pendingBank s s.swapEvaluated := by
  have only := swapFlushed_changes s
  have fwd : s.swapFlushed.fwd = s.fwd := only.same .fwd rfl
  have cal : s.swapFlushed.cal.active = s.cal.pendingBank := congrArg Calendar.active (only.same .cal rfl)
  have slots : s.swapFlushed.slots = s.slots := only.same .slots rfl
  have width (p : Slot) : (s.swapFlushed.port p).reportedWidth = (s.port p).reportedWidth := by
    rw [(swapFlushed_flushed s).port p]
    rfl
  have flow (f : Fin 255) : s.swapFlushed.flow f = s.flow f := by
    unfold State.flow
    rw [fwd]
  have evaluated := evaluateFit_evaluated s.swapFlushed
  intro f
  obtain ⟨fields, written⟩ := evaluated f
  rw [flow] at fields written
  refine ⟨fields, fun r held => ?_⟩
  obtain ⟨other, sample, enabled, rest⟩ := written r held
  rw [cal, flowFits_of_same slots fwd width] at sample
  exact ⟨other, sample, enabled, rest⟩

/-- The state in which FLOW_SUSPENDED is examined: the FIT reasons stand evaluated. -/
def State.swapFitted (s : State) : State :=
  { s.swapFlushed with fwd := { s.swapFlushed.fwd with
    flows := s.swapFlushed.fwd.flows.mapAll fun f => f.resuspend s.swapFlushed.refit } }

/-- FLOW_SUSPENDED is reported once, after all flows of the swap (LOG 30). -/
theorem swapEvaluated_eq (s : State) : s.swapEvaluated =
    changePoint flowSuspendedPoint ((s.swapFitted.point flowSuspendedPoint).report s.swapFitted.flowSuspended)
      s.swapFitted := rfl

theorem swapFitted_alarm (s : State) : s.swapFitted.alarm = s.alarm := (swapFlushed_changes s).same .alarm rfl

theorem swapEvaluated_reported (s : State) :
    PointReported flowSuspendedPoint s.swapEvaluated.flowSuspended s s.swapEvaluated := by
  have reported := reportCondition_reported flowSuspendedPoint s.swapFitted.flowSuspended s.swapFitted
  have fwd : s.swapEvaluated.fwd = s.swapFitted.fwd := reexamineFlows_fwd s.swapFitted
  have suspended : s.swapEvaluated.flowSuspended = s.swapFitted.flowSuspended := by
    unfold State.flowSuspended
    rw [fwd]
  have point : s.swapFitted.point flowSuspendedPoint = s.point flowSuspendedPoint := by
    unfold State.point
    rw [swapFitted_alarm]
  have time : s.swapFitted.time = s.time := (swapFlushed_changes s).same .time rfl
  unfold PointReported PointBecomes at reported ⊢
  rw [suspended, ← point, ← time]
  exact reported

theorem swapEvaluated_changes (s : State) : OnlyChanges flowParts s.banksSwapped s.swapEvaluated :=
  ((swapFlushed_changes s).weaken rfl).seq (evaluateFit_changes s.swapFlushed)

/-- A windowless port's SAMPLE queue is empty, whatever the report of FLOW_SUSPENDED completes (R70, R173). -/
theorem swapEvaluated_windowless {p : Slot} (windowless : (s.cal.pendingBank.windows.read p).isEmpty = true) :
    (s.swapEvaluated.sq p).queues.sample = [] := by
  refine (changePoint_samplesStayEmpty _ _ s.swapFitted).empty p ?_
  show (s.swapFlushed.sq p).queues.sample = []
  rw [(swapFlushed_flushed s).sq p]
  exact if_pos (mem_windowless.2 windowless)

/-- With no wait outstanding the report of FLOW_SUSPENDED reaches the alarm unit alone. -/
theorem swapEvaluated_quiet (none : s.alarm.waits = []) : OnlyChanges [.fwd, .alarm] s.swapFlushed s.swapEvaluated := by
  have fitted : OnlyChanges [.fwd] s.swapFlushed s.swapFitted := with_fwd_changes s.swapFlushed _
  have reported : OnlyChanges [.alarm] s.swapFitted s.swapEvaluated :=
    (changePoint_of_no_waits (by rw [swapFitted_alarm]; exact none) _ _).1
  exact (fitted.weaken rfl).seq (reported.weaken rfl)

theorem swapEvaluated_sq (none : s.alarm.waits = []) (p : Slot) : s.swapEvaluated.sq p = { s.sq p with
    paused := (s.swapEvaluated.sq p).paused
    queues := { (s.sq p).queues with
      sample := if (s.cal.pendingBank.windows.read p).isEmpty then [] else (s.sq p).queues.sample }
    egress := { (s.sq p).egress with
      discards := Nat.iterate oneMore
        (if (s.cal.pendingBank.windows.read p).isEmpty then (s.sq p).queues.sample.length else 0)
        (s.sq p).egress.discards } } := by
  have same : s.swapEvaluated.sq p = s.swapFlushed.sq p := by
    unfold State.sq
    rw [(swapEvaluated_quiet none).same .qm rfl]
  have flushed := (swapFlushed_flushed s).sq p
  simp only [mem_windowless] at flushed
  rw [same]
  exact flushed

theorem swapEvaluated_frame (none : s.alarm.waits = []) (id : Nat) : s.swapEvaluated.frame? id =
    (s.frame? id).bind (·.returned ((s.windowless.flatMap fun p => (s.sq p).queues.sample).count id)) := by
  have same : s.swapEvaluated.frame? id = s.swapFlushed.frame? id := by
    unfold State.frame?
    rw [(swapEvaluated_quiet none).same .qm rfl]
  exact same.trans ((swapFlushed_flushed s).returned.frames id)

theorem swapEvaluated_inflight {k : Nat} (others : ∀ w ∈ s.alarm.waits, w.record ≠ k) :
    s.swapEvaluated.agent.inflight.find? (·.record == k) = s.agent.inflight.find? (·.record == k) := by
  have agent : s.swapFitted.agent = s.agent := (swapFlushed_changes s).same .agent rfl
  refine (changePoint_inflight (s := s.swapFitted) (by rw [swapFitted_alarm]; exact others) _ _).trans ?_
  rw [agent]

theorem calendarSwap_armed {a : Arming} (armed : s.cal.arming = some a) : exec .calendarSwap s =
    .next (checkDrains (arbitrateAll (swapBanks s.begin))) := by
  have isArmed : s.begin.cal.arming.isSome = true := by
    show s.cal.arming.isSome = true
    rw [armed]
    rfl
  show Host.Outcome.next (if s.begin.cal.arming.isSome then _ else s.begin) = _
  rw [if_pos isArmed]

theorem calendarSwap_idle (idle : s.cal.arming = none) : exec .calendarSwap s = .next s.begin := by
  have unarmed : ¬ s.begin.cal.arming.isSome = true := by
    show ¬ s.cal.arming.isSome = true
    rw [idle]
    exact Bool.false_ne_true
  show Host.Outcome.next (if s.begin.cal.arming.isSome then _ else s.begin) = _
  rw [if_neg unarmed]

end

/-- Settles O31: the banks are swapped, ports flushed, FIT evaluated, and the commit answered. -/
theorem calendarSwapChangesBanks : Obligations.CalendarSwapChangesBanks := by
  intro s windowless flushed
  refine ⟨calendarSwap_idle, fun a armed => ?_⟩
  let u := s.begin.swapEvaluated
  have cal : u.cal = ⟨s.cal.pendingBank, s.cal.active, none⟩ := (swapEvaluated_changes s.begin).same .cal rfl
  refine ⟨u, ?_, cal, fun p none => swapEvaluated_windowless (s := s.begin) none, fun none => ?_,
    fun others => swapEvaluated_inflight (s := s.begin) others, swapEvaluated_fit s.begin,
    swapEvaluated_reported s.begin, ?_⟩
  · rw [calendarSwap_armed armed, swapBanks_of_armed (s := s.begin) armed, cal]
    rfl
  · have quiet := swapEvaluated_quiet (s := s.begin) none
    have flush := swapFlushed_changes s.begin
    refine ⟨Eq.trans (quiet.same .agent rfl) (flush.same .agent rfl),
      Eq.trans (quiet.same .delay rfl) (flush.same .delay rfl), swapEvaluated_sq (s := s.begin) none,
      fun id f stored => ?_⟩
    have frame : u.frame? id = (s.frame? id).bind (·.returned (flushed id)) :=
      swapEvaluated_frame (s := s.begin) none id
    rw [stored] at frame
    exact frame
  · have swapped : OnlyChanges [.cal, .out] s s.begin.banksSwapped := fun p => by
      cases p <;> simp [Part.Same, State.banksSwapped, State.begin]
    exact (swapEvaluated_changes s.begin).after (swapped.weaken rfl) rfl

end Sys2Proof.Machine
end
